-- ==== Sys2Proof/Word.lean ====
section
/-!
DEFINITION. The word types of the SX2960 and their plainest arithmetic (00_scope R2, R4), and the plain data that
the steps without a word name: parts, rings, requests.
-/

namespace Sys2Proof

/-- A byte of memory. -/
abbrev Byte := BitVec 8
/-- A lane register, a uniform register, an instruction word. -/
abbrev W32 := BitVec 32
/-- A register pair, an address before translation, a link register. -/
abbrev W64 := BitVec 64
/-- One bit per lane of a gang. -/
abbrev LaneMask := BitVec 32

/-- A pair from its two registers: the lower-numbered one holds the least significant half (R4). -/
def pairOf (lo hi : W32) : W64 := hi ++ lo

/-- The lower-numbered register of a pair. -/
def pairLo (x : W64) : W32 := x.extractLsb' 0 32

/-- The higher-numbered register of a pair. -/
def pairHi (x : W64) : W32 := x.extractLsb' 32 32

/-- The natural number of a field `x[lo + w - 1 : lo]` (R2). -/
def bitsAt {n : Nat} (x : BitVec n) (lo w : Nat) : Nat := (x.extractLsb' lo w).toNat

/-- A part, named by one of its slices (R138). -/
structure PartRef where
  crew : Nat
  gang : Nat
  slice : Nat
deriving DecidableEq, Repr

/-- An access of a part whose data arrive: which one of those that the part waits for, by number (05_work R113). -/
structure Arrival where
  part : PartRef
  n : Nat
deriving DecidableEq, Repr

/-- Who writes a control register of a die: a resident core, or the die's firmware core (22_system R430, R443). -/
structure RegWriter where
  die : Nat
  firmware : Bool
deriving DecidableEq, Repr

/-- A ring, named by die, merge group and place in the group (R360). -/
structure RingRef where
  die : Nat
  group : Nat
  ring : Nat
deriving DecidableEq, Repr

/-- The units of a coprocessor block (20_coprocessors R386). -/
inductive CopUnit where
  | raster | depth | blend | texture | traversal
deriving DecidableEq, Repr

/-- The read-modify-write operations of a home slice (R257): the integer atomics. -/
inductive AtomOp where
  | add | and | or | xor | minS | maxS | minN | maxN | xchg | cas
deriving DecidableEq, Repr

/-- What a request that arrives through a port asks for (R450, R454). -/
inductive PortOp where
  | read
  | write
  | atomic (op : AtomOp)
  /-- A floating atomic, by its Datewick code major × 16 + fn (R454). -/
  | floating (code : Nat)
deriving DecidableEq, Repr

/-- A request of a port: its address (a BAR2 offset, a bus address or a physical address), its size in bytes, the
requester that issued it, and its data: up to 512 bytes (R450), the first in the lowest bits. -/
structure PortReq where
  op : PortOp
  addr : Nat
  size : Nat
  requester : Nat
  value : BitVec 4096
  compare : BitVec 128
deriving DecidableEq, Repr

/-- The access of a resident core's hart (R442). -/
inductive HartOp where
  | load | store | fetch | lr | sc
  | amo (op : AtomOp)
deriving DecidableEq, Repr

/-- One access of a hart: its virtual (or, with MODE Bare, physical) address, size, data, whether it is made in S-mode or
in U-mode, and `sstatus`.SUM as the hart's own instructions left it. -/
structure HartReq where
  op : HartOp
  addr : BitVec 64
  size : Nat
  value : BitVec 64
  compare : BitVec 64
  supervisor : Bool
  sum : Bool
  /-- The rl bit of an AMO or SC (14_ordering R302). -/
  rl : Bool := false
  /-- A store stays in the hart's store buffer until an event performs it (R302; notes/assumptions/9). -/
  late : Bool := false
deriving DecidableEq, Repr

end Sys2Proof
end

