-- ==== Sys2Proof/Config.lean ====
section
/-!
DEFINITION. What an SX2960 fixes for itself, and the free values: constants without a body, so that no proof can
know what they are. Each one stands where the spec leaves a value open; notes/assumptions names it.
-/

namespace Sys2Proof.Config

/-- The clocks that pass in one step of the machine, by the number of the step: the spec gives bounds and no values (R9,
R61; log 3). -/
opaque elapsed : Nat → Nat

/-- A byte of another module of the peer group, whose memory is no part of this module's state: the moment, the module
and the address (R296; log 11). -/
opaque remoteByte : Nat → Nat → Nat → Byte

/-- A remote access is refused by the module that owns the page, which is no part of this state (22_system R424; log 11). -/
opaque remoteRefuses : Nat → Bool

/-- The attribute entry of a page on another module (R216, R296; log 11). -/
opaque remoteEntry : Nat → BitVec 16

/-- A byte read through an outbound window from the host's or a drive's bus: the moment and the address (R451; log 12). -/
opaque busByte : Nat → Nat → Byte

/-- An element of accumulator storage after its tile is allocated and before the queued zeroing is performed (R326,
R339; log 13). -/
opaque staleElement : Nat → Nat → W32

/-- A value a resident core's vendor-independent register takes by the RISC-V specifications, which are no part of this
spec (R441; log 15). -/
opaque riscvValue : Nat → W64

/-- A word of an SPDM response whose content is made from fused keys or certificates (R461; log 16). -/
opaque spdmWord : Nat → W64

/-- A resident core accepts a translation mode that the RISC-V specifications leave to it (22_system R441; log 15). -/
opaque riscvMode : Nat → Bool

/-- A requested share that was scaled to no whole number is rounded up (22_system R444; log 39). -/
opaque shareUp : Nat → Nat → Bool

/-- The address of a die's event page (22_system R444; log 6). -/
opaque eventPage : Nat → W64

/-- Where the reply area of a tenant's plug-in lies in its window: die and tenant (22_system R444; log 6). -/
opaque replyOffset : Nat → Nat → Nat

/-- What the checks of the start (self test, signature) find (R460, R461; log 17). -/
opaque startPasses : Nat → Bool

/-- A word of a coprocessor record whose value the spec does not state: the moment, and 32 × word + lane (R419; log 30). -/
opaque recordWord : Nat → Nat → W32

/-- The texel index that an infinite coordinate gives under repeat or mirror: the moment, and the lookup with its axis
(R411; log 31). -/
opaque infiniteTexel : Nat → Nat → Nat

/-- The address of a target's fault word when the fault has none (R392; log 32). -/
opaque faultWordAddress : Nat → BitVec 52

end Sys2Proof.Config
end

