-- ==== Sys2Proof/Syntax.lean ====
section
/-!
DEFINITION. The syntax of the machine: one constructor per row of the table of operations and events.

The first 344 constructors are the words of the Izxisyn instruction set (03_encoding, R48 to R73): their arguments
are the fields of the word, and a field that an entry fixes is no argument. The others are the steps of the table that
have no word (95_what_each_step_holds): their arguments are the choices the hardware or the outside world makes in
that step (which die, which core, which request).
-/

namespace Sys2Proof

/-- Format A with its three registers: guard, k, d, a, b (R49). -/
structure OpA where
  g : BitVec 3
  k : BitVec 1
  d : BitVec 6
  a : BitVec 6
  b : BitVec 6
deriving DecidableEq, Repr

/-- Format A, unary: field a is zero (R159). -/
structure OpU where
  g : BitVec 3
  k : BitVec 1
  d : BitVec 6
  b : BitVec 6
deriving DecidableEq, Repr

/-- Format A with d and a: k and b are fixed by the entry. -/
structure OpN where
  g : BitVec 3
  d : BitVec 6
  a : BitVec 6
deriving DecidableEq, Repr

/-- A compare to predicate p (R166). -/
structure OpCmp where
  g : BitVec 3
  k : BitVec 1
  p : BitVec 3
  a : BitVec 6
  b : BitVec 6
deriving DecidableEq, Repr

/-- Predicate logic over three predicates (R167). -/
structure OpPred where
  g : BitVec 3
  k : BitVec 1
  p : BitVec 3
  a : BitVec 3
  b : BitVec 3
deriving DecidableEq, Repr

/-- A no-return reduction: d is zero (R257). -/
structure OpRed where
  g : BitVec 3
  k : BitVec 1
  a : BitVec 6
  b : BitVec 6
deriving DecidableEq, Repr

/-- Format M (R52). -/
structure OpM where
  g : BitVec 3
  t : BitVec 6
  sb : BitVec 5
  x : BitVec 6
  f : BitVec 3
  w : BitVec 3
deriving DecidableEq, Repr

/-- Format C: the e bit is fixed by the entry (R55). -/
structure OpC where
  g : BitVec 3
  d : BitVec 6
  a : BitVec 6
  b : BitVec 6
deriving DecidableEq, Repr

/-- Format S with d and a (R54). -/
structure OpS where
  d : BitVec 6
  a : BitVec 6
deriving DecidableEq, Repr

/-- A predicate collective into a `v` register (R151). -/
structure OpPv where
  g : BitVec 3
  d : BitVec 6
  a : BitVec 3
deriving DecidableEq, Repr

/-- A predicate collective into a predicate (R151). -/
structure OpPp where
  g : BitVec 3
  p : BitVec 3
  a : BitVec 3
deriving DecidableEq, Repr

/-- One constructor per row of the table of operations and events. -/
inductive Instr where
  /-- `BR`, R148. -/
  | br (p : BitVec 3) (n : BitVec 1) (o : BitVec 22)
  /-- `CALL`, R149. -/
  | call (p : BitVec 3) (n : BitVec 1) (o : BitVec 22)
  /-- `JMPI`, R150. -/
  | jmpi (g : BitVec 3) (a : BitVec 6)
  /-- `CALLI`, R150. -/
  | calli (g : BitVec 3) (a : BitVec 6)
  /-- `CALLI_SAVE`, R150. -/
  | calliSave (f : OpN)
  /-- `RET`, R150. -/
  | ret_ (g : BitVec 3)
  /-- `REGANG`, R152. -/
  | regang
  /-- `PFOLD_EVERY`, R153. -/
  | pfoldEvery (f : OpPp)
  /-- `PFOLD_SOME`, R153. -/
  | pfoldSome (f : OpPp)
  /-- `PFOLD_ODD`, R153. -/
  | pfoldOdd (f : OpPp)
  /-- `PFOLD_AGREE`, R153. -/
  | pfoldAgree (f : OpPp)
  /-- `PMASK`, R153. -/
  | pmask (f : OpPv)
  /-- `PMASK_BELOW`, R153. -/
  | pmaskBelow (f : OpPv)
  /-- `PRANK`, R153. -/
  | prank (f : OpPv)
  /-- `PRANK_TOTAL`, R153. -/
  | prankTotal (f : OpPv)
  /-- `LFETCH_AT`, R154. -/
  | lfetchAt (f : OpA)
  /-- `LFETCH_OFF`, R154. -/
  | lfetchOff (f : OpA)
  /-- `LFETCH_FLIP`, R154. -/
  | lfetchFlip (f : OpA)
  /-- `LFETCH_HEAD`, R154. -/
  | lfetchHead (f : OpA)
  /-- `GRED_ADD_S32`, R249. -/
  | gredAddS32 (f : OpN)
  /-- `GRED_MIN_S32`, R249. -/
  | gredMinS32 (f : OpN)
  /-- `GRED_MAX_S32`, R249. -/
  | gredMaxS32 (f : OpN)
  /-- `GRED_MIN_N32`, R249. -/
  | gredMinN32 (f : OpN)
  /-- `GRED_MAX_N32`, R249. -/
  | gredMaxN32 (f : OpN)
  /-- `GRED_AND`, R249. -/
  | gredAnd (f : OpN)
  /-- `GRED_OR`, R249. -/
  | gredOr (f : OpN)
  /-- `GRED_XOR`, R249. -/
  | gredXor (f : OpN)
  /-- `GRED_ADD_F32`, R249. -/
  | gredAddF32 (f : OpN)
  /-- `GRED_MIN_F32`, R249. -/
  | gredMinF32 (f : OpN)
  /-- `GRED_MAX_F32`, R249. -/
  | gredMaxF32 (f : OpN)
  /-- `GRED_ADD_F64`, R249. -/
  | gredAddF64 (f : OpN)
  /-- `GRED_MIN_F64`, R249. -/
  | gredMinF64 (f : OpN)
  /-- `GRED_MAX_F64`, R249. -/
  | gredMaxF64 (f : OpN)
  /-- `GSCAN_ADD_S32`, R249. -/
  | gscanAddS32 (f : OpN)
  /-- `GSCAN_MIN_S32`, R249. -/
  | gscanMinS32 (f : OpN)
  /-- `GSCAN_MAX_S32`, R249. -/
  | gscanMaxS32 (f : OpN)
  /-- `GSCAN_MIN_N32`, R249. -/
  | gscanMinN32 (f : OpN)
  /-- `GSCAN_MAX_N32`, R249. -/
  | gscanMaxN32 (f : OpN)
  /-- `GSCAN_AND`, R249. -/
  | gscanAnd (f : OpN)
  /-- `GSCAN_OR`, R249. -/
  | gscanOr (f : OpN)
  /-- `GSCAN_XOR`, R249. -/
  | gscanXor (f : OpN)
  /-- `GSCAN_ADD_F32`, R249. -/
  | gscanAddF32 (f : OpN)
  /-- `GSCAN_MIN_F32`, R249. -/
  | gscanMinF32 (f : OpN)
  /-- `GSCAN_MAX_F32`, R249. -/
  | gscanMaxF32 (f : OpN)
  /-- `GSCAN_ADD_F64`, R249. -/
  | gscanAddF64 (f : OpN)
  /-- `GSCAN_MIN_F64`, R249. -/
  | gscanMinF64 (f : OpN)
  /-- `GSCAN_MAX_F64`, R249. -/
  | gscanMaxF64 (f : OpN)
  /-- `ADD`, R160. -/
  | add (f : OpA)
  /-- `SUB`, R160. -/
  | sub (f : OpA)
  /-- `MUL`, R160. -/
  | mul (f : OpA)
  /-- `MULHI_S32`, R160. -/
  | mulhiS32 (f : OpA)
  /-- `MULHI_N32`, R160. -/
  | mulhiN32 (f : OpA)
  /-- `MAD`, R160. -/
  | mad (f : OpA)
  /-- `DIV_S32`, R160. -/
  | divS32 (f : OpA)
  /-- `DIV_N32`, R160. -/
  | divN32 (f : OpA)
  /-- `REM_S32`, R160. -/
  | remS32 (f : OpA)
  /-- `REM_N32`, R160. -/
  | remN32 (f : OpA)
  /-- `MIN_S32`, R160. -/
  | minS32 (f : OpA)
  /-- `MAX_S32`, R160. -/
  | maxS32 (f : OpA)
  /-- `MIN_N32`, R160. -/
  | minN32 (f : OpA)
  /-- `MAX_N32`, R160. -/
  | maxN32 (f : OpA)
  /-- `ABS_S32`, R160. -/
  | absS32 (f : OpU)
  /-- `ADDS_S32`, R161. -/
  | addsS32 (f : OpA)
  /-- `ADD_S64`, R163. -/
  | addS64 (f : OpA)
  /-- `SUB_S64`, R163. -/
  | subS64 (f : OpA)
  /-- `MUL_S64`, R163. -/
  | mulS64 (f : OpA)
  /-- `MULHI_S64`, R163. -/
  | mulhiS64 (f : OpA)
  /-- `MULHI_N64`, R163. -/
  | mulhiN64 (f : OpA)
  /-- `MAD_S64`, R163. -/
  | madS64 (f : OpA)
  /-- `MIN_S64`, R163. -/
  | minS64 (f : OpA)
  /-- `MAX_S64`, R163. -/
  | maxS64 (f : OpA)
  /-- `MIN_N64`, R163. -/
  | minN64 (f : OpA)
  /-- `MAX_N64`, R163. -/
  | maxN64 (f : OpA)
  /-- `SHL_64`, R163. -/
  | shl64 (f : OpA)
  /-- `SHR_N64`, R163. -/
  | shrN64 (f : OpA)
  /-- `SHR_S64`, R163. -/
  | shrS64 (f : OpA)
  /-- `LEA`, R163. -/
  | lea (f : OpA)
  /-- `AND`, R164. -/
  | and_ (f : OpA)
  /-- `OR`, R164. -/
  | or_ (f : OpA)
  /-- `XOR`, R164. -/
  | xor_ (f : OpA)
  /-- `ANDN`, R164. -/
  | andn (f : OpA)
  /-- `SHL`, R164. -/
  | shl (f : OpA)
  /-- `SHR_N32`, R164. -/
  | shrN32 (f : OpA)
  /-- `SHR_S32`, R164. -/
  | shrS32 (f : OpA)
  /-- `ROTL`, R164. -/
  | rotl (f : OpA)
  /-- `POPC`, R164. -/
  | popc (f : OpU)
  /-- `CLZ`, R164. -/
  | clz (f : OpU)
  /-- `CTZ`, R164. -/
  | ctz (f : OpU)
  /-- `BREV`, R164. -/
  | brev (f : OpU)
  /-- `BEXT`, R165. -/
  | bext (f : OpA)
  /-- `BINS`, R165. -/
  | bins (f : OpA)
  /-- `MOV`, R164. -/
  | mov (f : OpU)
  /-- `EQ`, R166. -/
  | eq (f : OpCmp)
  /-- `NE`, R166. -/
  | ne (f : OpCmp)
  /-- `LT_S32`, R166. -/
  | ltS32 (f : OpCmp)
  /-- `LE_S32`, R166. -/
  | leS32 (f : OpCmp)
  /-- `LT_N32`, R166. -/
  | ltN32 (f : OpCmp)
  /-- `LE_N32`, R166. -/
  | leN32 (f : OpCmp)
  /-- `GT_S32`, R166. -/
  | gtS32 (f : OpCmp)
  /-- `GE_S32`, R166. -/
  | geS32 (f : OpCmp)
  /-- `GT_N32`, R166. -/
  | gtN32 (f : OpCmp)
  /-- `GE_N32`, R166. -/
  | geN32 (f : OpCmp)
  /-- `LT_S64`, R166. -/
  | ltS64 (f : OpCmp)
  /-- `LT_N64`, R166. -/
  | ltN64 (f : OpCmp)
  /-- `EQ_64`, R166. -/
  | eq64 (f : OpCmp)
  /-- `PAND`, R167. -/
  | pand (f : OpPred)
  /-- `POR`, R167. -/
  | por (f : OpPred)
  /-- `PXOR`, R167. -/
  | pxor (f : OpPred)
  /-- `PANDN`, R167. -/
  | pandn (f : OpPred)
  /-- `PMOV`, R167. -/
  | pmov (g : BitVec 3) (k : BitVec 1) (d : BitVec 3) (b : BitVec 3)
  /-- `PREAD`, R167. -/
  | pread (g : BitVec 3) (k : BitVec 1) (d : BitVec 6) (b : BitVec 3)
  /-- `ADDI`, R168. -/
  | addi (g : BitVec 3) (d : BitVec 6) (a : BitVec 6) (i : BitVec 11)
  /-- `MOVI`, R169. -/
  | movi (g : BitVec 3) (d : BitVec 6) (v : BitVec 1) (i : BitVec 16)
  /-- `MOVHI`, R169. -/
  | movhi (g : BitVec 3) (d : BitVec 6) (v : BitVec 1) (i : BitVec 16)
  /-- `ADD_F32`, R178. -/
  | addF32 (f : OpA)
  /-- `SUB_F32`, R178. -/
  | subF32 (f : OpA)
  /-- `MUL_F32`, R178. -/
  | mulF32 (f : OpA)
  /-- `FMA_F32`, R178. -/
  | fmaF32 (f : OpA)
  /-- `FNMA_F32`, R178. -/
  | fnmaF32 (f : OpA)
  /-- `MIN_F32`, R178. -/
  | minF32 (f : OpA)
  /-- `MAX_F32`, R178. -/
  | maxF32 (f : OpA)
  /-- `ABS_F32`, R180. -/
  | absF32 (f : OpU)
  /-- `NEG_F32`, R180. -/
  | negF32 (f : OpU)
  /-- `RCP_F32`, R179. -/
  | rcpF32 (f : OpU)
  /-- `RSQRT_F32`, R179. -/
  | rsqrtF32 (f : OpU)
  /-- `SQRT_F32`, R179. -/
  | sqrtF32 (f : OpU)
  /-- `EXP2_F32`, R179. -/
  | exp2F32 (f : OpU)
  /-- `LOG2_F32`, R179. -/
  | log2F32 (f : OpU)
  /-- `COPYSIGN_F32`, R180. -/
  | copysignF32 (f : OpA)
  /-- `ADD_F64`, R181. -/
  | addF64 (f : OpA)
  /-- `SUB_F64`, R181. -/
  | subF64 (f : OpA)
  /-- `MUL_F64`, R181. -/
  | mulF64 (f : OpA)
  /-- `FMA_F64`, R181. -/
  | fmaF64 (f : OpA)
  /-- `FNMA_F64`, R181. -/
  | fnmaF64 (f : OpA)
  /-- `MIN_F64`, R181. -/
  | minF64 (f : OpA)
  /-- `MAX_F64`, R181. -/
  | maxF64 (f : OpA)
  /-- `ABS_F64`, R181. -/
  | absF64 (f : OpU)
  /-- `NEG_F64`, R181. -/
  | negF64 (f : OpU)
  /-- `RCP_F64`, R181. -/
  | rcpF64 (f : OpU)
  /-- `RSQRT_F64`, R181. -/
  | rsqrtF64 (f : OpU)
  /-- `SQRT_F64`, R181. -/
  | sqrtF64 (f : OpU)
  /-- `COPYSIGN_F64`, R181. -/
  | copysignF64 (f : OpA)
  /-- `ADD_H16`, R182. -/
  | addH16 (f : OpA)
  /-- `MUL_H16`, R182. -/
  | mulH16 (f : OpA)
  /-- `FMA_H16`, R182. -/
  | fmaH16 (f : OpA)
  /-- `MIN_H16`, R182. -/
  | minH16 (f : OpA)
  /-- `MAX_H16`, R182. -/
  | maxH16 (f : OpA)
  /-- `ADD_BF16`, R182. -/
  | addBf16 (f : OpA)
  /-- `MUL_BF16`, R182. -/
  | mulBf16 (f : OpA)
  /-- `FMA_BF16`, R182. -/
  | fmaBf16 (f : OpA)
  /-- `MIN_BF16`, R182. -/
  | minBf16 (f : OpA)
  /-- `MAX_BF16`, R182. -/
  | maxBf16 (f : OpA)
  /-- `ADD_H16X2`, R183. -/
  | addH16x2 (f : OpA)
  /-- `MUL_H16X2`, R183. -/
  | mulH16x2 (f : OpA)
  /-- `FMA_H16X2`, R183. -/
  | fmaH16x2 (f : OpA)
  /-- `MIN_H16X2`, R183. -/
  | minH16x2 (f : OpA)
  /-- `MAX_H16X2`, R183. -/
  | maxH16x2 (f : OpA)
  /-- `ADD_BF16X2`, R183. -/
  | addBf16x2 (f : OpA)
  /-- `MUL_BF16X2`, R183. -/
  | mulBf16x2 (f : OpA)
  /-- `FMA_BF16X2`, R183. -/
  | fmaBf16x2 (f : OpA)
  /-- `MIN_BF16X2`, R183. -/
  | minBf16x2 (f : OpA)
  /-- `MAX_BF16X2`, R183. -/
  | maxBf16x2 (f : OpA)
  /-- `FEQ_F32`, R184. -/
  | feqF32 (f : OpCmp)
  /-- `FLT_F32`, R184. -/
  | fltF32 (f : OpCmp)
  /-- `FLE_F32`, R184. -/
  | fleF32 (f : OpCmp)
  /-- `FUNORD_F32`, R184. -/
  | funordF32 (f : OpCmp)
  /-- `FEQ_F64`, R184. -/
  | feqF64 (f : OpCmp)
  /-- `FLT_F64`, R184. -/
  | fltF64 (f : OpCmp)
  /-- `FLE_F64`, R184. -/
  | fleF64 (f : OpCmp)
  /-- `FUNORD_F64`, R184. -/
  | funordF64 (f : OpCmp)
  /-- `CVT`, R185. -/
  | cvt (g : BitVec 3) (c : BitVec 4) (d : BitVec 6) (a : BitVec 6) (u : BitVec 4)
  /-- `TFENCE`, R186. -/
  | tfence
  /-- `MMUL`, R309. -/
  | mmul (g : BitVec 3) (k : BitVec 1) (n : BitVec 2) (d : BitVec 6) (a : BitVec 6) (b : BitVec 6)
  /-- `MADD`, R309. -/
  | madd (g : BitVec 3) (k : BitVec 1) (n : BitVec 2) (d : BitVec 6) (a : BitVec 6) (b : BitVec 6)
  /-- `MSUB`, R309. -/
  | msub (g : BitVec 3) (k : BitVec 1) (n : BitVec 2) (d : BitVec 6) (a : BitVec 6) (b : BitVec 6)
  /-- `MMAC`, R309. -/
  | mmac (g : BitVec 3) (k : BitVec 1) (n : BitVec 2) (d : BitVec 6) (a : BitVec 6) (b : BitVec 6)
  /-- `MRED`, R310. -/
  | mred (g : BitVec 3) (n : BitVec 2) (d : BitVec 6) (a : BitVec 6)
  /-- `MRED128`, R310. -/
  | mred128 (g : BitVec 3) (n : BitVec 2) (d : BitVec 6) (a : BitVec 6)
  /-- `MNEG`, R310. -/
  | mneg (g : BitVec 3) (n : BitVec 2) (d : BitVec 6) (a : BitVec 6)
  /-- `BFLY`, R311. -/
  | bfly (g : BitVec 3) (n : BitVec 2) (d : BitVec 6) (a : BitVec 6) (s : BitVec 3)
  /-- `IBFLY`, R311. -/
  | ibfly (g : BitVec 3) (n : BitVec 2) (d : BitVec 6) (a : BitVec 6) (s : BitVec 3)
  /-- `PERM`, R313. -/
  | perm (g : BitVec 3) (d : BitVec 6) (a : BitVec 6) (b : BitVec 6)
  /-- `LROT`, R314. -/
  | lrot (g : BitVec 3) (d : BitVec 6) (a : BitVec 6) (b : BitVec 6)
  /-- `SETM`, R315. -/
  | setm (g : BitVec 3) (n : BitVec 2) (a : BitVec 6)
  /-- `GETM`, R316. -/
  | getm (g : BitVec 3) (n : BitVec 2) (a : BitVec 6)
  /-- `GETK`, R316. -/
  | getk (g : BitVec 3) (n : BitVec 2) (a : BitVec 6)
  /-- `LD`, R200. -/
  | ld (f : OpM)
  /-- `ST`, R200. -/
  | st (f : OpM)
  /-- `LDE`, R203. -/
  | lde (f : OpM)
  /-- `STE`, R204. -/
  | ste (f : OpM)
  /-- `PREQ`, R226. -/
  | preq (d : BitVec 6) (a : BitVec 6) (p : BitVec 3) (r : BitVec 1) (q : BitVec 1)
  /-- `LCLEAN`, R208. -/
  | lclean (a : BitVec 6) (i : BitVec 8)
  /-- `PF`, R207. -/
  | pf (d : BitVec 6) (a : BitVec 6) (w : BitVec 1)
  /-- `LFLUSH`, R208. -/
  | lflush (a : BitVec 6) (i : BitVec 8)
  /-- `LINV`, R208. -/
  | linv (a : BitVec 6) (i : BitVec 8)
  /-- `LDS`, R206. -/
  | lds (d : BitVec 6) (a : BitVec 6) (f : BitVec 3) (w : BitVec 2)
  /-- `CST`, R209. -/
  | cst (d : BitVec 6) (a : BitVec 6) (p : BitVec 3) (w : BitVec 2)
  /-- `EXLD`, R209. -/
  | exld (d : BitVec 6) (a : BitVec 6) (f : BitVec 3) (p : BitVec 3) (w : BitVec 2)
  /-- `TALLOC`, R246. -/
  | talloc (d : BitVec 6) (a : BitVec 6) (b : BitVec 6)
  /-- `TFREE`, R246. -/
  | tfree (a : BitVec 6)
  /-- `TFILL`, R237. -/
  | tfill (d : BitVec 6) (a : BitVec 6) (b : BitVec 6)
  /-- `TFLUSH`, R246. -/
  | tflush (d : BitVec 6) (a : BitVec 6)
  /-- `TQUERY`, R246. -/
  | tquery (f : OpN)
  /-- `TLD`, R247. -/
  | tld (g : BitVec 3) (k : BitVec 1) (w : BitVec 2) (d : BitVec 6) (a : BitVec 6) (b : BitVec 6)
  /-- `TST`, R247. -/
  | tst (g : BitVec 3) (k : BitVec 1) (w : BitVec 2) (d : BitVec 6) (a : BitVec 6) (b : BitVec 6)
  /-- `TLDE`, R247. -/
  | tlde (f : OpA)
  /-- `TSTE`, R247. -/
  | tste (f : OpA)
  /-- `TLDG`, R248. -/
  | tldg (f : OpA)
  /-- `TSTG`, R248. -/
  | tstg (f : OpA)
  /-- `MACQ`, R342. -/
  | macq (a : BitVec 6)
  /-- `MREL`, R342. -/
  | mrel (a : BitVec 6)
  /-- `ATOM_ADD`, R257. -/
  | atomAdd (f : OpA)
  /-- `ATOM_AND`, R257. -/
  | atomAnd (f : OpA)
  /-- `ATOM_OR`, R257. -/
  | atomOr (f : OpA)
  /-- `ATOM_XOR`, R257. -/
  | atomXor (f : OpA)
  /-- `ATOM_MIN_S32`, R257. -/
  | atomMinS32 (f : OpA)
  /-- `ATOM_MAX_S32`, R257. -/
  | atomMaxS32 (f : OpA)
  /-- `ATOM_MIN_N32`, R257. -/
  | atomMinN32 (f : OpA)
  /-- `ATOM_MAX_N32`, R257. -/
  | atomMaxN32 (f : OpA)
  /-- `ATOM_XCHG`, R257. -/
  | atomXchg (f : OpA)
  /-- `ATOM_CAS`, R257. -/
  | atomCas (f : OpA)
  /-- `RED_ADD`, R256. -/
  | redAdd (f : OpRed)
  /-- `RED_AND`, R256. -/
  | redAnd (f : OpRed)
  /-- `RED_OR`, R256. -/
  | redOr (f : OpRed)
  /-- `RED_XOR`, R256. -/
  | redXor (f : OpRed)
  /-- `RED_MIN_S32`, R256. -/
  | redMinS32 (f : OpRed)
  /-- `RED_MAX_S32`, R256. -/
  | redMaxS32 (f : OpRed)
  /-- `RED_MIN_N32`, R256. -/
  | redMinN32 (f : OpRed)
  /-- `RED_MAX_N32`, R256. -/
  | redMaxN32 (f : OpRed)
  /-- `ATOM_ADD_N64`, R257. -/
  | atomAddN64 (f : OpA)
  /-- `ATOM_AND_N64`, R257. -/
  | atomAndN64 (f : OpA)
  /-- `ATOM_OR_N64`, R257. -/
  | atomOrN64 (f : OpA)
  /-- `ATOM_XOR_N64`, R257. -/
  | atomXorN64 (f : OpA)
  /-- `ATOM_MIN_S64`, R257. -/
  | atomMinS64 (f : OpA)
  /-- `ATOM_MAX_S64`, R257. -/
  | atomMaxS64 (f : OpA)
  /-- `ATOM_MIN_N64`, R257. -/
  | atomMinN64 (f : OpA)
  /-- `ATOM_MAX_N64`, R257. -/
  | atomMaxN64 (f : OpA)
  /-- `ATOM_XCHG_N64`, R257. -/
  | atomXchgN64 (f : OpA)
  /-- `ATOM_CAS_N64`, R257. -/
  | atomCasN64 (f : OpA)
  /-- `RED_ADD_N64`, R256. -/
  | redAddN64 (f : OpRed)
  /-- `RED_AND_N64`, R256. -/
  | redAndN64 (f : OpRed)
  /-- `RED_OR_N64`, R256. -/
  | redOrN64 (f : OpRed)
  /-- `RED_XOR_N64`, R256. -/
  | redXorN64 (f : OpRed)
  /-- `RED_MIN_S64`, R256. -/
  | redMinS64 (f : OpRed)
  /-- `RED_MAX_S64`, R256. -/
  | redMaxS64 (f : OpRed)
  /-- `RED_MIN_N64`, R256. -/
  | redMinN64 (f : OpRed)
  /-- `RED_MAX_N64`, R256. -/
  | redMaxN64 (f : OpRed)
  /-- `ATOM_ADD_F32`, R258. -/
  | atomAddF32 (f : OpA)
  /-- `ATOM_MIN_F32`, R258. -/
  | atomMinF32 (f : OpA)
  /-- `ATOM_MAX_F32`, R258. -/
  | atomMaxF32 (f : OpA)
  /-- `ATOM_ADD_F64`, R258. -/
  | atomAddF64 (f : OpA)
  /-- `ATOM_MIN_F64`, R258. -/
  | atomMinF64 (f : OpA)
  /-- `ATOM_MAX_F64`, R258. -/
  | atomMaxF64 (f : OpA)
  /-- `ATOM_ADD_BF16X2`, R258. -/
  | atomAddBf16x2 (f : OpA)
  /-- `ATOM_MIN_BF16X2`, R258. -/
  | atomMinBf16x2 (f : OpA)
  /-- `ATOM_MAX_BF16X2`, R258. -/
  | atomMaxBf16x2 (f : OpA)
  /-- `ATOM_ADD_H16X2`, R258. -/
  | atomAddH16x2 (f : OpA)
  /-- `ATOM_MIN_H16X2`, R258. -/
  | atomMinH16x2 (f : OpA)
  /-- `ATOM_MAX_H16X2`, R258. -/
  | atomMaxH16x2 (f : OpA)
  /-- `ATOM_ADD_BF16`, R258. -/
  | atomAddBf16 (f : OpA)
  /-- `ATOM_MIN_BF16`, R258. -/
  | atomMinBf16 (f : OpA)
  /-- `ATOM_MAX_BF16`, R258. -/
  | atomMaxBf16 (f : OpA)
  /-- `RED_ADD_F32`, R258. -/
  | redAddF32 (f : OpRed)
  /-- `RED_MIN_F32`, R258. -/
  | redMinF32 (f : OpRed)
  /-- `RED_MAX_F32`, R258. -/
  | redMaxF32 (f : OpRed)
  /-- `RED_ADD_F64`, R258. -/
  | redAddF64 (f : OpRed)
  /-- `RED_MIN_F64`, R258. -/
  | redMinF64 (f : OpRed)
  /-- `RED_MAX_F64`, R258. -/
  | redMaxF64 (f : OpRed)
  /-- `RED_ADD_BF16X2`, R258. -/
  | redAddBf16x2 (f : OpRed)
  /-- `RED_MIN_BF16X2`, R258. -/
  | redMinBf16x2 (f : OpRed)
  /-- `RED_MAX_BF16X2`, R258. -/
  | redMaxBf16x2 (f : OpRed)
  /-- `RED_ADD_H16X2`, R258. -/
  | redAddH16x2 (f : OpRed)
  /-- `RED_MIN_H16X2`, R258. -/
  | redMinH16x2 (f : OpRed)
  /-- `RED_MAX_H16X2`, R258. -/
  | redMaxH16x2 (f : OpRed)
  /-- `RED_ADD_BF16`, R258. -/
  | redAddBf16 (f : OpRed)
  /-- `RED_MIN_BF16`, R258. -/
  | redMinBf16 (f : OpRed)
  /-- `RED_MAX_BF16`, R258. -/
  | redMaxBf16 (f : OpRed)
  /-- `CAS128`, R259. -/
  | cas128 (g : BitVec 3) (d : BitVec 6) (a : BitVec 6) (b : BitVec 6)
  /-- `LRES_32`, R261. -/
  | lres32 (f : OpN)
  /-- `LRES_64`, R261. -/
  | lres64 (f : OpN)
  /-- `SCOND_32`, R262. -/
  | scond32 (f : OpA)
  /-- `SCOND_64`, R262. -/
  | scond64 (f : OpA)
  /-- `MON`, R264. -/
  | mon (g : BitVec 3) (a : BitVec 6)
  /-- `FENCE`, R266. -/
  | fence (s : BitVec 3)
  /-- `FENCE_ACQ`, R266. -/
  | fenceAcq (s : BitVec 3)
  /-- `FENCE_REL`, R266. -/
  | fenceRel (s : BitVec 3)
  /-- `BAR`, R271. -/
  | bar (n : BitVec 4)
  /-- `GBAR`, R272. -/
  | gbar (a : BitVec 6)
  /-- `MWAIT`, R265. -/
  | mwait
  /-- `LAUNCH`, R131. -/
  | launch (a : BitVec 6)
  /-- `SPAWN`, R132. -/
  | spawn (f : OpS)
  /-- `JCNT`, R133. -/
  | jcnt (d : BitVec 6) (a : BitVec 6) (i : BitVec 8)
  /-- `EXIT`, R134. -/
  | exit_
  /-- `YIELD`, R135. -/
  | yield
  /-- `GQUERY`, R136. -/
  | gquery (f : OpS)
  /-- `QPUSH`, R376. -/
  | qpush (f : OpS)
  /-- `QTAIL`, R377. -/
  | qtail (f : OpS)
  /-- `SEQWAIT`, R378. -/
  | seqwait (f : OpS)
  /-- `DSUB`, R379. -/
  | dsub (f : OpS)
  /-- `VSUB`, R379. -/
  | vsub (f : OpS)
  /-- `CSUB`, R379. -/
  | csub (f : OpS)
  /-- `QHEAD`, R380. -/
  | qhead (f : OpS)
  /-- `QHEAD_WAIT`, R380. -/
  | qheadWait (f : OpS)
  /-- `SEQREAD`, R381. -/
  | seqread (f : OpS)
  /-- `MLOAD`, R335. -/
  | mload (d : BitVec 6) (a : BitVec 6) (i : BitVec 8)
  /-- `MSWAP`, R336. -/
  | mswap
  /-- `MSTEP`, R337. -/
  | mstep (d : BitVec 6) (a : BitVec 6) (i : BitVec 1) (t : BitVec 1) (w : BitVec 3)
  /-- `MZERO`, R339. -/
  | mzero (f : OpS)
  /-- `MZERO_FREE`, R339. -/
  | mzeroFree (a : BitVec 6)
  /-- `MDRAIN`, R340. -/
  | mdrain (d : BitVec 6) (a : BitVec 6) (f : BitVec 1) (s : BitVec 1) (r : BitVec 2)
  /-- `VDSUB`, R341. -/
  | vdsub (a : BitVec 6)
  /-- `VSIG`, R341. -/
  | vsig (f : OpS)
  /-- `VYIELD`, R341. -/
  | vyield
  /-- `VYIELD_DONE`, R341. -/
  | vyieldDone
  /-- `RAST`, R402. -/
  | rast (g : BitVec 3) (d : BitVec 6) (b : BitVec 6)
  /-- `RASTBIN`, R403. -/
  | rastbin (g : BitVec 3) (d : BitVec 6) (b : BitVec 6)
  /-- `BINFLUSH`, R404. -/
  | binflush (g : BitVec 3) (d : BitVec 6) (b : BitVec 6)
  /-- `CTOK`, R395. -/
  | ctok (f : OpC)
  /-- `ZS`, R406. -/
  | zs (f : OpC)
  /-- `ZS_P`, R392. -/
  | zsP (g : BitVec 3) (a : BitVec 6) (b : BitVec 6)
  /-- `BLND`, R408. -/
  | blnd (f : OpC)
  /-- `BLND_P`, R392. -/
  | blndP (g : BitVec 3) (a : BitVec 6) (b : BitVec 6)
  /-- `TEX`, R411. -/
  | tex (f : OpC)
  /-- `TEXG`, R412. -/
  | texg (f : OpC)
  /-- `TEXQ`, R412. -/
  | texq (f : OpC)
  /-- `TRAV`, R419. -/
  | trav (f : OpC)
  /-- `TRAVC`, R420. -/
  | travc (f : OpC)
  /-- `RDS_V`, R436. -/
  | rdsV (d : BitVec 6) (i : BitVec 8)
  /-- `RDS_S`, R436. -/
  | rdsS (d : BitVec 6) (i : BitVec 8)
  /-- `WRS`, R436. -/
  | wrs (a : BitVec 6) (i : BitVec 8)
  /-- `UPCALL`, R437. -/
  | upcall (d : BitVec 6) (a : BitVec 6) (i : BitVec 8)
  /-- `BRK`, R439. -/
  | brk (i : BitVec 8)
  /-- `NOP`, R439. -/
  | nop
  /-- `TLBI_PAGE`, R227. -/
  | tlbiPage (f : OpS)
  /-- `TLBI_ASID`, R227. -/
  | tlbiAsid (f : OpS)
  /-- `TLBI_ALL`, R227. -/
  | tlbiAll (f : OpS)
  /-- `PKSET`, R227. -/
  | pkset (d : BitVec 6) (a : BitVec 6) (i : BitVec 8)
  /-- `HINT_IMMEDIATE`, R66. -/
  | hintImmediate (y : BitVec 22)
  /-- `HINT_JOIN`, R66. -/
  | hintJoin (y : BitVec 22)
  /-- `HINT_ROUNDING`, R66. -/
  | hintRounding (y : BitVec 22)
  /-- `HINT_SCALE_POLICY`, R66. -/
  | hintScalePolicy (y : BitVec 22)
  /-- `HINT_PRIORITY`, R66. -/
  | hintPriority (y : BitVec 22)
  /-- `HINT_SCOPE`, R66. -/
  | hintScope (y : BitVec 22)
  /-- `HINT_FORMAT`, R66. -/
  | hintFormat (y : BitVec 22)
  /-- `RESERVED_WORD`, R71. -/
  | reservedWord (w : BitVec 32)
  /-- `DEBUG_BREAKPOINT`, R440. -/
  | debugBreakpoint (n : Nat)
  /-- `TRAP_RECORD_WRITE`, R426. -/
  | trapRecordWrite (p : PartRef)
  /-- `PRQ_RECORD_WRITE`, R221. -/
  | prqRecordWrite (cluster : Nat)
  /-- `FILTER_ENTRY_FREE_WAKE`, R221. -/
  | filterEntryFreeWake (p : PartRef)
  /-- `PGRES_WAKE`, R222. -/
  | pgresWake (die asid page : Nat)
  /-- `PGRES_FAULT`, R222. -/
  | pgresFault (die asid page : Nat)
  /-- `HOME_SLICE_WRITE`, R292. -/
  | homeSliceWrite (crew gang idx : Nat)
  /-- `COUNTER_HALVING`, R224. -/
  | counterHalving
  /-- `MIGRATION_NOTICE_WRITE`, R224. -/
  | migrationNoticeWrite (die : Nat)
  /-- `LOAD_DATA_ARRIVAL`, R113. -/
  | loadDataArrival (a : Arrival)
  /-- `FENCE_COMPLETE`, R267. -/
  | fenceComplete (p : PartRef)
  /-- `FENCE_ROLLBACK`, R269. -/
  | fenceRollback (p : PartRef)
  /-- `BAR_RELEASE`, R271. -/
  | barRelease (crew n : Nat)
  /-- `GBAR_RELEASE`, R272. -/
  | gbarRelease (asid group : Nat)
  /-- `REGANG_JOIN`, R152. -/
  | regangJoin (crew gang : Nat)
  /-- `MWAIT_WAKE`, R265. -/
  | mwaitWake (p : PartRef)
  /-- `SEQWAIT_WAKE`, R378. -/
  | seqwaitWake (p : PartRef)
  /-- `TOKEN_ACQUIRE`, R327. -/
  | tokenAcquire (p : PartRef)
  /-- `RING_ROOM_WAKE`, R113. -/
  | ringRoomWake (p : PartRef)
  /-- `TASK_QUEUE_ROOM_WAKE`, R131. -/
  | taskQueueRoomWake (p : PartRef)
  /-- `PLACEMENT`, R105. -/
  | placement (die core : Nat)
  /-- `TILE_LIST_RELEASE`, R240. -/
  | tileListRelease (cluster cls : Nat)
  /-- `STOP_REQUEST`, R123. -/
  | stopRequest (crew : Nat)
  /-- `OVERRUN_NOTICE`, R124. -/
  | overrunNotice (crew : Nat)
  /-- `PARK`, R116. -/
  | park (crew : Nat)
  /-- `PARK_IMAGE_PERFORMED`, R116. -/
  | parkImagePerformed (crew : Nat)
  /-- `CREW_WAKE`, R118. -/
  | crewWake (crew : Nat)
  /-- `RESUME`, R118. -/
  | resume (crew core : Nat)
  /-- `JOIN_PUSH`, R133. -/
  | joinPush (die : Nat)
  /-- `IMPLIED_DECREMENT`, R134. -/
  | impliedDecrement (die : Nat)
  /-- `CREW_EXIT_COMPLETE`, R134. -/
  | crewExitComplete (crew : Nat)
  /-- `TFILL_COMPLETE`, R237. -/
  | tfillComplete (idx : Nat)
  /-- `VINTNER_CARD_START`, R328. -/
  | vintnerCardStart (cluster cls : Nat)
  /-- `PRODUCT_CARD`, R333. -/
  | productCard (cluster cls : Nat)
  /-- `PROGRAM_CARD`, R332. -/
  | programCard (cluster cls : Nat)
  /-- `VINTNER_SWITCH`, R329. -/
  | vintnerSwitch (cluster : Nat)
  /-- `BANK_FILL_COMPLETE`, R321. -/
  | bankFillComplete (cluster : Nat)
  /-- `SWAP`, R322. -/
  | swap (cluster : Nat)
  /-- `MATRIX_STEP`, R325. -/
  | matrixStep (cluster : Nat)
  /-- `ACCUMULATOR_ZERO`, R339. -/
  | accumulatorZero (cluster : Nat)
  /-- `ACCUMULATOR_FREE`, R339. -/
  | accumulatorFree (cluster : Nat)
  /-- `ACCUMULATOR_DRAIN`, R340. -/
  | accumulatorDrain (cluster : Nat)
  /-- `ENGINE_TURN`, R363. -/
  | engineTurn (die : Nat)
  /-- `TEST_WAIT_WAKE`, R352. -/
  | testWaitWake (r : RingRef)
  /-- `RING_WAKE`, R358. -/
  | ringWake (r : RingRef)
  /-- `ENTRY_COMPLETE`, R353. -/
  | entryComplete (r : RingRef)
  /-- `RING_RESUME`, R355. -/
  | ringResume (r : RingRef)
  /-- `CARD_DISPATCH`, R368. -/
  | cardDispatch (die group idx : Nat)
  /-- `CARD_COMPLETE`, R368. -/
  | cardComplete (die group idx : Nat)
  /-- `DECANTER_CHUNK`, R373. -/
  | decanterChunk (cluster units : Nat)
  /-- `SCHEDULE_PERIOD`, R365. -/
  | schedulePeriod (die : Nat)
  /-- `GUEST_SLICE_END`, R365. -/
  | guestSliceEnd (die guest : Nat)
  /-- `COPROCESSOR_SERVE`, R386. -/
  | coprocessorServe (cluster : Nat) (u : CopUnit)
  /-- `COPROCESSOR_QUEUE_ROOM`, R389. -/
  | coprocessorQueueRoom (p : PartRef)
  /-- `LANE_PERFORM`, R398. -/
  | lanePerform (cluster idx : Nat)
  /-- `WINDOW_ENTRY`, R397. -/
  | windowEntry (cluster idx : Nat)
  /-- `CALL_RECORD_ARRIVAL`, R389. -/
  | callRecordArrival (cluster idx : Nat)
  /-- `MAILBOX_RECORD_WRITE`, R437. -/
  | mailboxRecordWrite (die : Nat)
  /-- `TRES_RETRY`, R428. -/
  | tresRetry (die tag : Nat)
  /-- `TRES_SKIP`, R428. -/
  | tresSkip (die tag : Nat)
  /-- `TRES_REDIRECT`, R428. -/
  | tresRedirect (die tag addr : Nat)
  /-- `TRES_TERMINATE`, R428. -/
  | tresTerminate (die tag : Nat) (decrement : Bool)
  /-- `TRES_PARK`, R428. -/
  | tresPark (die tag : Nat)
  /-- `UREPLY`, R438. -/
  | ureply (die tag : Nat) (value : BitVec 64)
  /-- `UREPLY_TERMINATE`, R437. -/
  | ureplyTerminate (die tag : Nat)
  /-- `MGRING_WRITE`, R361. -/
  | mgringWrite (r : RingRef) (asid : Nat) (desc : BitVec 64) (valid : Bool)
  /-- `HSWSC_CLEAR`, R285. -/
  | hswscClear (slice : Nat)
  /-- `REGISTER_WRITE`, R5. -/
  | registerWrite (writer : RegWriter) (off size : Nat) (value : BitVec 64)
  /-- `SCRUB_ERROR`, R425. -/
  | scrubError (die pa : Nat)
  /-- `PLUGIN_PERIOD_START`, R444. -/
  | pluginPeriodStart (die tenant : Nat)
  /-- `PLUGIN_OVERRUN`, R444. -/
  | pluginOverrun (die tenant : Nat)
  /-- `ECALL_RETURN`, R444. -/
  | ecallReturn (die tenant : Nat) (reply : List Nat)
  /-- `ECALL_GUSE`, R444. -/
  | ecallGuse (die tenant guest : Nat)
  /-- `ECALL_LOG`, R444. -/
  | ecallLog (die tenant : Nat) (value : BitVec 64)
  /-- `PLUGIN_TIMEOUT`, R444. -/
  | pluginTimeout (die tenant : Nat)
  /-- `HOST_INBOUND_REQUEST`, R452. -/
  | hostInboundRequest (q : PortReq)
  /-- `STORAGE_INBOUND_REQUEST`, R452. -/
  | storageInboundRequest (q : PortReq)
  /-- `INBOUND_TIMEOUT`, R452. -/
  | inboundTimeout (idx : Nat)
  /-- `PEER_INBOUND_REQUEST`, R453. -/
  | peerInboundRequest (source : Nat) (q : PortReq)
  /-- `COMPLETION_TIMEOUT`, R455. -/
  | completionTimeout (p : PartRef)
  /-- `LINK_DOWN`, R455. -/
  | linkDown (port : Nat)
  /-- `LINK_UP`, R456. -/
  | linkUp (port : Nat)
  /-- `PORT_ENABLE`, R456. -/
  | portEnable (port : Nat)
  /-- `MODULE_LOST`, R455. -/
  | moduleLost (module : Nat)
  /-- `ROLLBACK`, R458. -/
  | rollback
  /-- `CHECKPOINT_TIMER`, R457. -/
  | checkpointTimer
  /-- `CUT`, R457. -/
  | cut (n : Nat)
  /-- `READY`, R457. -/
  | ready
  /-- `GO`, R457. -/
  | go
  /-- `COMMIT`, R457. -/
  | commit (n : Nat)
  /-- `POWER_ON`, R460. -/
  | powerOn
  /-- `HOST_COLD_START`, R460. -/
  | hostColdStart
  /-- `HOST_WARM_START`, R460. -/
  | hostWarmStart
  /-- `MONITOR_WARM_START`, R460. -/
  | monitorWarmStart
  /-- `FIRMWARE_IMAGE_WRITE`, R460. -/
  | firmwareImageWrite (value : BitVec 64)
  /-- `GET_VERSION`, R461. -/
  | getVersion
  /-- `GET_CAPABILITIES`, R461. -/
  | getCapabilities
  /-- `NEGOTIATE_ALGORITHMS`, R461. -/
  | negotiateAlgorithms (asym hash : Nat)
  /-- `GET_DIGESTS`, R461. -/
  | getDigests
  /-- `GET_CERTIFICATE`, R461. -/
  | getCertificate (slot : Nat)
  /-- `CHALLENGE`, R461. -/
  | challenge (nonce : Nat)
  /-- `GET_MEASUREMENTS`, R461. -/
  | getMeasurements (index : Nat)
  /-- `THERMAL_THROTTLE`, R462. -/
  | thermalThrottle (die : Nat)
  /-- `THERMAL_SHUTDOWN`, R462. -/
  | thermalShutdown (die : Nat)
  /-- `POWER_LIMIT_THROTTLE`, R462. -/
  | powerLimitThrottle
  /-- `CHECKPOINT_COPY_COMPLETE`, R457. -/
  | checkpointCopyComplete (module : Nat)
  /-- `RESIDENT_CORE_ACCESS`, R442. -/
  | residentCoreAccess (hart : Nat) (q : HartReq)
  /-- `SATP_WRITE`, R442. -/
  | satpWrite (hart : Nat) (guest : Bool) (value : BitVec 64)
  /-- `POWER_LIMIT_RELEASE`, R462. -/
  | powerLimitRelease
  /-- `HYPERVISOR_REENABLE`, R444. -/
  | hypervisorReenable (die tenant : Nat)
deriving DecidableEq, Repr

end Sys2Proof
end

