-- ==== Sys2Proof/WellFormed.lean ====
section
/-!
DEFINITION. The static checks of an instruction's fields (03_encoding R57, R62, R66, R71 and the entries' own rules).

A word that breaks one of them raises the illegal-encoding fault whenever it is issued. The checks that depend on the
issuing agent (R64) or on the hints in force (R67) stand in Machine/Issue.lean.
-/

namespace Sys2Proof

/-- A field that names a pair holds an even number (R57). -/
def isEven (r : BitVec 6) : Bool := decide (r.extractLsb' 0 1 = 0#1)

/-- A field that names a quad holds a multiple of 4 (R57). -/
def isQuad (r : BitVec 6) : Bool := decide (r.extractLsb' 0 2 = 0#2)

/-- Type codes 0 to 14 name a register type (R65). -/
def typeOk (c : BitVec 4) : Bool := decide (c ≠ 15#4)

/-- The 64-bit register types `.f64`, `.s64`, `.n64` (R65, R185). -/
def typeIsPair (c : BitVec 4) : Bool := decide (c = 0#4) || decide (c = 13#4) || decide (c = 14#4)

/-- The data register of a width: a pair for 64 bits, a quad for 128 bits (R52, R57). -/
def widthPair (w : BitVec 3) (t : BitVec 6) : Bool :=
  if w = 3#3 then isEven t else if w = 4#3 then isQuad t else true

/-- The register type selector of `tlde` and `tste`: 4 k + a[1:0] (R247). -/
def tileSel (f : OpA) : Nat := 4 * f.k.toNat + bitsAt f.a 0 2

/-- The `s` block of a call: a multiple of 4 that does not reach past `s63` (R388). -/
def blockOk (b : BitVec 6) (n : Nat) : Bool := isQuad b && decide (b.toNat + n ≤ 64)

/-- The numbers of the state registers are 0x00 to 0x15 (R61, R62). -/
def srNumberOk (i : BitVec 8) : Bool := decide (i.toNat ≤ 0x15)

/-- The 64-bit state registers `recptr`, `framep`, `arg0`, `arg1`, `clock64` (R61). -/
def srIs64 (i : BitVec 8) : Bool := (decide (0x08 ≤ i.toNat) && decide (i.toNat ≤ 0x0B)) || decide (i = 0x10#8)

/-- The one lane-held state register, `laneid` (R61, R62). -/
def srIsLane (i : BitVec 8) : Bool := decide (i = 0#8)

/-- The state registers that `wrs` may name: `parkthr`, `af`, `te` (R61, R62). -/
def srWritable (i : BitVec 8) : Bool := decide (i = 0x11#8) || decide (i = 0x12#8) || decide (i = 0x13#8)

/-- The formats and the geometries each may carry (R80). -/
def formatGeomOk (fmt geom : Nat) : Bool :=
  if fmt ≤ 9 then decide (geom = 0)
  else if fmt ≤ 14 then decide (1 ≤ geom) && decide (geom ≤ 3)
  else false

/-- The checks on the fields of an instruction; an event row has no word and no check. -/
def Instr.wellFormed : Instr → Bool
  | .br _ _ _ | .call _ _ _ => true
  | .jmpi _ a | .calli _ a => isEven a
  | .calliSave f => isEven f.d && isEven f.a
  | .ret_ _ | .regang | .pfoldEvery _ | .pfoldSome _ | .pfoldOdd _ | .pfoldAgree _ | .pmask _ | .pmaskBelow _
  | .prank _ | .prankTotal _ | .lfetchAt _ | .lfetchOff _ | .lfetchFlip _ | .lfetchHead _ | .gredAddS32 _
  | .gredMinS32 _ | .gredMaxS32 _ | .gredMinN32 _ | .gredMaxN32 _ | .gredAnd _ | .gredOr _ | .gredXor _ | .gredAddF32 _
  | .gredMinF32 _ | .gredMaxF32 _ => true
  | .gredAddF64 f | .gredMinF64 f | .gredMaxF64 f => isEven f.d && isEven f.a
  | .gscanAddS32 _ | .gscanMinS32 _ | .gscanMaxS32 _ | .gscanMinN32 _ | .gscanMaxN32 _ | .gscanAnd _ | .gscanOr _
  | .gscanXor _ | .gscanAddF32 _ | .gscanMinF32 _ | .gscanMaxF32 _ => true
  | .gscanAddF64 f | .gscanMinF64 f | .gscanMaxF64 f => isEven f.d && isEven f.a
  | .add _ | .sub _ | .mul _ | .mulhiS32 _ | .mulhiN32 _ | .mad _ | .divS32 _ | .divN32 _ | .remS32 _ | .remN32 _
  | .minS32 _ | .maxS32 _ | .minN32 _ | .maxN32 _ | .absS32 _ | .addsS32 _ => true
  | .addS64 f | .subS64 f | .mulS64 f | .mulhiS64 f | .mulhiN64 f | .madS64 f | .minS64 f | .maxS64 f | .minN64 f
  | .maxN64 f => isEven f.d && isEven f.a && isEven f.b
  | .shl64 f | .shrN64 f | .shrS64 f | .lea f => isEven f.d && isEven f.a
  | .and_ _ | .or_ _ | .xor_ _ | .andn _ | .shl _ | .shrN32 _ | .shrS32 _ | .rotl _ | .popc _ | .clz _ | .ctz _
  | .brev _ | .bext _ | .bins _ | .mov _ | .eq _ | .ne _ | .ltS32 _ | .leS32 _ | .ltN32 _ | .leN32 _ | .gtS32 _
  | .geS32 _ | .gtN32 _ | .geN32 _ => true
  | .ltS64 f | .ltN64 f | .eq64 f => isEven f.a && isEven f.b
  | .pand _ | .por _ | .pxor _ | .pandn _ | .pmov _ _ _ _ | .pread _ _ _ _ | .addi _ _ _ _ | .movi _ _ _ _
  | .movhi _ _ _ _ | .addF32 _ | .subF32 _ | .mulF32 _ | .fmaF32 _ | .fnmaF32 _ | .minF32 _ | .maxF32 _ | .absF32 _
  | .negF32 _ | .rcpF32 _ | .rsqrtF32 _ | .sqrtF32 _ | .exp2F32 _ | .log2F32 _ | .copysignF32 _ => true
  | .addF64 f | .subF64 f | .mulF64 f | .fmaF64 f | .fnmaF64 f | .minF64 f | .maxF64 f => isEven f.d && isEven f.a && isEven f.b
  | .absF64 f | .negF64 f | .rcpF64 f | .rsqrtF64 f | .sqrtF64 f => isEven f.d && isEven f.b
  | .copysignF64 f => isEven f.d && isEven f.a && isEven f.b
  | .addH16 _ | .mulH16 _ | .fmaH16 _ | .minH16 _ | .maxH16 _ | .addBf16 _ | .mulBf16 _ | .fmaBf16 _ | .minBf16 _
  | .maxBf16 _ | .addH16x2 _ | .mulH16x2 _ | .fmaH16x2 _ | .minH16x2 _ | .maxH16x2 _ | .addBf16x2 _ | .mulBf16x2 _
  | .fmaBf16x2 _ | .minBf16x2 _ | .maxBf16x2 _ | .feqF32 _ | .fltF32 _ | .fleF32 _ | .funordF32 _ => true
  | .feqF64 f | .fltF64 f | .fleF64 f | .funordF64 f => isEven f.a && isEven f.b
  | .cvt _ c d a u => typeOk c && typeOk u && (!typeIsPair c || isEven d) && (!typeIsPair u || isEven a)
  | .tfence => true
  | .mmul _ _ _ d a b | .madd _ _ _ d a b | .msub _ _ _ d a b | .mmac _ _ _ d a b => isEven d && isEven a && isEven b
  | .mred _ _ d a => isEven d && isEven a
  | .mred128 _ _ d a => isEven d && isQuad a
  | .mneg _ _ d a => isEven d && isEven a
  | .bfly _ _ d a s | .ibfly _ _ d a s => isEven d && isEven a && decide (s.toNat ≤ 4)
  | .perm _ _ _ _ | .lrot _ _ _ _ => true
  | .setm _ _ a | .getm _ _ a | .getk _ _ a => isEven a
  | .ld f => decide (f.w.toNat ≤ 4) && widthPair f.w f.t
  | .st f => decide (f.w.toNat ≤ 4) && widthPair f.w f.t && decide (f.f.toNat ≤ 1)
  | .lde f => decide (f.w.toNat ≤ 4) && (decide (f.w ≠ 1#3) || isEven f.t)
  | .ste f => decide (f.w.toNat ≤ 4) && (decide (f.w ≠ 1#3) || isEven f.t) && decide (f.f.toNat ≤ 1)
  | .preq _ a _ _ _ => isEven a
  | .lclean a _ => isEven a
  | .pf _ a _ => isEven a
  | .lflush a _ | .linv a _ => isEven a
  | .lds d a _ w | .cst d a _ w => isEven a && (decide (w ≠ 3#2) || isEven d)
  | .exld d a _ _ w => isEven a && (decide (w ≠ 3#2) || isEven d)
  | .talloc _ a _ => isQuad a
  | .tfree a => isQuad a
  | .tfill d a _ => isEven d && isQuad a
  | .tflush d a => isEven d && isQuad a
  | .tquery f => isQuad f.a
  | .tld _ _ w d a _ | .tst _ _ w d a _ => isQuad a && (decide (w ≠ 3#2) || isEven d)
  | .tlde f | .tste f => decide (tileSel f ≤ 4) && (decide (tileSel f ≠ 1) || isEven f.d)
  | .tldg f | .tstg f => isQuad f.a
  | .macq a | .mrel a => isQuad a
  | .atomAdd f | .atomAnd f | .atomOr f | .atomXor f | .atomMinS32 f | .atomMaxS32 f | .atomMinN32 f | .atomMaxN32 f
  | .atomXchg f | .atomCas f => isEven f.a
  | .redAdd f | .redAnd f | .redOr f | .redXor f | .redMinS32 f | .redMaxS32 f | .redMinN32 f | .redMaxN32 f => isEven f.a
  | .atomAddN64 f | .atomAndN64 f | .atomOrN64 f | .atomXorN64 f | .atomMinS64 f | .atomMaxS64 f | .atomMinN64 f
  | .atomMaxN64 f | .atomXchgN64 f | .atomCasN64 f => isEven f.d && isEven f.a && isEven f.b
  | .redAddN64 f | .redAndN64 f | .redOrN64 f | .redXorN64 f | .redMinS64 f | .redMaxS64 f | .redMinN64 f
  | .redMaxN64 f => isEven f.a && isEven f.b
  | .atomAddF32 f | .atomMinF32 f | .atomMaxF32 f => isEven f.a
  | .atomAddF64 f | .atomMinF64 f | .atomMaxF64 f => isEven f.d && isEven f.a && isEven f.b
  | .atomAddBf16x2 f | .atomMinBf16x2 f | .atomMaxBf16x2 f | .atomAddH16x2 f | .atomMinH16x2 f | .atomMaxH16x2 f
  | .atomAddBf16 f | .atomMinBf16 f | .atomMaxBf16 f => isEven f.a
  | .redAddF32 f | .redMinF32 f | .redMaxF32 f => isEven f.a
  | .redAddF64 f | .redMinF64 f | .redMaxF64 f => isEven f.a && isEven f.b
  | .redAddBf16x2 f | .redMinBf16x2 f | .redMaxBf16x2 f | .redAddH16x2 f | .redMinH16x2 f | .redMaxH16x2 f
  | .redAddBf16 f | .redMinBf16 f | .redMaxBf16 f => isEven f.a
  | .cas128 _ d a b => isQuad d && isEven a && isQuad b
  | .lres32 f => isEven f.a
  | .lres64 f => isEven f.d && isEven f.a
  | .scond32 f => isEven f.a
  | .scond64 f => isEven f.a && isEven f.b
  | .mon _ a => isEven a
  | .fence s | .fenceAcq s | .fenceRel s => decide (s.toNat ≤ 6)
  | .bar _ | .gbar _ | .mwait => true
  | .launch a => isEven a
  | .spawn f => isEven f.d && isEven f.a
  | .jcnt _ a _ => isEven a
  | .exit_ | .yield | .gquery _ => true
  | .qpush f | .qtail f | .seqwait f | .dsub f | .vsub f | .csub f | .qhead f | .qheadWait f | .seqread f => isEven f.d && isEven f.a
  | .mload _ a _ => isEven a
  | .mswap => true
  | .mstep _ _ _ _ w => decide (w.toNat ≤ 4)
  | .mzero _ | .mzeroFree _ => true
  | .mdrain d a _ _ _ => isEven d && isEven a
  | .vdsub a => isEven a
  | .vsig f => isEven f.d && isEven f.a
  | .vyield | .vyieldDone => true
  | .rast _ _ b => blockOk b 16
  | .rastbin _ _ b => blockOk b 8
  | .binflush _ _ b => blockOk b 2
  | .ctok f | .zs f => blockOk f.b 4
  | .zsP _ _ b => blockOk b 4
  | .blnd f => blockOk f.b 4
  | .blndP _ _ b => blockOk b 4
  | .tex f | .texg f | .texq f | .trav f => blockOk f.b 4
  | .travc f => blockOk f.b 8
  | .rdsV d i => srNumberOk i && (!srIs64 i || isEven d)
  | .rdsS d i => srNumberOk i && !srIsLane i && (!srIs64 i || isEven d)
  | .wrs _ i => srWritable i
  | .upcall d a _ => isEven d && isQuad a && decide (a.toNat ≤ 56)
  | .brk _ | .nop => true
  | .tlbiPage f | .tlbiAsid f | .tlbiAll f => isEven f.a
  | .pkset _ a _ => isEven a
  | .hintImmediate _ | .hintJoin _ => true
  | .hintRounding y => decide (y.extractLsb' 4 18 = 0#18)
  | .hintScalePolicy y => decide (bitsAt y 0 3 ≤ 4) && decide (bitsAt y 3 3 ≤ 3) && decide (y.extractLsb' 6 16 = 0#16)
  | .hintPriority y => decide (bitsAt y 0 2 ≤ 2) && decide (y.extractLsb' 2 20 = 0#20)
  | .hintScope y => decide (bitsAt y 0 3 ≤ 6) && decide (y.extractLsb' 3 19 = 0#19)
  | .hintFormat y => formatGeomOk (bitsAt y 0 5) (bitsAt y 5 3) && decide (y.extractLsb' 8 14 = 0#14)
  | .reservedWord _ | .debugBreakpoint _ | .trapRecordWrite _ | .prqRecordWrite _ | .filterEntryFreeWake _
  | .pgresWake _ _ _ | .pgresFault _ _ _ | .homeSliceWrite _ _ _ | .counterHalving | .migrationNoticeWrite _
  | .loadDataArrival _ | .fenceComplete _ | .fenceRollback _ | .barRelease _ _ | .gbarRelease _ _ | .regangJoin _ _
  | .mwaitWake _ | .seqwaitWake _ | .tokenAcquire _ | .ringRoomWake _ | .taskQueueRoomWake _ | .placement _ _
  | .tileListRelease _ _ | .stopRequest _ | .overrunNotice _ | .park _ | .parkImagePerformed _ | .crewWake _
  | .resume _ _ | .joinPush _ | .impliedDecrement _ | .crewExitComplete _ | .tfillComplete _ | .vintnerCardStart _ _
  | .productCard _ _ | .programCard _ _ | .vintnerSwitch _ | .bankFillComplete _ | .swap _ | .matrixStep _
  | .accumulatorZero _ | .accumulatorFree _ | .accumulatorDrain _ | .engineTurn _ | .testWaitWake _ | .ringWake _
  | .entryComplete _ | .ringResume _ | .cardDispatch _ _ _ | .cardComplete _ _ _ | .decanterChunk _ _ | .schedulePeriod _
  | .guestSliceEnd _ _ | .coprocessorServe _ _ | .coprocessorQueueRoom _ | .lanePerform _ _ | .windowEntry _ _
  | .callRecordArrival _ _ | .mailboxRecordWrite _ | .tresRetry _ _ | .tresSkip _ _ | .tresRedirect _ _ _
  | .tresTerminate _ _ _ | .tresPark _ _ | .ureply _ _ _ | .ureplyTerminate _ _ | .mgringWrite _ _ _ _ | .hswscClear _
  | .registerWrite _ _ _ _ | .scrubError _ _ | .pluginPeriodStart _ _ | .pluginOverrun _ _ | .ecallReturn _ _ _
  | .ecallGuse _ _ _ | .ecallLog _ _ _ | .pluginTimeout _ _ | .hostInboundRequest _ | .storageInboundRequest _
  | .inboundTimeout _ | .peerInboundRequest _ _ | .completionTimeout _ | .linkDown _ | .linkUp _ | .portEnable _
  | .moduleLost _ | .rollback | .checkpointTimer | .cut _ | .ready | .go | .commit _ | .powerOn | .hostColdStart
  | .hostWarmStart | .monitorWarmStart | .firmwareImageWrite _ | .getVersion | .getCapabilities | .negotiateAlgorithms _ _
  | .getDigests | .getCertificate _ | .challenge _ | .getMeasurements _ | .thermalThrottle _ | .thermalShutdown _
  | .powerLimitThrottle | .checkpointCopyComplete _ | .residentCoreAccess _ _ | .satpWrite _ _ _ | .powerLimitRelease
  | .hypervisorReenable _ _ => true

end Sys2Proof
end

