-- ==== Sys2Proof/Decode.lean ====
section
/-!
DEFINITION. The decoder and the encoder of instruction words (03_encoding R48 to R57, R63, R71).

`decode` is total on 32-bit words. It first takes the word apart by its format, then picks the instruction by major
and minor, refuses every word that the map does not list or whose zero fields are not zero, and at last makes the
checks of `Instr.wellFormed` (R57 and the entries' own field rules). The definitions that build an `Instr` are marked
`noncomputable` for one reason only: Lean's code generator has no tag for the constructors of a type with more than 244
of them. The kernel evaluates them as it evaluates any definition. What depends on the issuing agent or on the hints
before the word (R64, R67) is not the decoder's.
-/

namespace Sys2Proof

/-- Why a word is not an instruction (R71). -/
inductive DecodeError where
  /-- The major is illegal or reserved. -/
  | reservedMajor
  /-- The minor is not listed for its major, or the hint kind is 7 to 15. -/
  | unlistedMinor
  /-- A field that the entry marks zero is not zero. -/
  | fieldNotZero
  /-- A register field, width, policy, number or payload breaks its rule. -/
  | illFormed
deriving DecidableEq, Repr

/-- Major 0x01, format B (R148 and R63). -/
noncomputable def decode01 (p : BitVec 3) (n : BitVec 1) (off : BitVec 22) : Except DecodeError Instr :=
  .ok (.br p n off)

/-- Major 0x02, format B (R149 and R63). -/
noncomputable def decode02 (p : BitVec 3) (n : BitVec 1) (off : BitVec 22) : Except DecodeError Instr :=
  .ok (.call p n off)

/-- Major 0x03, format A (R150 and R63). -/
noncomputable def decode03 (g : BitVec 3) (k : BitVec 1) (fn : BitVec 4) (d : BitVec 6) (a : BitVec 6) (b : BitVec 6) : Except DecodeError Instr :=
  match fn.toNat with
  | 0 => if k = 0#1 ∧ d = 0#6 ∧ b = 0#6 then .ok (.jmpi g a) else .error .fieldNotZero
  | 1 => if k = 0#1 ∧ d = 0#6 ∧ b = 0#6 then .ok (.calli g a) else if k = 0#1 ∧ b = 1#6 then .ok (.calliSave ⟨g, d, a⟩) else .error .fieldNotZero
  | 2 => if k = 0#1 ∧ d = 0#6 ∧ a = 0#6 ∧ b = 0#6 then .ok (.ret_ g) else .error .fieldNotZero
  | _ => .error .unlistedMinor

/-- Major 0x04, format A (R152 and R63). -/
noncomputable def decode04 (g : BitVec 3) (k : BitVec 1) (fn : BitVec 4) (d : BitVec 6) (a : BitVec 6) (b : BitVec 6) : Except DecodeError Instr :=
  match fn.toNat with
  | 0 => if g = 7#3 ∧ k = 0#1 ∧ d = 0#6 ∧ a = 0#6 ∧ b = 0#6 then .ok (.regang) else .error .fieldNotZero
  | 1 => if k = 0#1 ∧ d.extractLsb' 3 3 = 0#3 ∧ a.extractLsb' 3 3 = 0#3 ∧ b = 0#6 then .ok (.pfoldEvery ⟨g, (d.extractLsb' 0 3), (a.extractLsb' 0 3)⟩) else if k = 0#1 ∧ d.extractLsb' 3 3 = 0#3 ∧ a.extractLsb' 3 3 = 0#3 ∧ b = 1#6 then .ok (.pfoldSome ⟨g, (d.extractLsb' 0 3), (a.extractLsb' 0 3)⟩) else if k = 0#1 ∧ d.extractLsb' 3 3 = 0#3 ∧ a.extractLsb' 3 3 = 0#3 ∧ b = 2#6 then .ok (.pfoldOdd ⟨g, (d.extractLsb' 0 3), (a.extractLsb' 0 3)⟩) else if k = 0#1 ∧ d.extractLsb' 3 3 = 0#3 ∧ a.extractLsb' 3 3 = 0#3 ∧ b = 3#6 then .ok (.pfoldAgree ⟨g, (d.extractLsb' 0 3), (a.extractLsb' 0 3)⟩) else .error .fieldNotZero
  | 2 => if k = 0#1 ∧ a.extractLsb' 3 3 = 0#3 ∧ b = 0#6 then .ok (.pmask ⟨g, d, (a.extractLsb' 0 3)⟩) else if k = 0#1 ∧ a.extractLsb' 3 3 = 0#3 ∧ b = 1#6 then .ok (.pmaskBelow ⟨g, d, (a.extractLsb' 0 3)⟩) else .error .fieldNotZero
  | 3 => if k = 0#1 ∧ a.extractLsb' 3 3 = 0#3 ∧ b = 0#6 then .ok (.prank ⟨g, d, (a.extractLsb' 0 3)⟩) else if k = 0#1 ∧ a.extractLsb' 3 3 = 0#3 ∧ b = 1#6 then .ok (.prankTotal ⟨g, d, (a.extractLsb' 0 3)⟩) else .error .fieldNotZero
  | _ => .error .unlistedMinor

/-- Major 0x05, format A (R154 and R63). -/
noncomputable def decode05 (g : BitVec 3) (k : BitVec 1) (fn : BitVec 4) (d : BitVec 6) (a : BitVec 6) (b : BitVec 6) : Except DecodeError Instr :=
  match fn.toNat with
  | 0 => .ok (.lfetchAt ⟨g, k, d, a, b⟩)
  | 1 => .ok (.lfetchOff ⟨g, k, d, a, b⟩)
  | 2 => .ok (.lfetchFlip ⟨g, k, d, a, b⟩)
  | 3 => .ok (.lfetchHead ⟨g, k, d, a, b⟩)
  | _ => .error .unlistedMinor

/-- Major 0x06, format A (R249 and R63). -/
noncomputable def decode06 (g : BitVec 3) (k : BitVec 1) (fn : BitVec 4) (d : BitVec 6) (a : BitVec 6) (b : BitVec 6) : Except DecodeError Instr :=
  match fn.toNat with
  | 0 => if k = 0#1 ∧ b = 0#6 then .ok (.gredAddS32 ⟨g, d, a⟩) else .error .fieldNotZero
  | 1 => if k = 0#1 ∧ b = 0#6 then .ok (.gredMinS32 ⟨g, d, a⟩) else .error .fieldNotZero
  | 2 => if k = 0#1 ∧ b = 0#6 then .ok (.gredMaxS32 ⟨g, d, a⟩) else .error .fieldNotZero
  | 3 => if k = 0#1 ∧ b = 0#6 then .ok (.gredMinN32 ⟨g, d, a⟩) else .error .fieldNotZero
  | 4 => if k = 0#1 ∧ b = 0#6 then .ok (.gredMaxN32 ⟨g, d, a⟩) else .error .fieldNotZero
  | 5 => if k = 0#1 ∧ b = 0#6 then .ok (.gredAnd ⟨g, d, a⟩) else .error .fieldNotZero
  | 6 => if k = 0#1 ∧ b = 0#6 then .ok (.gredOr ⟨g, d, a⟩) else .error .fieldNotZero
  | 7 => if k = 0#1 ∧ b = 0#6 then .ok (.gredXor ⟨g, d, a⟩) else .error .fieldNotZero
  | 8 => if k = 0#1 ∧ b = 0#6 then .ok (.gredAddF32 ⟨g, d, a⟩) else .error .fieldNotZero
  | 9 => if k = 0#1 ∧ b = 0#6 then .ok (.gredMinF32 ⟨g, d, a⟩) else .error .fieldNotZero
  | 10 => if k = 0#1 ∧ b = 0#6 then .ok (.gredMaxF32 ⟨g, d, a⟩) else .error .fieldNotZero
  | 11 => if k = 0#1 ∧ b = 0#6 then .ok (.gredAddF64 ⟨g, d, a⟩) else .error .fieldNotZero
  | 12 => if k = 0#1 ∧ b = 0#6 then .ok (.gredMinF64 ⟨g, d, a⟩) else .error .fieldNotZero
  | 13 => if k = 0#1 ∧ b = 0#6 then .ok (.gredMaxF64 ⟨g, d, a⟩) else .error .fieldNotZero
  | _ => .error .unlistedMinor

/-- Major 0x07, format A (R249 and R63). -/
noncomputable def decode07 (g : BitVec 3) (k : BitVec 1) (fn : BitVec 4) (d : BitVec 6) (a : BitVec 6) (b : BitVec 6) : Except DecodeError Instr :=
  match fn.toNat with
  | 0 => if k = 0#1 ∧ b = 0#6 then .ok (.gscanAddS32 ⟨g, d, a⟩) else .error .fieldNotZero
  | 1 => if k = 0#1 ∧ b = 0#6 then .ok (.gscanMinS32 ⟨g, d, a⟩) else .error .fieldNotZero
  | 2 => if k = 0#1 ∧ b = 0#6 then .ok (.gscanMaxS32 ⟨g, d, a⟩) else .error .fieldNotZero
  | 3 => if k = 0#1 ∧ b = 0#6 then .ok (.gscanMinN32 ⟨g, d, a⟩) else .error .fieldNotZero
  | 4 => if k = 0#1 ∧ b = 0#6 then .ok (.gscanMaxN32 ⟨g, d, a⟩) else .error .fieldNotZero
  | 5 => if k = 0#1 ∧ b = 0#6 then .ok (.gscanAnd ⟨g, d, a⟩) else .error .fieldNotZero
  | 6 => if k = 0#1 ∧ b = 0#6 then .ok (.gscanOr ⟨g, d, a⟩) else .error .fieldNotZero
  | 7 => if k = 0#1 ∧ b = 0#6 then .ok (.gscanXor ⟨g, d, a⟩) else .error .fieldNotZero
  | 8 => if k = 0#1 ∧ b = 0#6 then .ok (.gscanAddF32 ⟨g, d, a⟩) else .error .fieldNotZero
  | 9 => if k = 0#1 ∧ b = 0#6 then .ok (.gscanMinF32 ⟨g, d, a⟩) else .error .fieldNotZero
  | 10 => if k = 0#1 ∧ b = 0#6 then .ok (.gscanMaxF32 ⟨g, d, a⟩) else .error .fieldNotZero
  | 11 => if k = 0#1 ∧ b = 0#6 then .ok (.gscanAddF64 ⟨g, d, a⟩) else .error .fieldNotZero
  | 12 => if k = 0#1 ∧ b = 0#6 then .ok (.gscanMinF64 ⟨g, d, a⟩) else .error .fieldNotZero
  | 13 => if k = 0#1 ∧ b = 0#6 then .ok (.gscanMaxF64 ⟨g, d, a⟩) else .error .fieldNotZero
  | _ => .error .unlistedMinor

/-- Major 0x08, format A (R160 and R63). -/
noncomputable def decode08 (g : BitVec 3) (k : BitVec 1) (fn : BitVec 4) (d : BitVec 6) (a : BitVec 6) (b : BitVec 6) : Except DecodeError Instr :=
  match fn.toNat with
  | 0 => .ok (.add ⟨g, k, d, a, b⟩)
  | 1 => .ok (.sub ⟨g, k, d, a, b⟩)
  | 2 => .ok (.mul ⟨g, k, d, a, b⟩)
  | 3 => .ok (.mulhiS32 ⟨g, k, d, a, b⟩)
  | 4 => .ok (.mulhiN32 ⟨g, k, d, a, b⟩)
  | 5 => .ok (.mad ⟨g, k, d, a, b⟩)
  | 6 => .ok (.divS32 ⟨g, k, d, a, b⟩)
  | 7 => .ok (.divN32 ⟨g, k, d, a, b⟩)
  | 8 => .ok (.remS32 ⟨g, k, d, a, b⟩)
  | 9 => .ok (.remN32 ⟨g, k, d, a, b⟩)
  | 10 => .ok (.minS32 ⟨g, k, d, a, b⟩)
  | 11 => .ok (.maxS32 ⟨g, k, d, a, b⟩)
  | 12 => .ok (.minN32 ⟨g, k, d, a, b⟩)
  | 13 => .ok (.maxN32 ⟨g, k, d, a, b⟩)
  | 14 => if a = 0#6 then .ok (.absS32 ⟨g, k, d, b⟩) else .error .fieldNotZero
  | 15 => .ok (.addsS32 ⟨g, k, d, a, b⟩)
  | _ => .error .unlistedMinor

/-- Major 0x09, format A (R163 and R63). -/
noncomputable def decode09 (g : BitVec 3) (k : BitVec 1) (fn : BitVec 4) (d : BitVec 6) (a : BitVec 6) (b : BitVec 6) : Except DecodeError Instr :=
  match fn.toNat with
  | 0 => .ok (.addS64 ⟨g, k, d, a, b⟩)
  | 1 => .ok (.subS64 ⟨g, k, d, a, b⟩)
  | 2 => .ok (.mulS64 ⟨g, k, d, a, b⟩)
  | 3 => .ok (.mulhiS64 ⟨g, k, d, a, b⟩)
  | 4 => .ok (.mulhiN64 ⟨g, k, d, a, b⟩)
  | 5 => .ok (.madS64 ⟨g, k, d, a, b⟩)
  | 6 => .ok (.minS64 ⟨g, k, d, a, b⟩)
  | 7 => .ok (.maxS64 ⟨g, k, d, a, b⟩)
  | 8 => .ok (.minN64 ⟨g, k, d, a, b⟩)
  | 9 => .ok (.maxN64 ⟨g, k, d, a, b⟩)
  | 10 => .ok (.shl64 ⟨g, k, d, a, b⟩)
  | 11 => .ok (.shrN64 ⟨g, k, d, a, b⟩)
  | 12 => .ok (.shrS64 ⟨g, k, d, a, b⟩)
  | 13 => .ok (.lea ⟨g, k, d, a, b⟩)
  | _ => .error .unlistedMinor

/-- Major 0x0a, format A (R164 and R63). -/
noncomputable def decode0A (g : BitVec 3) (k : BitVec 1) (fn : BitVec 4) (d : BitVec 6) (a : BitVec 6) (b : BitVec 6) : Except DecodeError Instr :=
  match fn.toNat with
  | 0 => .ok (.and_ ⟨g, k, d, a, b⟩)
  | 1 => .ok (.or_ ⟨g, k, d, a, b⟩)
  | 2 => .ok (.xor_ ⟨g, k, d, a, b⟩)
  | 3 => .ok (.andn ⟨g, k, d, a, b⟩)
  | 4 => .ok (.shl ⟨g, k, d, a, b⟩)
  | 5 => .ok (.shrN32 ⟨g, k, d, a, b⟩)
  | 6 => .ok (.shrS32 ⟨g, k, d, a, b⟩)
  | 7 => .ok (.rotl ⟨g, k, d, a, b⟩)
  | 8 => if a = 0#6 then .ok (.popc ⟨g, k, d, b⟩) else .error .fieldNotZero
  | 9 => if a = 0#6 then .ok (.clz ⟨g, k, d, b⟩) else .error .fieldNotZero
  | 10 => if a = 0#6 then .ok (.ctz ⟨g, k, d, b⟩) else .error .fieldNotZero
  | 11 => if a = 0#6 then .ok (.brev ⟨g, k, d, b⟩) else .error .fieldNotZero
  | 12 => .ok (.bext ⟨g, k, d, a, b⟩)
  | 13 => .ok (.bins ⟨g, k, d, a, b⟩)
  | 14 => if a = 0#6 then .ok (.mov ⟨g, k, d, b⟩) else .error .fieldNotZero
  | _ => .error .unlistedMinor

/-- Major 0x0b, format A (R166 and R63). -/
noncomputable def decode0B (g : BitVec 3) (k : BitVec 1) (fn : BitVec 4) (d : BitVec 6) (a : BitVec 6) (b : BitVec 6) : Except DecodeError Instr :=
  match fn.toNat with
  | 0 => if d.extractLsb' 3 3 = 0#3 then .ok (.eq ⟨g, k, (d.extractLsb' 0 3), a, b⟩) else .error .fieldNotZero
  | 1 => if d.extractLsb' 3 3 = 0#3 then .ok (.ne ⟨g, k, (d.extractLsb' 0 3), a, b⟩) else .error .fieldNotZero
  | 2 => if d.extractLsb' 3 3 = 0#3 then .ok (.ltS32 ⟨g, k, (d.extractLsb' 0 3), a, b⟩) else .error .fieldNotZero
  | 3 => if d.extractLsb' 3 3 = 0#3 then .ok (.leS32 ⟨g, k, (d.extractLsb' 0 3), a, b⟩) else .error .fieldNotZero
  | 4 => if d.extractLsb' 3 3 = 0#3 then .ok (.ltN32 ⟨g, k, (d.extractLsb' 0 3), a, b⟩) else .error .fieldNotZero
  | 5 => if d.extractLsb' 3 3 = 0#3 then .ok (.leN32 ⟨g, k, (d.extractLsb' 0 3), a, b⟩) else .error .fieldNotZero
  | 6 => if d.extractLsb' 3 3 = 0#3 then .ok (.gtS32 ⟨g, k, (d.extractLsb' 0 3), a, b⟩) else .error .fieldNotZero
  | 7 => if d.extractLsb' 3 3 = 0#3 then .ok (.geS32 ⟨g, k, (d.extractLsb' 0 3), a, b⟩) else .error .fieldNotZero
  | 8 => if d.extractLsb' 3 3 = 0#3 then .ok (.gtN32 ⟨g, k, (d.extractLsb' 0 3), a, b⟩) else .error .fieldNotZero
  | 9 => if d.extractLsb' 3 3 = 0#3 then .ok (.geN32 ⟨g, k, (d.extractLsb' 0 3), a, b⟩) else .error .fieldNotZero
  | 10 => if d.extractLsb' 3 3 = 0#3 then .ok (.ltS64 ⟨g, k, (d.extractLsb' 0 3), a, b⟩) else .error .fieldNotZero
  | 11 => if d.extractLsb' 3 3 = 0#3 then .ok (.ltN64 ⟨g, k, (d.extractLsb' 0 3), a, b⟩) else .error .fieldNotZero
  | 12 => if d.extractLsb' 3 3 = 0#3 then .ok (.eq64 ⟨g, k, (d.extractLsb' 0 3), a, b⟩) else .error .fieldNotZero
  | _ => .error .unlistedMinor

/-- Major 0x0c, format A (R167 and R63). -/
noncomputable def decode0C (g : BitVec 3) (k : BitVec 1) (fn : BitVec 4) (d : BitVec 6) (a : BitVec 6) (b : BitVec 6) : Except DecodeError Instr :=
  match fn.toNat with
  | 0 => if d.extractLsb' 3 3 = 0#3 ∧ a.extractLsb' 3 3 = 0#3 ∧ b.extractLsb' 3 3 = 0#3 then .ok (.pand ⟨g, k, (d.extractLsb' 0 3), (a.extractLsb' 0 3), (b.extractLsb' 0 3)⟩) else .error .fieldNotZero
  | 1 => if d.extractLsb' 3 3 = 0#3 ∧ a.extractLsb' 3 3 = 0#3 ∧ b.extractLsb' 3 3 = 0#3 then .ok (.por ⟨g, k, (d.extractLsb' 0 3), (a.extractLsb' 0 3), (b.extractLsb' 0 3)⟩) else .error .fieldNotZero
  | 2 => if d.extractLsb' 3 3 = 0#3 ∧ a.extractLsb' 3 3 = 0#3 ∧ b.extractLsb' 3 3 = 0#3 then .ok (.pxor ⟨g, k, (d.extractLsb' 0 3), (a.extractLsb' 0 3), (b.extractLsb' 0 3)⟩) else .error .fieldNotZero
  | 3 => if d.extractLsb' 3 3 = 0#3 ∧ a.extractLsb' 3 3 = 0#3 ∧ b.extractLsb' 3 3 = 0#3 then .ok (.pandn ⟨g, k, (d.extractLsb' 0 3), (a.extractLsb' 0 3), (b.extractLsb' 0 3)⟩) else .error .fieldNotZero
  | 4 => if d.extractLsb' 3 3 = 0#3 ∧ a = 0#6 ∧ b.extractLsb' 3 3 = 0#3 then .ok (.pmov g k (d.extractLsb' 0 3) (b.extractLsb' 0 3)) else .error .fieldNotZero
  | 5 => if a = 0#6 ∧ b.extractLsb' 3 3 = 0#3 then .ok (.pread g k d (b.extractLsb' 0 3)) else .error .fieldNotZero
  | _ => .error .unlistedMinor

/-- Major 0x0d, format I (R168 and R63). -/
noncomputable def decode0D (g : BitVec 3) (d : BitVec 6) (a : BitVec 6) (imm : BitVec 11) : Except DecodeError Instr :=
  .ok (.addi g d a imm)

/-- Major 0x0e, format W (R169 and R63). -/
noncomputable def decode0E (g : BitVec 3) (d : BitVec 6) (vs : BitVec 1) (imm : BitVec 16) : Except DecodeError Instr :=
  .ok (.movi g d vs imm)

/-- Major 0x0f, format W (R169 and R63). -/
noncomputable def decode0F (g : BitVec 3) (d : BitVec 6) (vs : BitVec 1) (imm : BitVec 16) : Except DecodeError Instr :=
  .ok (.movhi g d vs imm)

/-- Major 0x10, format A (R178 and R63). -/
noncomputable def decode10 (g : BitVec 3) (k : BitVec 1) (fn : BitVec 4) (d : BitVec 6) (a : BitVec 6) (b : BitVec 6) : Except DecodeError Instr :=
  match fn.toNat with
  | 0 => .ok (.addF32 ⟨g, k, d, a, b⟩)
  | 1 => .ok (.subF32 ⟨g, k, d, a, b⟩)
  | 2 => .ok (.mulF32 ⟨g, k, d, a, b⟩)
  | 3 => .ok (.fmaF32 ⟨g, k, d, a, b⟩)
  | 4 => .ok (.fnmaF32 ⟨g, k, d, a, b⟩)
  | 5 => .ok (.minF32 ⟨g, k, d, a, b⟩)
  | 6 => .ok (.maxF32 ⟨g, k, d, a, b⟩)
  | 7 => if a = 0#6 then .ok (.absF32 ⟨g, k, d, b⟩) else .error .fieldNotZero
  | 8 => if a = 0#6 then .ok (.negF32 ⟨g, k, d, b⟩) else .error .fieldNotZero
  | 9 => if a = 0#6 then .ok (.rcpF32 ⟨g, k, d, b⟩) else .error .fieldNotZero
  | 10 => if a = 0#6 then .ok (.rsqrtF32 ⟨g, k, d, b⟩) else .error .fieldNotZero
  | 11 => if a = 0#6 then .ok (.sqrtF32 ⟨g, k, d, b⟩) else .error .fieldNotZero
  | 12 => if a = 0#6 then .ok (.exp2F32 ⟨g, k, d, b⟩) else .error .fieldNotZero
  | 13 => if a = 0#6 then .ok (.log2F32 ⟨g, k, d, b⟩) else .error .fieldNotZero
  | 14 => .ok (.copysignF32 ⟨g, k, d, a, b⟩)
  | _ => .error .unlistedMinor

/-- Major 0x11, format A (R181 and R63). The unary forms admit k = 1, an `s` pair, as R170 has it for every form but `cvt`; the
syntax line of R181 shows their `v` form alone (notes/assumptions/69). -/
noncomputable def decode11 (g : BitVec 3) (k : BitVec 1) (fn : BitVec 4) (d : BitVec 6) (a : BitVec 6) (b : BitVec 6) : Except DecodeError Instr :=
  match fn.toNat with
  | 0 => .ok (.addF64 ⟨g, k, d, a, b⟩)
  | 1 => .ok (.subF64 ⟨g, k, d, a, b⟩)
  | 2 => .ok (.mulF64 ⟨g, k, d, a, b⟩)
  | 3 => .ok (.fmaF64 ⟨g, k, d, a, b⟩)
  | 4 => .ok (.fnmaF64 ⟨g, k, d, a, b⟩)
  | 5 => .ok (.minF64 ⟨g, k, d, a, b⟩)
  | 6 => .ok (.maxF64 ⟨g, k, d, a, b⟩)
  | 7 => if a = 0#6 then .ok (.absF64 ⟨g, k, d, b⟩) else .error .fieldNotZero
  | 8 => if a = 0#6 then .ok (.negF64 ⟨g, k, d, b⟩) else .error .fieldNotZero
  | 9 => if a = 0#6 then .ok (.rcpF64 ⟨g, k, d, b⟩) else .error .fieldNotZero
  | 10 => if a = 0#6 then .ok (.rsqrtF64 ⟨g, k, d, b⟩) else .error .fieldNotZero
  | 11 => if a = 0#6 then .ok (.sqrtF64 ⟨g, k, d, b⟩) else .error .fieldNotZero
  | 14 => .ok (.copysignF64 ⟨g, k, d, a, b⟩)
  | _ => .error .unlistedMinor

/-- Major 0x12, format A (R182 and R63). -/
noncomputable def decode12 (g : BitVec 3) (k : BitVec 1) (fn : BitVec 4) (d : BitVec 6) (a : BitVec 6) (b : BitVec 6) : Except DecodeError Instr :=
  match fn.toNat with
  | 0 => .ok (.addH16 ⟨g, k, d, a, b⟩)
  | 1 => .ok (.mulH16 ⟨g, k, d, a, b⟩)
  | 2 => .ok (.fmaH16 ⟨g, k, d, a, b⟩)
  | 3 => .ok (.minH16 ⟨g, k, d, a, b⟩)
  | 4 => .ok (.maxH16 ⟨g, k, d, a, b⟩)
  | 8 => .ok (.addBf16 ⟨g, k, d, a, b⟩)
  | 9 => .ok (.mulBf16 ⟨g, k, d, a, b⟩)
  | 10 => .ok (.fmaBf16 ⟨g, k, d, a, b⟩)
  | 11 => .ok (.minBf16 ⟨g, k, d, a, b⟩)
  | 12 => .ok (.maxBf16 ⟨g, k, d, a, b⟩)
  | _ => .error .unlistedMinor

/-- Major 0x13, format A (R183 and R63). -/
noncomputable def decode13 (g : BitVec 3) (k : BitVec 1) (fn : BitVec 4) (d : BitVec 6) (a : BitVec 6) (b : BitVec 6) : Except DecodeError Instr :=
  match fn.toNat with
  | 0 => .ok (.addH16x2 ⟨g, k, d, a, b⟩)
  | 1 => .ok (.mulH16x2 ⟨g, k, d, a, b⟩)
  | 2 => .ok (.fmaH16x2 ⟨g, k, d, a, b⟩)
  | 3 => .ok (.minH16x2 ⟨g, k, d, a, b⟩)
  | 4 => .ok (.maxH16x2 ⟨g, k, d, a, b⟩)
  | 8 => .ok (.addBf16x2 ⟨g, k, d, a, b⟩)
  | 9 => .ok (.mulBf16x2 ⟨g, k, d, a, b⟩)
  | 10 => .ok (.fmaBf16x2 ⟨g, k, d, a, b⟩)
  | 11 => .ok (.minBf16x2 ⟨g, k, d, a, b⟩)
  | 12 => .ok (.maxBf16x2 ⟨g, k, d, a, b⟩)
  | _ => .error .unlistedMinor

/-- Major 0x14, format A (R184 and R63). -/
noncomputable def decode14 (g : BitVec 3) (k : BitVec 1) (fn : BitVec 4) (d : BitVec 6) (a : BitVec 6) (b : BitVec 6) : Except DecodeError Instr :=
  match fn.toNat with
  | 0 => if d.extractLsb' 3 3 = 0#3 then .ok (.feqF32 ⟨g, k, (d.extractLsb' 0 3), a, b⟩) else .error .fieldNotZero
  | 1 => if d.extractLsb' 3 3 = 0#3 then .ok (.fltF32 ⟨g, k, (d.extractLsb' 0 3), a, b⟩) else .error .fieldNotZero
  | 2 => if d.extractLsb' 3 3 = 0#3 then .ok (.fleF32 ⟨g, k, (d.extractLsb' 0 3), a, b⟩) else .error .fieldNotZero
  | 3 => if d.extractLsb' 3 3 = 0#3 then .ok (.funordF32 ⟨g, k, (d.extractLsb' 0 3), a, b⟩) else .error .fieldNotZero
  | 4 => if d.extractLsb' 3 3 = 0#3 then .ok (.feqF64 ⟨g, k, (d.extractLsb' 0 3), a, b⟩) else .error .fieldNotZero
  | 5 => if d.extractLsb' 3 3 = 0#3 then .ok (.fltF64 ⟨g, k, (d.extractLsb' 0 3), a, b⟩) else .error .fieldNotZero
  | 6 => if d.extractLsb' 3 3 = 0#3 then .ok (.fleF64 ⟨g, k, (d.extractLsb' 0 3), a, b⟩) else .error .fieldNotZero
  | 7 => if d.extractLsb' 3 3 = 0#3 then .ok (.funordF64 ⟨g, k, (d.extractLsb' 0 3), a, b⟩) else .error .fieldNotZero
  | _ => .error .unlistedMinor

/-- Major 0x15, format A (R185 and R63). -/
noncomputable def decode15 (g : BitVec 3) (k : BitVec 1) (fn : BitVec 4) (d : BitVec 6) (a : BitVec 6) (b : BitVec 6) : Except DecodeError Instr :=
  match fn.toNat with
  | 0 => if k = 0#1 ∧ b.extractLsb' 4 2 = 0#2 then .ok (.cvt g fn d a (b.extractLsb' 0 4)) else .error .fieldNotZero
  | 1 => if k = 0#1 ∧ b.extractLsb' 4 2 = 0#2 then .ok (.cvt g fn d a (b.extractLsb' 0 4)) else .error .fieldNotZero
  | 2 => if k = 0#1 ∧ b.extractLsb' 4 2 = 0#2 then .ok (.cvt g fn d a (b.extractLsb' 0 4)) else .error .fieldNotZero
  | 3 => if k = 0#1 ∧ b.extractLsb' 4 2 = 0#2 then .ok (.cvt g fn d a (b.extractLsb' 0 4)) else .error .fieldNotZero
  | 4 => if k = 0#1 ∧ b.extractLsb' 4 2 = 0#2 then .ok (.cvt g fn d a (b.extractLsb' 0 4)) else .error .fieldNotZero
  | 5 => if k = 0#1 ∧ b.extractLsb' 4 2 = 0#2 then .ok (.cvt g fn d a (b.extractLsb' 0 4)) else .error .fieldNotZero
  | 6 => if k = 0#1 ∧ b.extractLsb' 4 2 = 0#2 then .ok (.cvt g fn d a (b.extractLsb' 0 4)) else .error .fieldNotZero
  | 7 => if k = 0#1 ∧ b.extractLsb' 4 2 = 0#2 then .ok (.cvt g fn d a (b.extractLsb' 0 4)) else .error .fieldNotZero
  | 8 => if k = 0#1 ∧ b.extractLsb' 4 2 = 0#2 then .ok (.cvt g fn d a (b.extractLsb' 0 4)) else .error .fieldNotZero
  | 9 => if k = 0#1 ∧ b.extractLsb' 4 2 = 0#2 then .ok (.cvt g fn d a (b.extractLsb' 0 4)) else .error .fieldNotZero
  | 10 => if k = 0#1 ∧ b.extractLsb' 4 2 = 0#2 then .ok (.cvt g fn d a (b.extractLsb' 0 4)) else .error .fieldNotZero
  | 11 => if k = 0#1 ∧ b.extractLsb' 4 2 = 0#2 then .ok (.cvt g fn d a (b.extractLsb' 0 4)) else .error .fieldNotZero
  | 12 => if k = 0#1 ∧ b.extractLsb' 4 2 = 0#2 then .ok (.cvt g fn d a (b.extractLsb' 0 4)) else .error .fieldNotZero
  | 13 => if k = 0#1 ∧ b.extractLsb' 4 2 = 0#2 then .ok (.cvt g fn d a (b.extractLsb' 0 4)) else .error .fieldNotZero
  | 14 => if k = 0#1 ∧ b.extractLsb' 4 2 = 0#2 then .ok (.cvt g fn d a (b.extractLsb' 0 4)) else .error .fieldNotZero
  | 15 => if k = 0#1 ∧ b.extractLsb' 4 2 = 0#2 then .ok (.cvt g fn d a (b.extractLsb' 0 4)) else .error .fieldNotZero
  | _ => .error .unlistedMinor

/-- Major 0x16, format S (R186 and R63). -/
noncomputable def decode16 (fn : BitVec 6) (d : BitVec 6) (a : BitVec 6) (imm : BitVec 8) : Except DecodeError Instr :=
  match fn.toNat with
  | 0 => if d = 0#6 ∧ a = 0#6 ∧ imm = 0#8 then .ok (.tfence) else .error .fieldNotZero
  | _ => .error .unlistedMinor

/-- Major 0x18, format A (R309 and R63). -/
noncomputable def decode18 (g : BitVec 3) (k : BitVec 1) (fn : BitVec 4) (d : BitVec 6) (a : BitVec 6) (b : BitVec 6) : Except DecodeError Instr :=
  match fn.toNat with
  | 0 => .ok (.mmul g k (fn.extractLsb' 0 2) d a b)
  | 1 => .ok (.mmul g k (fn.extractLsb' 0 2) d a b)
  | 2 => .ok (.mmul g k (fn.extractLsb' 0 2) d a b)
  | 3 => .ok (.mmul g k (fn.extractLsb' 0 2) d a b)
  | 4 => .ok (.madd g k (fn.extractLsb' 0 2) d a b)
  | 5 => .ok (.madd g k (fn.extractLsb' 0 2) d a b)
  | 6 => .ok (.madd g k (fn.extractLsb' 0 2) d a b)
  | 7 => .ok (.madd g k (fn.extractLsb' 0 2) d a b)
  | 8 => .ok (.msub g k (fn.extractLsb' 0 2) d a b)
  | 9 => .ok (.msub g k (fn.extractLsb' 0 2) d a b)
  | 10 => .ok (.msub g k (fn.extractLsb' 0 2) d a b)
  | 11 => .ok (.msub g k (fn.extractLsb' 0 2) d a b)
  | 12 => .ok (.mmac g k (fn.extractLsb' 0 2) d a b)
  | 13 => .ok (.mmac g k (fn.extractLsb' 0 2) d a b)
  | 14 => .ok (.mmac g k (fn.extractLsb' 0 2) d a b)
  | 15 => .ok (.mmac g k (fn.extractLsb' 0 2) d a b)
  | _ => .error .unlistedMinor

/-- Major 0x19, format A (R310 and R63). -/
noncomputable def decode19 (g : BitVec 3) (k : BitVec 1) (fn : BitVec 4) (d : BitVec 6) (a : BitVec 6) (b : BitVec 6) : Except DecodeError Instr :=
  match fn.toNat with
  | 0 => if k = 0#1 ∧ b = 0#6 then .ok (.mred g (fn.extractLsb' 0 2) d a) else .error .fieldNotZero
  | 1 => if k = 0#1 ∧ b = 0#6 then .ok (.mred g (fn.extractLsb' 0 2) d a) else .error .fieldNotZero
  | 2 => if k = 0#1 ∧ b = 0#6 then .ok (.mred g (fn.extractLsb' 0 2) d a) else .error .fieldNotZero
  | 3 => if k = 0#1 ∧ b = 0#6 then .ok (.mred g (fn.extractLsb' 0 2) d a) else .error .fieldNotZero
  | 4 => if k = 0#1 ∧ b = 0#6 then .ok (.mred128 g (fn.extractLsb' 0 2) d a) else .error .fieldNotZero
  | 5 => if k = 0#1 ∧ b = 0#6 then .ok (.mred128 g (fn.extractLsb' 0 2) d a) else .error .fieldNotZero
  | 6 => if k = 0#1 ∧ b = 0#6 then .ok (.mred128 g (fn.extractLsb' 0 2) d a) else .error .fieldNotZero
  | 7 => if k = 0#1 ∧ b = 0#6 then .ok (.mred128 g (fn.extractLsb' 0 2) d a) else .error .fieldNotZero
  | 8 => if k = 0#1 ∧ b = 0#6 then .ok (.mneg g (fn.extractLsb' 0 2) d a) else .error .fieldNotZero
  | 9 => if k = 0#1 ∧ b = 0#6 then .ok (.mneg g (fn.extractLsb' 0 2) d a) else .error .fieldNotZero
  | 10 => if k = 0#1 ∧ b = 0#6 then .ok (.mneg g (fn.extractLsb' 0 2) d a) else .error .fieldNotZero
  | 11 => if k = 0#1 ∧ b = 0#6 then .ok (.mneg g (fn.extractLsb' 0 2) d a) else .error .fieldNotZero
  | _ => .error .unlistedMinor

/-- Major 0x1a, format A (R311 and R63). -/
noncomputable def decode1A (g : BitVec 3) (k : BitVec 1) (fn : BitVec 4) (d : BitVec 6) (a : BitVec 6) (b : BitVec 6) : Except DecodeError Instr :=
  match fn.toNat with
  | 0 => if k = 0#1 ∧ b.extractLsb' 3 3 = 0#3 then .ok (.bfly g (fn.extractLsb' 0 2) d a (b.extractLsb' 0 3)) else .error .fieldNotZero
  | 1 => if k = 0#1 ∧ b.extractLsb' 3 3 = 0#3 then .ok (.bfly g (fn.extractLsb' 0 2) d a (b.extractLsb' 0 3)) else .error .fieldNotZero
  | 2 => if k = 0#1 ∧ b.extractLsb' 3 3 = 0#3 then .ok (.bfly g (fn.extractLsb' 0 2) d a (b.extractLsb' 0 3)) else .error .fieldNotZero
  | 3 => if k = 0#1 ∧ b.extractLsb' 3 3 = 0#3 then .ok (.bfly g (fn.extractLsb' 0 2) d a (b.extractLsb' 0 3)) else .error .fieldNotZero
  | 4 => if k = 0#1 ∧ b.extractLsb' 3 3 = 0#3 then .ok (.ibfly g (fn.extractLsb' 0 2) d a (b.extractLsb' 0 3)) else .error .fieldNotZero
  | 5 => if k = 0#1 ∧ b.extractLsb' 3 3 = 0#3 then .ok (.ibfly g (fn.extractLsb' 0 2) d a (b.extractLsb' 0 3)) else .error .fieldNotZero
  | 6 => if k = 0#1 ∧ b.extractLsb' 3 3 = 0#3 then .ok (.ibfly g (fn.extractLsb' 0 2) d a (b.extractLsb' 0 3)) else .error .fieldNotZero
  | 7 => if k = 0#1 ∧ b.extractLsb' 3 3 = 0#3 then .ok (.ibfly g (fn.extractLsb' 0 2) d a (b.extractLsb' 0 3)) else .error .fieldNotZero
  | _ => .error .unlistedMinor

/-- Major 0x1b, format A (R313 and R63). -/
noncomputable def decode1B (g : BitVec 3) (k : BitVec 1) (fn : BitVec 4) (d : BitVec 6) (a : BitVec 6) (b : BitVec 6) : Except DecodeError Instr :=
  match fn.toNat with
  | 0 => if k = 1#1 then .ok (.perm g d a b) else .error .fieldNotZero
  | 1 => if k = 1#1 then .ok (.lrot g d a b) else .error .fieldNotZero
  | 2 => if k = 0#1 ∧ d.extractLsb' 2 4 = 0#4 ∧ b = 0#6 then .ok (.setm g (d.extractLsb' 0 2) a) else .error .fieldNotZero
  | 3 => if k = 0#1 ∧ d.extractLsb' 2 4 = 0#4 ∧ b = 0#6 then .ok (.getm g (d.extractLsb' 0 2) a) else .error .fieldNotZero
  | 4 => if k = 0#1 ∧ d.extractLsb' 2 4 = 0#4 ∧ b = 0#6 then .ok (.getk g (d.extractLsb' 0 2) a) else .error .fieldNotZero
  | _ => .error .unlistedMinor

/-- Major 0x1c, format M (R200 and R63). -/
noncomputable def decode1C (g : BitVec 3) (t : BitVec 6) (sb : BitVec 5) (x : BitVec 6) (f : BitVec 3) (w : BitVec 3) : Except DecodeError Instr :=
  .ok (.ld ⟨g, t, sb, x, f, w⟩)

/-- Major 0x1d, format M (R200 and R63). -/
noncomputable def decode1D (g : BitVec 3) (t : BitVec 6) (sb : BitVec 5) (x : BitVec 6) (f : BitVec 3) (w : BitVec 3) : Except DecodeError Instr :=
  .ok (.st ⟨g, t, sb, x, f, w⟩)

/-- Major 0x1e, format M (R203 and R63). -/
noncomputable def decode1E (g : BitVec 3) (t : BitVec 6) (sb : BitVec 5) (x : BitVec 6) (f : BitVec 3) (w : BitVec 3) : Except DecodeError Instr :=
  .ok (.lde ⟨g, t, sb, x, f, w⟩)

/-- Major 0x1f, format M (R204 and R63). -/
noncomputable def decode1F (g : BitVec 3) (t : BitVec 6) (sb : BitVec 5) (x : BitVec 6) (f : BitVec 3) (w : BitVec 3) : Except DecodeError Instr :=
  .ok (.ste ⟨g, t, sb, x, f, w⟩)

/-- Major 0x20, format S (R226 and R63). -/
noncomputable def decode20 (fn : BitVec 6) (d : BitVec 6) (a : BitVec 6) (imm : BitVec 8) : Except DecodeError Instr :=
  match fn.toNat with
  | 0 => if imm.extractLsb' 5 3 = 0#3 then .ok (.preq d a (imm.extractLsb' 2 3) (imm.extractLsb' 1 1) (imm.extractLsb' 0 1)) else .error .fieldNotZero
  | 1 => if d = 0#6 then .ok (.lclean a imm) else .error .fieldNotZero
  | 2 => if imm.extractLsb' 1 7 = 0#7 then .ok (.pf d a (imm.extractLsb' 0 1)) else .error .fieldNotZero
  | 3 => if d = 0#6 then .ok (.lflush a imm) else .error .fieldNotZero
  | 4 => if d = 0#6 then .ok (.linv a imm) else .error .fieldNotZero
  | 5 => if imm.extractLsb' 5 3 = 0#3 then .ok (.lds d a (imm.extractLsb' 2 3) (imm.extractLsb' 0 2)) else .error .fieldNotZero
  | 6 => if imm.extractLsb' 5 3 = 0#3 then .ok (.cst d a (imm.extractLsb' 2 3) (imm.extractLsb' 0 2)) else .error .fieldNotZero
  | 7 => .ok (.exld d a (imm.extractLsb' 5 3) (imm.extractLsb' 2 3) (imm.extractLsb' 0 2))
  | _ => .error .unlistedMinor

/-- Major 0x21, format A (R246 and R63). -/
noncomputable def decode21 (g : BitVec 3) (k : BitVec 1) (fn : BitVec 4) (d : BitVec 6) (a : BitVec 6) (b : BitVec 6) : Except DecodeError Instr :=
  match fn.toNat with
  | 0 => if g = 7#3 ∧ k = 1#1 then .ok (.talloc d a b) else .error .fieldNotZero
  | 1 => if g = 7#3 ∧ k = 0#1 ∧ d = 0#6 ∧ b = 0#6 then .ok (.tfree a) else .error .fieldNotZero
  | 2 => if g = 7#3 ∧ k = 1#1 then .ok (.tfill d a b) else .error .fieldNotZero
  | 3 => if g = 7#3 ∧ k = 0#1 ∧ b = 0#6 then .ok (.tflush d a) else .error .fieldNotZero
  | 4 => if k = 0#1 ∧ b = 0#6 then .ok (.tquery ⟨g, d, a⟩) else .error .fieldNotZero
  | _ => .error .unlistedMinor

/-- Major 0x22, format A (R247 and R63). -/
noncomputable def decode22 (g : BitVec 3) (k : BitVec 1) (fn : BitVec 4) (d : BitVec 6) (a : BitVec 6) (b : BitVec 6) : Except DecodeError Instr :=
  match fn.toNat with
  | 0 => .ok (.tld g k (fn.extractLsb' 0 2) d a b)
  | 1 => .ok (.tld g k (fn.extractLsb' 0 2) d a b)
  | 2 => .ok (.tld g k (fn.extractLsb' 0 2) d a b)
  | 3 => .ok (.tld g k (fn.extractLsb' 0 2) d a b)
  | 4 => .ok (.tst g k (fn.extractLsb' 0 2) d a b)
  | 5 => .ok (.tst g k (fn.extractLsb' 0 2) d a b)
  | 6 => .ok (.tst g k (fn.extractLsb' 0 2) d a b)
  | 7 => .ok (.tst g k (fn.extractLsb' 0 2) d a b)
  | 8 => .ok (.tlde ⟨g, k, d, a, b⟩)
  | 9 => .ok (.tste ⟨g, k, d, a, b⟩)
  | _ => .error .unlistedMinor

/-- Major 0x23, format A (R248 and R63). -/
noncomputable def decode23 (g : BitVec 3) (k : BitVec 1) (fn : BitVec 4) (d : BitVec 6) (a : BitVec 6) (b : BitVec 6) : Except DecodeError Instr :=
  match fn.toNat with
  | 0 => .ok (.tldg ⟨g, k, d, a, b⟩)
  | 1 => .ok (.tstg ⟨g, k, d, a, b⟩)
  | 2 => if g = 7#3 ∧ k = 0#1 ∧ d = 0#6 ∧ b = 0#6 then .ok (.macq a) else .error .fieldNotZero
  | 3 => if g = 7#3 ∧ k = 0#1 ∧ d = 0#6 ∧ b = 0#6 then .ok (.mrel a) else .error .fieldNotZero
  | _ => .error .unlistedMinor

/-- Major 0x24, format A (R257 and R63). -/
noncomputable def decode24 (g : BitVec 3) (k : BitVec 1) (fn : BitVec 4) (d : BitVec 6) (a : BitVec 6) (b : BitVec 6) : Except DecodeError Instr :=
  match fn.toNat with
  | 0 => .ok (.atomAdd ⟨g, k, d, a, b⟩)
  | 1 => .ok (.atomAnd ⟨g, k, d, a, b⟩)
  | 2 => .ok (.atomOr ⟨g, k, d, a, b⟩)
  | 3 => .ok (.atomXor ⟨g, k, d, a, b⟩)
  | 4 => .ok (.atomMinS32 ⟨g, k, d, a, b⟩)
  | 5 => .ok (.atomMaxS32 ⟨g, k, d, a, b⟩)
  | 6 => .ok (.atomMinN32 ⟨g, k, d, a, b⟩)
  | 7 => .ok (.atomMaxN32 ⟨g, k, d, a, b⟩)
  | 8 => .ok (.atomXchg ⟨g, k, d, a, b⟩)
  | 9 => .ok (.atomCas ⟨g, k, d, a, b⟩)
  | _ => .error .unlistedMinor

/-- Major 0x25, format A (R256 and R63). -/
noncomputable def decode25 (g : BitVec 3) (k : BitVec 1) (fn : BitVec 4) (d : BitVec 6) (a : BitVec 6) (b : BitVec 6) : Except DecodeError Instr :=
  match fn.toNat with
  | 0 => if d = 0#6 then .ok (.redAdd ⟨g, k, a, b⟩) else .error .fieldNotZero
  | 1 => if d = 0#6 then .ok (.redAnd ⟨g, k, a, b⟩) else .error .fieldNotZero
  | 2 => if d = 0#6 then .ok (.redOr ⟨g, k, a, b⟩) else .error .fieldNotZero
  | 3 => if d = 0#6 then .ok (.redXor ⟨g, k, a, b⟩) else .error .fieldNotZero
  | 4 => if d = 0#6 then .ok (.redMinS32 ⟨g, k, a, b⟩) else .error .fieldNotZero
  | 5 => if d = 0#6 then .ok (.redMaxS32 ⟨g, k, a, b⟩) else .error .fieldNotZero
  | 6 => if d = 0#6 then .ok (.redMinN32 ⟨g, k, a, b⟩) else .error .fieldNotZero
  | 7 => if d = 0#6 then .ok (.redMaxN32 ⟨g, k, a, b⟩) else .error .fieldNotZero
  | _ => .error .unlistedMinor

/-- Major 0x26, format A (R257 and R63). -/
noncomputable def decode26 (g : BitVec 3) (k : BitVec 1) (fn : BitVec 4) (d : BitVec 6) (a : BitVec 6) (b : BitVec 6) : Except DecodeError Instr :=
  match fn.toNat with
  | 0 => .ok (.atomAddN64 ⟨g, k, d, a, b⟩)
  | 1 => .ok (.atomAndN64 ⟨g, k, d, a, b⟩)
  | 2 => .ok (.atomOrN64 ⟨g, k, d, a, b⟩)
  | 3 => .ok (.atomXorN64 ⟨g, k, d, a, b⟩)
  | 4 => .ok (.atomMinS64 ⟨g, k, d, a, b⟩)
  | 5 => .ok (.atomMaxS64 ⟨g, k, d, a, b⟩)
  | 6 => .ok (.atomMinN64 ⟨g, k, d, a, b⟩)
  | 7 => .ok (.atomMaxN64 ⟨g, k, d, a, b⟩)
  | 8 => .ok (.atomXchgN64 ⟨g, k, d, a, b⟩)
  | 9 => .ok (.atomCasN64 ⟨g, k, d, a, b⟩)
  | _ => .error .unlistedMinor

/-- Major 0x27, format A (R256 and R63). -/
noncomputable def decode27 (g : BitVec 3) (k : BitVec 1) (fn : BitVec 4) (d : BitVec 6) (a : BitVec 6) (b : BitVec 6) : Except DecodeError Instr :=
  match fn.toNat with
  | 0 => if d = 0#6 then .ok (.redAddN64 ⟨g, k, a, b⟩) else .error .fieldNotZero
  | 1 => if d = 0#6 then .ok (.redAndN64 ⟨g, k, a, b⟩) else .error .fieldNotZero
  | 2 => if d = 0#6 then .ok (.redOrN64 ⟨g, k, a, b⟩) else .error .fieldNotZero
  | 3 => if d = 0#6 then .ok (.redXorN64 ⟨g, k, a, b⟩) else .error .fieldNotZero
  | 4 => if d = 0#6 then .ok (.redMinS64 ⟨g, k, a, b⟩) else .error .fieldNotZero
  | 5 => if d = 0#6 then .ok (.redMaxS64 ⟨g, k, a, b⟩) else .error .fieldNotZero
  | 6 => if d = 0#6 then .ok (.redMinN64 ⟨g, k, a, b⟩) else .error .fieldNotZero
  | 7 => if d = 0#6 then .ok (.redMaxN64 ⟨g, k, a, b⟩) else .error .fieldNotZero
  | _ => .error .unlistedMinor

/-- Major 0x28, format A (R258 and R63). -/
noncomputable def decode28 (g : BitVec 3) (k : BitVec 1) (fn : BitVec 4) (d : BitVec 6) (a : BitVec 6) (b : BitVec 6) : Except DecodeError Instr :=
  match fn.toNat with
  | 0 => .ok (.atomAddF32 ⟨g, k, d, a, b⟩)
  | 1 => .ok (.atomMinF32 ⟨g, k, d, a, b⟩)
  | 2 => .ok (.atomMaxF32 ⟨g, k, d, a, b⟩)
  | 3 => .ok (.atomAddF64 ⟨g, k, d, a, b⟩)
  | 4 => .ok (.atomMinF64 ⟨g, k, d, a, b⟩)
  | 5 => .ok (.atomMaxF64 ⟨g, k, d, a, b⟩)
  | 6 => .ok (.atomAddBf16x2 ⟨g, k, d, a, b⟩)
  | 7 => .ok (.atomMinBf16x2 ⟨g, k, d, a, b⟩)
  | 8 => .ok (.atomMaxBf16x2 ⟨g, k, d, a, b⟩)
  | 9 => .ok (.atomAddH16x2 ⟨g, k, d, a, b⟩)
  | 10 => .ok (.atomMinH16x2 ⟨g, k, d, a, b⟩)
  | 11 => .ok (.atomMaxH16x2 ⟨g, k, d, a, b⟩)
  | 12 => .ok (.atomAddBf16 ⟨g, k, d, a, b⟩)
  | 13 => .ok (.atomMinBf16 ⟨g, k, d, a, b⟩)
  | 14 => .ok (.atomMaxBf16 ⟨g, k, d, a, b⟩)
  | _ => .error .unlistedMinor

/-- Major 0x29, format A (R258 and R63). -/
noncomputable def decode29 (g : BitVec 3) (k : BitVec 1) (fn : BitVec 4) (d : BitVec 6) (a : BitVec 6) (b : BitVec 6) : Except DecodeError Instr :=
  match fn.toNat with
  | 0 => if d = 0#6 then .ok (.redAddF32 ⟨g, k, a, b⟩) else .error .fieldNotZero
  | 1 => if d = 0#6 then .ok (.redMinF32 ⟨g, k, a, b⟩) else .error .fieldNotZero
  | 2 => if d = 0#6 then .ok (.redMaxF32 ⟨g, k, a, b⟩) else .error .fieldNotZero
  | 3 => if d = 0#6 then .ok (.redAddF64 ⟨g, k, a, b⟩) else .error .fieldNotZero
  | 4 => if d = 0#6 then .ok (.redMinF64 ⟨g, k, a, b⟩) else .error .fieldNotZero
  | 5 => if d = 0#6 then .ok (.redMaxF64 ⟨g, k, a, b⟩) else .error .fieldNotZero
  | 6 => if d = 0#6 then .ok (.redAddBf16x2 ⟨g, k, a, b⟩) else .error .fieldNotZero
  | 7 => if d = 0#6 then .ok (.redMinBf16x2 ⟨g, k, a, b⟩) else .error .fieldNotZero
  | 8 => if d = 0#6 then .ok (.redMaxBf16x2 ⟨g, k, a, b⟩) else .error .fieldNotZero
  | 9 => if d = 0#6 then .ok (.redAddH16x2 ⟨g, k, a, b⟩) else .error .fieldNotZero
  | 10 => if d = 0#6 then .ok (.redMinH16x2 ⟨g, k, a, b⟩) else .error .fieldNotZero
  | 11 => if d = 0#6 then .ok (.redMaxH16x2 ⟨g, k, a, b⟩) else .error .fieldNotZero
  | 12 => if d = 0#6 then .ok (.redAddBf16 ⟨g, k, a, b⟩) else .error .fieldNotZero
  | 13 => if d = 0#6 then .ok (.redMinBf16 ⟨g, k, a, b⟩) else .error .fieldNotZero
  | 14 => if d = 0#6 then .ok (.redMaxBf16 ⟨g, k, a, b⟩) else .error .fieldNotZero
  | _ => .error .unlistedMinor

/-- Major 0x2a, format A (R259 and R63). -/
noncomputable def decode2A (g : BitVec 3) (k : BitVec 1) (fn : BitVec 4) (d : BitVec 6) (a : BitVec 6) (b : BitVec 6) : Except DecodeError Instr :=
  match fn.toNat with
  | 0 => if k = 0#1 then .ok (.cas128 g d a b) else .error .fieldNotZero
  | 1 => if k = 0#1 ∧ b = 0#6 then .ok (.lres32 ⟨g, d, a⟩) else .error .fieldNotZero
  | 2 => if k = 0#1 ∧ b = 0#6 then .ok (.lres64 ⟨g, d, a⟩) else .error .fieldNotZero
  | 3 => .ok (.scond32 ⟨g, k, d, a, b⟩)
  | 4 => .ok (.scond64 ⟨g, k, d, a, b⟩)
  | 5 => if k = 0#1 ∧ d = 0#6 ∧ b = 0#6 then .ok (.mon g a) else .error .fieldNotZero
  | _ => .error .unlistedMinor

/-- Major 0x2b, format S (R266 and R63). -/
noncomputable def decode2B (fn : BitVec 6) (d : BitVec 6) (a : BitVec 6) (imm : BitVec 8) : Except DecodeError Instr :=
  match fn.toNat with
  | 0 => if d = 0#6 ∧ a = 0#6 ∧ imm.extractLsb' 3 5 = 0#5 then .ok (.fence (imm.extractLsb' 0 3)) else if d = 0#6 ∧ a = 0#6 ∧ imm.extractLsb' 3 5 = 1#5 then .ok (.fenceAcq (imm.extractLsb' 0 3)) else if d = 0#6 ∧ a = 0#6 ∧ imm.extractLsb' 3 5 = 2#5 then .ok (.fenceRel (imm.extractLsb' 0 3)) else .error .fieldNotZero
  | 1 => if d = 0#6 ∧ a = 0#6 ∧ imm.extractLsb' 4 4 = 0#4 then .ok (.bar (imm.extractLsb' 0 4)) else .error .fieldNotZero
  | 2 => if d = 0#6 ∧ imm = 0#8 then .ok (.gbar a) else .error .fieldNotZero
  | 3 => if d = 0#6 ∧ a = 0#6 ∧ imm = 0#8 then .ok (.mwait) else .error .fieldNotZero
  | _ => .error .unlistedMinor

/-- Major 0x2c, format S (R131 and R63). -/
noncomputable def decode2C (fn : BitVec 6) (d : BitVec 6) (a : BitVec 6) (imm : BitVec 8) : Except DecodeError Instr :=
  match fn.toNat with
  | 0 => if d = 0#6 ∧ imm = 0#8 then .ok (.launch a) else .error .fieldNotZero
  | 1 => if imm = 0#8 then .ok (.spawn ⟨d, a⟩) else .error .fieldNotZero
  | 2 => .ok (.jcnt d a imm)
  | 3 => if d = 0#6 ∧ a = 0#6 ∧ imm = 0#8 then .ok (.exit_) else .error .fieldNotZero
  | 4 => if d = 0#6 ∧ a = 0#6 ∧ imm = 0#8 then .ok (.yield) else .error .fieldNotZero
  | 5 => if imm = 0#8 then .ok (.gquery ⟨d, a⟩) else .error .fieldNotZero
  | _ => .error .unlistedMinor

/-- Major 0x2d, format S (R376 and R63). -/
noncomputable def decode2D (fn : BitVec 6) (d : BitVec 6) (a : BitVec 6) (imm : BitVec 8) : Except DecodeError Instr :=
  match fn.toNat with
  | 0 => if imm = 0#8 then .ok (.qpush ⟨d, a⟩) else .error .fieldNotZero
  | 1 => if imm = 0#8 then .ok (.qtail ⟨d, a⟩) else .error .fieldNotZero
  | 2 => if imm = 0#8 then .ok (.seqwait ⟨d, a⟩) else .error .fieldNotZero
  | _ => .error .unlistedMinor

/-- Major 0x2e, format S (R379 and R63). -/
noncomputable def decode2E (fn : BitVec 6) (d : BitVec 6) (a : BitVec 6) (imm : BitVec 8) : Except DecodeError Instr :=
  match fn.toNat with
  | 0 => if imm = 0#8 then .ok (.dsub ⟨d, a⟩) else .error .fieldNotZero
  | 1 => if imm = 0#8 then .ok (.vsub ⟨d, a⟩) else .error .fieldNotZero
  | 2 => if imm = 0#8 then .ok (.csub ⟨d, a⟩) else .error .fieldNotZero
  | _ => .error .unlistedMinor

/-- Major 0x2f, format S (R380 and R63). -/
noncomputable def decode2F (fn : BitVec 6) (d : BitVec 6) (a : BitVec 6) (imm : BitVec 8) : Except DecodeError Instr :=
  match fn.toNat with
  | 0 => if imm = 0#8 then .ok (.qhead ⟨d, a⟩) else if imm = 1#8 then .ok (.qheadWait ⟨d, a⟩) else .error .fieldNotZero
  | 1 => if imm = 0#8 then .ok (.seqread ⟨d, a⟩) else .error .fieldNotZero
  | _ => .error .unlistedMinor

/-- Major 0x30, format S (R335 and R63). -/
noncomputable def decode30 (fn : BitVec 6) (d : BitVec 6) (a : BitVec 6) (imm : BitVec 8) : Except DecodeError Instr :=
  match fn.toNat with
  | 0 => .ok (.mload d a imm)
  | 1 => if d = 0#6 ∧ a = 0#6 ∧ imm = 0#8 then .ok (.mswap) else .error .fieldNotZero
  | 2 => if imm.extractLsb' 5 3 = 0#3 then .ok (.mstep d a (imm.extractLsb' 4 1) (imm.extractLsb' 3 1) (imm.extractLsb' 0 3)) else .error .fieldNotZero
  | 3 => if imm = 0#8 then .ok (.mzero ⟨d, a⟩) else if d = 0#6 ∧ imm = 1#8 then .ok (.mzeroFree a) else .error .fieldNotZero
  | 4 => if imm.extractLsb' 4 4 = 0#4 then .ok (.mdrain d a (imm.extractLsb' 3 1) (imm.extractLsb' 2 1) (imm.extractLsb' 0 2)) else .error .fieldNotZero
  | _ => .error .unlistedMinor

/-- Major 0x31, format S (R341 and R63). -/
noncomputable def decode31 (fn : BitVec 6) (d : BitVec 6) (a : BitVec 6) (imm : BitVec 8) : Except DecodeError Instr :=
  match fn.toNat with
  | 0 => if d = 0#6 ∧ imm = 0#8 then .ok (.vdsub a) else .error .fieldNotZero
  | 1 => if imm = 0#8 then .ok (.vsig ⟨d, a⟩) else .error .fieldNotZero
  | 2 => if d = 0#6 ∧ a = 0#6 ∧ imm = 0#8 then .ok (.vyield) else if d = 0#6 ∧ a = 0#6 ∧ imm = 1#8 then .ok (.vyieldDone) else .error .fieldNotZero
  | _ => .error .unlistedMinor

/-- Major 0x34, format C (R402 and R63). -/
noncomputable def decode34 (g : BitVec 3) (fn : BitVec 4) (d : BitVec 6) (a : BitVec 6) (b : BitVec 6) (e : BitVec 1) : Except DecodeError Instr :=
  match fn.toNat with
  | 0 => if a = 0#6 ∧ e = 1#1 then .ok (.rast g d b) else .error .fieldNotZero
  | 1 => if a = 0#6 ∧ e = 1#1 then .ok (.rastbin g d b) else .error .fieldNotZero
  | 2 => if a = 0#6 ∧ e = 1#1 then .ok (.binflush g d b) else .error .fieldNotZero
  | _ => .error .unlistedMinor

/-- Major 0x35, format C (R395 and R63). -/
noncomputable def decode35 (g : BitVec 3) (fn : BitVec 4) (d : BitVec 6) (a : BitVec 6) (b : BitVec 6) (e : BitVec 1) : Except DecodeError Instr :=
  match fn.toNat with
  | 0 => if e = 1#1 then .ok (.ctok ⟨g, d, a, b⟩) else .error .fieldNotZero
  | 1 => if e = 1#1 then .ok (.zs ⟨g, d, a, b⟩) else if d = 0#6 ∧ e = 0#1 then .ok (.zsP g a b) else .error .fieldNotZero
  | 2 => if e = 1#1 then .ok (.blnd ⟨g, d, a, b⟩) else if d = 0#6 ∧ e = 0#1 then .ok (.blndP g a b) else .error .fieldNotZero
  | _ => .error .unlistedMinor

/-- Major 0x36, format C (R411 and R63). -/
noncomputable def decode36 (g : BitVec 3) (fn : BitVec 4) (d : BitVec 6) (a : BitVec 6) (b : BitVec 6) (e : BitVec 1) : Except DecodeError Instr :=
  match fn.toNat with
  | 0 => if e = 1#1 then .ok (.tex ⟨g, d, a, b⟩) else .error .fieldNotZero
  | 1 => if e = 1#1 then .ok (.texg ⟨g, d, a, b⟩) else .error .fieldNotZero
  | 2 => if e = 1#1 then .ok (.texq ⟨g, d, a, b⟩) else .error .fieldNotZero
  | _ => .error .unlistedMinor

/-- Major 0x37, format C (R419 and R63). -/
noncomputable def decode37 (g : BitVec 3) (fn : BitVec 4) (d : BitVec 6) (a : BitVec 6) (b : BitVec 6) (e : BitVec 1) : Except DecodeError Instr :=
  match fn.toNat with
  | 0 => if e = 1#1 then .ok (.trav ⟨g, d, a, b⟩) else .error .fieldNotZero
  | 1 => if e = 1#1 then .ok (.travc ⟨g, d, a, b⟩) else .error .fieldNotZero
  | _ => .error .unlistedMinor

/-- Major 0x38, format S (R436 and R63). -/
noncomputable def decode38 (fn : BitVec 6) (d : BitVec 6) (a : BitVec 6) (imm : BitVec 8) : Except DecodeError Instr :=
  match fn.toNat with
  | 0 => if a = 0#6 then .ok (.rdsV d imm) else .error .fieldNotZero
  | 1 => if a = 0#6 then .ok (.rdsS d imm) else .error .fieldNotZero
  | 2 => if d = 0#6 then .ok (.wrs a imm) else .error .fieldNotZero
  | 3 => .ok (.upcall d a imm)
  | 4 => if d = 0#6 ∧ a = 0#6 then .ok (.brk imm) else .error .fieldNotZero
  | 5 => if d = 0#6 ∧ a = 0#6 ∧ imm = 0#8 then .ok (.nop) else .error .fieldNotZero
  | _ => .error .unlistedMinor

/-- Major 0x39, format S (R227 and R63). -/
noncomputable def decode39 (fn : BitVec 6) (d : BitVec 6) (a : BitVec 6) (imm : BitVec 8) : Except DecodeError Instr :=
  match fn.toNat with
  | 0 => if imm = 0#8 then .ok (.tlbiPage ⟨d, a⟩) else if imm = 1#8 then .ok (.tlbiAsid ⟨d, a⟩) else if imm = 2#8 then .ok (.tlbiAll ⟨d, a⟩) else .error .fieldNotZero
  | 1 => .ok (.pkset d a imm)
  | _ => .error .unlistedMinor

/-- Major 0x3e, format H (R66 and R63). -/
noncomputable def decode3E (fn : BitVec 4) (pay : BitVec 22) : Except DecodeError Instr :=
  match fn.toNat with
  | 0 => .ok (.hintImmediate pay)
  | 1 => .ok (.hintJoin pay)
  | 2 => .ok (.hintRounding pay)
  | 3 => .ok (.hintScalePolicy pay)
  | 4 => .ok (.hintPriority pay)
  | 5 => .ok (.hintScope pay)
  | 6 => .ok (.hintFormat pay)
  | _ => .error .unlistedMinor

/-- Major and minor to instruction, before the field checks of `Instr.wellFormed`. -/
noncomputable def decodeRaw (w : BitVec 32) : Except DecodeError Instr :=
  match (w.extractLsb' 26 6).toNat with
  | 1 => decode01 (w.extractLsb' 23 3) (w.extractLsb' 22 1) (w.extractLsb' 0 22)
  | 2 => decode02 (w.extractLsb' 23 3) (w.extractLsb' 22 1) (w.extractLsb' 0 22)
  | 3 => decode03 (w.extractLsb' 23 3) (w.extractLsb' 22 1) (w.extractLsb' 18 4) (w.extractLsb' 12 6) (w.extractLsb' 6 6) (w.extractLsb' 0 6)
  | 4 => decode04 (w.extractLsb' 23 3) (w.extractLsb' 22 1) (w.extractLsb' 18 4) (w.extractLsb' 12 6) (w.extractLsb' 6 6) (w.extractLsb' 0 6)
  | 5 => decode05 (w.extractLsb' 23 3) (w.extractLsb' 22 1) (w.extractLsb' 18 4) (w.extractLsb' 12 6) (w.extractLsb' 6 6) (w.extractLsb' 0 6)
  | 6 => decode06 (w.extractLsb' 23 3) (w.extractLsb' 22 1) (w.extractLsb' 18 4) (w.extractLsb' 12 6) (w.extractLsb' 6 6) (w.extractLsb' 0 6)
  | 7 => decode07 (w.extractLsb' 23 3) (w.extractLsb' 22 1) (w.extractLsb' 18 4) (w.extractLsb' 12 6) (w.extractLsb' 6 6) (w.extractLsb' 0 6)
  | 8 => decode08 (w.extractLsb' 23 3) (w.extractLsb' 22 1) (w.extractLsb' 18 4) (w.extractLsb' 12 6) (w.extractLsb' 6 6) (w.extractLsb' 0 6)
  | 9 => decode09 (w.extractLsb' 23 3) (w.extractLsb' 22 1) (w.extractLsb' 18 4) (w.extractLsb' 12 6) (w.extractLsb' 6 6) (w.extractLsb' 0 6)
  | 10 => decode0A (w.extractLsb' 23 3) (w.extractLsb' 22 1) (w.extractLsb' 18 4) (w.extractLsb' 12 6) (w.extractLsb' 6 6) (w.extractLsb' 0 6)
  | 11 => decode0B (w.extractLsb' 23 3) (w.extractLsb' 22 1) (w.extractLsb' 18 4) (w.extractLsb' 12 6) (w.extractLsb' 6 6) (w.extractLsb' 0 6)
  | 12 => decode0C (w.extractLsb' 23 3) (w.extractLsb' 22 1) (w.extractLsb' 18 4) (w.extractLsb' 12 6) (w.extractLsb' 6 6) (w.extractLsb' 0 6)
  | 13 => decode0D (w.extractLsb' 23 3) (w.extractLsb' 17 6) (w.extractLsb' 11 6) (w.extractLsb' 0 11)
  | 14 => decode0E (w.extractLsb' 23 3) (w.extractLsb' 17 6) (w.extractLsb' 16 1) (w.extractLsb' 0 16)
  | 15 => decode0F (w.extractLsb' 23 3) (w.extractLsb' 17 6) (w.extractLsb' 16 1) (w.extractLsb' 0 16)
  | 16 => decode10 (w.extractLsb' 23 3) (w.extractLsb' 22 1) (w.extractLsb' 18 4) (w.extractLsb' 12 6) (w.extractLsb' 6 6) (w.extractLsb' 0 6)
  | 17 => decode11 (w.extractLsb' 23 3) (w.extractLsb' 22 1) (w.extractLsb' 18 4) (w.extractLsb' 12 6) (w.extractLsb' 6 6) (w.extractLsb' 0 6)
  | 18 => decode12 (w.extractLsb' 23 3) (w.extractLsb' 22 1) (w.extractLsb' 18 4) (w.extractLsb' 12 6) (w.extractLsb' 6 6) (w.extractLsb' 0 6)
  | 19 => decode13 (w.extractLsb' 23 3) (w.extractLsb' 22 1) (w.extractLsb' 18 4) (w.extractLsb' 12 6) (w.extractLsb' 6 6) (w.extractLsb' 0 6)
  | 20 => decode14 (w.extractLsb' 23 3) (w.extractLsb' 22 1) (w.extractLsb' 18 4) (w.extractLsb' 12 6) (w.extractLsb' 6 6) (w.extractLsb' 0 6)
  | 21 => decode15 (w.extractLsb' 23 3) (w.extractLsb' 22 1) (w.extractLsb' 18 4) (w.extractLsb' 12 6) (w.extractLsb' 6 6) (w.extractLsb' 0 6)
  | 22 => decode16 (w.extractLsb' 20 6) (w.extractLsb' 14 6) (w.extractLsb' 8 6) (w.extractLsb' 0 8)
  | 24 => decode18 (w.extractLsb' 23 3) (w.extractLsb' 22 1) (w.extractLsb' 18 4) (w.extractLsb' 12 6) (w.extractLsb' 6 6) (w.extractLsb' 0 6)
  | 25 => decode19 (w.extractLsb' 23 3) (w.extractLsb' 22 1) (w.extractLsb' 18 4) (w.extractLsb' 12 6) (w.extractLsb' 6 6) (w.extractLsb' 0 6)
  | 26 => decode1A (w.extractLsb' 23 3) (w.extractLsb' 22 1) (w.extractLsb' 18 4) (w.extractLsb' 12 6) (w.extractLsb' 6 6) (w.extractLsb' 0 6)
  | 27 => decode1B (w.extractLsb' 23 3) (w.extractLsb' 22 1) (w.extractLsb' 18 4) (w.extractLsb' 12 6) (w.extractLsb' 6 6) (w.extractLsb' 0 6)
  | 28 => decode1C (w.extractLsb' 23 3) (w.extractLsb' 17 6) (w.extractLsb' 12 5) (w.extractLsb' 6 6) (w.extractLsb' 3 3) (w.extractLsb' 0 3)
  | 29 => decode1D (w.extractLsb' 23 3) (w.extractLsb' 17 6) (w.extractLsb' 12 5) (w.extractLsb' 6 6) (w.extractLsb' 3 3) (w.extractLsb' 0 3)
  | 30 => decode1E (w.extractLsb' 23 3) (w.extractLsb' 17 6) (w.extractLsb' 12 5) (w.extractLsb' 6 6) (w.extractLsb' 3 3) (w.extractLsb' 0 3)
  | 31 => decode1F (w.extractLsb' 23 3) (w.extractLsb' 17 6) (w.extractLsb' 12 5) (w.extractLsb' 6 6) (w.extractLsb' 3 3) (w.extractLsb' 0 3)
  | 32 => decode20 (w.extractLsb' 20 6) (w.extractLsb' 14 6) (w.extractLsb' 8 6) (w.extractLsb' 0 8)
  | 33 => decode21 (w.extractLsb' 23 3) (w.extractLsb' 22 1) (w.extractLsb' 18 4) (w.extractLsb' 12 6) (w.extractLsb' 6 6) (w.extractLsb' 0 6)
  | 34 => decode22 (w.extractLsb' 23 3) (w.extractLsb' 22 1) (w.extractLsb' 18 4) (w.extractLsb' 12 6) (w.extractLsb' 6 6) (w.extractLsb' 0 6)
  | 35 => decode23 (w.extractLsb' 23 3) (w.extractLsb' 22 1) (w.extractLsb' 18 4) (w.extractLsb' 12 6) (w.extractLsb' 6 6) (w.extractLsb' 0 6)
  | 36 => decode24 (w.extractLsb' 23 3) (w.extractLsb' 22 1) (w.extractLsb' 18 4) (w.extractLsb' 12 6) (w.extractLsb' 6 6) (w.extractLsb' 0 6)
  | 37 => decode25 (w.extractLsb' 23 3) (w.extractLsb' 22 1) (w.extractLsb' 18 4) (w.extractLsb' 12 6) (w.extractLsb' 6 6) (w.extractLsb' 0 6)
  | 38 => decode26 (w.extractLsb' 23 3) (w.extractLsb' 22 1) (w.extractLsb' 18 4) (w.extractLsb' 12 6) (w.extractLsb' 6 6) (w.extractLsb' 0 6)
  | 39 => decode27 (w.extractLsb' 23 3) (w.extractLsb' 22 1) (w.extractLsb' 18 4) (w.extractLsb' 12 6) (w.extractLsb' 6 6) (w.extractLsb' 0 6)
  | 40 => decode28 (w.extractLsb' 23 3) (w.extractLsb' 22 1) (w.extractLsb' 18 4) (w.extractLsb' 12 6) (w.extractLsb' 6 6) (w.extractLsb' 0 6)
  | 41 => decode29 (w.extractLsb' 23 3) (w.extractLsb' 22 1) (w.extractLsb' 18 4) (w.extractLsb' 12 6) (w.extractLsb' 6 6) (w.extractLsb' 0 6)
  | 42 => decode2A (w.extractLsb' 23 3) (w.extractLsb' 22 1) (w.extractLsb' 18 4) (w.extractLsb' 12 6) (w.extractLsb' 6 6) (w.extractLsb' 0 6)
  | 43 => decode2B (w.extractLsb' 20 6) (w.extractLsb' 14 6) (w.extractLsb' 8 6) (w.extractLsb' 0 8)
  | 44 => decode2C (w.extractLsb' 20 6) (w.extractLsb' 14 6) (w.extractLsb' 8 6) (w.extractLsb' 0 8)
  | 45 => decode2D (w.extractLsb' 20 6) (w.extractLsb' 14 6) (w.extractLsb' 8 6) (w.extractLsb' 0 8)
  | 46 => decode2E (w.extractLsb' 20 6) (w.extractLsb' 14 6) (w.extractLsb' 8 6) (w.extractLsb' 0 8)
  | 47 => decode2F (w.extractLsb' 20 6) (w.extractLsb' 14 6) (w.extractLsb' 8 6) (w.extractLsb' 0 8)
  | 48 => decode30 (w.extractLsb' 20 6) (w.extractLsb' 14 6) (w.extractLsb' 8 6) (w.extractLsb' 0 8)
  | 49 => decode31 (w.extractLsb' 20 6) (w.extractLsb' 14 6) (w.extractLsb' 8 6) (w.extractLsb' 0 8)
  | 52 => decode34 (w.extractLsb' 23 3) (w.extractLsb' 19 4) (w.extractLsb' 13 6) (w.extractLsb' 7 6) (w.extractLsb' 1 6) (w.extractLsb' 0 1)
  | 53 => decode35 (w.extractLsb' 23 3) (w.extractLsb' 19 4) (w.extractLsb' 13 6) (w.extractLsb' 7 6) (w.extractLsb' 1 6) (w.extractLsb' 0 1)
  | 54 => decode36 (w.extractLsb' 23 3) (w.extractLsb' 19 4) (w.extractLsb' 13 6) (w.extractLsb' 7 6) (w.extractLsb' 1 6) (w.extractLsb' 0 1)
  | 55 => decode37 (w.extractLsb' 23 3) (w.extractLsb' 19 4) (w.extractLsb' 13 6) (w.extractLsb' 7 6) (w.extractLsb' 1 6) (w.extractLsb' 0 1)
  | 56 => decode38 (w.extractLsb' 20 6) (w.extractLsb' 14 6) (w.extractLsb' 8 6) (w.extractLsb' 0 8)
  | 57 => decode39 (w.extractLsb' 20 6) (w.extractLsb' 14 6) (w.extractLsb' 8 6) (w.extractLsb' 0 8)
  | 62 => decode3E (w.extractLsb' 22 4) (w.extractLsb' 0 22)
  | _ => .error .reservedMajor

/-- The instruction a word stands for, or the reason why it stands for none. -/
noncomputable def decode (w : BitVec 32) : Except DecodeError Instr :=
  match decodeRaw w with
  | .ok i => if i.wellFormed then .ok i else .error .illFormed
  | .error e => .error e

/-- A word from its four bytes, the lowest address first (R2, R48). -/
def wordOfBytes (b0 b1 b2 b3 : BitVec 8) : BitVec 32 := b3 ++ b2 ++ b1 ++ b0

/-- The four bytes of a word, the lowest address first (R2, R48). -/
def bytesOfWord (w : BitVec 32) : List (BitVec 8) :=
  [w.extractLsb' 0 8, w.extractLsb' 8 8, w.extractLsb' 16 8, w.extractLsb' 24 8]

/-- The decoder on any bytes: the instruction and the bytes after it. -/
noncomputable def decodeBytes : List (BitVec 8) → Except DecodeError (Instr × List (BitVec 8))
  | b0 :: b1 :: b2 :: b3 :: rest =>
    match decode (wordOfBytes b0 b1 b2 b3) with
    | .ok i => .ok (i, rest)
    | .error e => .error e
  | _ => .error .illFormed

/-- Format A: the fields of a word, most significant first. -/
def packA (op : BitVec 6) (g : BitVec 3) (k : BitVec 1) (fn : BitVec 4) (d : BitVec 6) (a : BitVec 6) (b : BitVec 6) : BitVec 32 :=
  op ++ g ++ k ++ fn ++ d ++ a ++ b

/-- Format I: the fields of a word, most significant first. -/
def packI (op : BitVec 6) (g : BitVec 3) (d : BitVec 6) (a : BitVec 6) (imm : BitVec 11) : BitVec 32 :=
  op ++ g ++ d ++ a ++ imm

/-- Format W: the fields of a word, most significant first. -/
def packW (op : BitVec 6) (g : BitVec 3) (d : BitVec 6) (vs : BitVec 1) (imm : BitVec 16) : BitVec 32 :=
  op ++ g ++ d ++ vs ++ imm

/-- Format M: the fields of a word, most significant first. -/
def packM (op : BitVec 6) (g : BitVec 3) (t : BitVec 6) (sb : BitVec 5) (x : BitVec 6) (f : BitVec 3) (w : BitVec 3) : BitVec 32 :=
  op ++ g ++ t ++ sb ++ x ++ f ++ w

/-- Format B: the fields of a word, most significant first. -/
def packB (op : BitVec 6) (p : BitVec 3) (n : BitVec 1) (off : BitVec 22) : BitVec 32 :=
  op ++ p ++ n ++ off

/-- Format S: the fields of a word, most significant first. -/
def packS (op : BitVec 6) (fn : BitVec 6) (d : BitVec 6) (a : BitVec 6) (imm : BitVec 8) : BitVec 32 :=
  op ++ fn ++ d ++ a ++ imm

/-- Format C: the fields of a word, most significant first. -/
def packC (op : BitVec 6) (g : BitVec 3) (fn : BitVec 4) (d : BitVec 6) (a : BitVec 6) (b : BitVec 6) (e : BitVec 1) : BitVec 32 :=
  op ++ g ++ fn ++ d ++ a ++ b ++ e

/-- Format H: the fields of a word, most significant first. -/
def packH (op : BitVec 6) (fn : BitVec 4) (pay : BitVec 22) : BitVec 32 :=
  op ++ fn ++ pay

/-- The word of an instruction; `none` for the rows of the table that have no word. -/
def encode : Instr → Option (BitVec 32)
  | .br p n o => some (packB 1#6 p n o)
  | .call p n o => some (packB 2#6 p n o)
  | .jmpi g a => some (packA 3#6 g 0#1 0#4 0#6 a 0#6)
  | .calli g a => some (packA 3#6 g 0#1 1#4 0#6 a 0#6)
  | .calliSave f => some (packA 3#6 f.g 0#1 1#4 f.d f.a 1#6)
  | .ret_ g => some (packA 3#6 g 0#1 2#4 0#6 0#6 0#6)
  | .regang => some (packA 4#6 7#3 0#1 0#4 0#6 0#6 0#6)
  | .pfoldEvery f => some (packA 4#6 f.g 0#1 1#4 (0#3 ++ f.p) (0#3 ++ f.a) 0#6)
  | .pfoldSome f => some (packA 4#6 f.g 0#1 1#4 (0#3 ++ f.p) (0#3 ++ f.a) 1#6)
  | .pfoldOdd f => some (packA 4#6 f.g 0#1 1#4 (0#3 ++ f.p) (0#3 ++ f.a) 2#6)
  | .pfoldAgree f => some (packA 4#6 f.g 0#1 1#4 (0#3 ++ f.p) (0#3 ++ f.a) 3#6)
  | .pmask f => some (packA 4#6 f.g 0#1 2#4 f.d (0#3 ++ f.a) 0#6)
  | .pmaskBelow f => some (packA 4#6 f.g 0#1 2#4 f.d (0#3 ++ f.a) 1#6)
  | .prank f => some (packA 4#6 f.g 0#1 3#4 f.d (0#3 ++ f.a) 0#6)
  | .prankTotal f => some (packA 4#6 f.g 0#1 3#4 f.d (0#3 ++ f.a) 1#6)
  | .lfetchAt f => some (packA 5#6 f.g f.k 0#4 f.d f.a f.b)
  | .lfetchOff f => some (packA 5#6 f.g f.k 1#4 f.d f.a f.b)
  | .lfetchFlip f => some (packA 5#6 f.g f.k 2#4 f.d f.a f.b)
  | .lfetchHead f => some (packA 5#6 f.g f.k 3#4 f.d f.a f.b)
  | .gredAddS32 f => some (packA 6#6 f.g 0#1 0#4 f.d f.a 0#6)
  | .gredMinS32 f => some (packA 6#6 f.g 0#1 1#4 f.d f.a 0#6)
  | .gredMaxS32 f => some (packA 6#6 f.g 0#1 2#4 f.d f.a 0#6)
  | .gredMinN32 f => some (packA 6#6 f.g 0#1 3#4 f.d f.a 0#6)
  | .gredMaxN32 f => some (packA 6#6 f.g 0#1 4#4 f.d f.a 0#6)
  | .gredAnd f => some (packA 6#6 f.g 0#1 5#4 f.d f.a 0#6)
  | .gredOr f => some (packA 6#6 f.g 0#1 6#4 f.d f.a 0#6)
  | .gredXor f => some (packA 6#6 f.g 0#1 7#4 f.d f.a 0#6)
  | .gredAddF32 f => some (packA 6#6 f.g 0#1 8#4 f.d f.a 0#6)
  | .gredMinF32 f => some (packA 6#6 f.g 0#1 9#4 f.d f.a 0#6)
  | .gredMaxF32 f => some (packA 6#6 f.g 0#1 10#4 f.d f.a 0#6)
  | .gredAddF64 f => some (packA 6#6 f.g 0#1 11#4 f.d f.a 0#6)
  | .gredMinF64 f => some (packA 6#6 f.g 0#1 12#4 f.d f.a 0#6)
  | .gredMaxF64 f => some (packA 6#6 f.g 0#1 13#4 f.d f.a 0#6)
  | .gscanAddS32 f => some (packA 7#6 f.g 0#1 0#4 f.d f.a 0#6)
  | .gscanMinS32 f => some (packA 7#6 f.g 0#1 1#4 f.d f.a 0#6)
  | .gscanMaxS32 f => some (packA 7#6 f.g 0#1 2#4 f.d f.a 0#6)
  | .gscanMinN32 f => some (packA 7#6 f.g 0#1 3#4 f.d f.a 0#6)
  | .gscanMaxN32 f => some (packA 7#6 f.g 0#1 4#4 f.d f.a 0#6)
  | .gscanAnd f => some (packA 7#6 f.g 0#1 5#4 f.d f.a 0#6)
  | .gscanOr f => some (packA 7#6 f.g 0#1 6#4 f.d f.a 0#6)
  | .gscanXor f => some (packA 7#6 f.g 0#1 7#4 f.d f.a 0#6)
  | .gscanAddF32 f => some (packA 7#6 f.g 0#1 8#4 f.d f.a 0#6)
  | .gscanMinF32 f => some (packA 7#6 f.g 0#1 9#4 f.d f.a 0#6)
  | .gscanMaxF32 f => some (packA 7#6 f.g 0#1 10#4 f.d f.a 0#6)
  | .gscanAddF64 f => some (packA 7#6 f.g 0#1 11#4 f.d f.a 0#6)
  | .gscanMinF64 f => some (packA 7#6 f.g 0#1 12#4 f.d f.a 0#6)
  | .gscanMaxF64 f => some (packA 7#6 f.g 0#1 13#4 f.d f.a 0#6)
  | .add f => some (packA 8#6 f.g f.k 0#4 f.d f.a f.b)
  | .sub f => some (packA 8#6 f.g f.k 1#4 f.d f.a f.b)
  | .mul f => some (packA 8#6 f.g f.k 2#4 f.d f.a f.b)
  | .mulhiS32 f => some (packA 8#6 f.g f.k 3#4 f.d f.a f.b)
  | .mulhiN32 f => some (packA 8#6 f.g f.k 4#4 f.d f.a f.b)
  | .mad f => some (packA 8#6 f.g f.k 5#4 f.d f.a f.b)
  | .divS32 f => some (packA 8#6 f.g f.k 6#4 f.d f.a f.b)
  | .divN32 f => some (packA 8#6 f.g f.k 7#4 f.d f.a f.b)
  | .remS32 f => some (packA 8#6 f.g f.k 8#4 f.d f.a f.b)
  | .remN32 f => some (packA 8#6 f.g f.k 9#4 f.d f.a f.b)
  | .minS32 f => some (packA 8#6 f.g f.k 10#4 f.d f.a f.b)
  | .maxS32 f => some (packA 8#6 f.g f.k 11#4 f.d f.a f.b)
  | .minN32 f => some (packA 8#6 f.g f.k 12#4 f.d f.a f.b)
  | .maxN32 f => some (packA 8#6 f.g f.k 13#4 f.d f.a f.b)
  | .absS32 f => some (packA 8#6 f.g f.k 14#4 f.d 0#6 f.b)
  | .addsS32 f => some (packA 8#6 f.g f.k 15#4 f.d f.a f.b)
  | .addS64 f => some (packA 9#6 f.g f.k 0#4 f.d f.a f.b)
  | .subS64 f => some (packA 9#6 f.g f.k 1#4 f.d f.a f.b)
  | .mulS64 f => some (packA 9#6 f.g f.k 2#4 f.d f.a f.b)
  | .mulhiS64 f => some (packA 9#6 f.g f.k 3#4 f.d f.a f.b)
  | .mulhiN64 f => some (packA 9#6 f.g f.k 4#4 f.d f.a f.b)
  | .madS64 f => some (packA 9#6 f.g f.k 5#4 f.d f.a f.b)
  | .minS64 f => some (packA 9#6 f.g f.k 6#4 f.d f.a f.b)
  | .maxS64 f => some (packA 9#6 f.g f.k 7#4 f.d f.a f.b)
  | .minN64 f => some (packA 9#6 f.g f.k 8#4 f.d f.a f.b)
  | .maxN64 f => some (packA 9#6 f.g f.k 9#4 f.d f.a f.b)
  | .shl64 f => some (packA 9#6 f.g f.k 10#4 f.d f.a f.b)
  | .shrN64 f => some (packA 9#6 f.g f.k 11#4 f.d f.a f.b)
  | .shrS64 f => some (packA 9#6 f.g f.k 12#4 f.d f.a f.b)
  | .lea f => some (packA 9#6 f.g f.k 13#4 f.d f.a f.b)
  | .and_ f => some (packA 10#6 f.g f.k 0#4 f.d f.a f.b)
  | .or_ f => some (packA 10#6 f.g f.k 1#4 f.d f.a f.b)
  | .xor_ f => some (packA 10#6 f.g f.k 2#4 f.d f.a f.b)
  | .andn f => some (packA 10#6 f.g f.k 3#4 f.d f.a f.b)
  | .shl f => some (packA 10#6 f.g f.k 4#4 f.d f.a f.b)
  | .shrN32 f => some (packA 10#6 f.g f.k 5#4 f.d f.a f.b)
  | .shrS32 f => some (packA 10#6 f.g f.k 6#4 f.d f.a f.b)
  | .rotl f => some (packA 10#6 f.g f.k 7#4 f.d f.a f.b)
  | .popc f => some (packA 10#6 f.g f.k 8#4 f.d 0#6 f.b)
  | .clz f => some (packA 10#6 f.g f.k 9#4 f.d 0#6 f.b)
  | .ctz f => some (packA 10#6 f.g f.k 10#4 f.d 0#6 f.b)
  | .brev f => some (packA 10#6 f.g f.k 11#4 f.d 0#6 f.b)
  | .bext f => some (packA 10#6 f.g f.k 12#4 f.d f.a f.b)
  | .bins f => some (packA 10#6 f.g f.k 13#4 f.d f.a f.b)
  | .mov f => some (packA 10#6 f.g f.k 14#4 f.d 0#6 f.b)
  | .eq f => some (packA 11#6 f.g f.k 0#4 (0#3 ++ f.p) f.a f.b)
  | .ne f => some (packA 11#6 f.g f.k 1#4 (0#3 ++ f.p) f.a f.b)
  | .ltS32 f => some (packA 11#6 f.g f.k 2#4 (0#3 ++ f.p) f.a f.b)
  | .leS32 f => some (packA 11#6 f.g f.k 3#4 (0#3 ++ f.p) f.a f.b)
  | .ltN32 f => some (packA 11#6 f.g f.k 4#4 (0#3 ++ f.p) f.a f.b)
  | .leN32 f => some (packA 11#6 f.g f.k 5#4 (0#3 ++ f.p) f.a f.b)
  | .gtS32 f => some (packA 11#6 f.g f.k 6#4 (0#3 ++ f.p) f.a f.b)
  | .geS32 f => some (packA 11#6 f.g f.k 7#4 (0#3 ++ f.p) f.a f.b)
  | .gtN32 f => some (packA 11#6 f.g f.k 8#4 (0#3 ++ f.p) f.a f.b)
  | .geN32 f => some (packA 11#6 f.g f.k 9#4 (0#3 ++ f.p) f.a f.b)
  | .ltS64 f => some (packA 11#6 f.g f.k 10#4 (0#3 ++ f.p) f.a f.b)
  | .ltN64 f => some (packA 11#6 f.g f.k 11#4 (0#3 ++ f.p) f.a f.b)
  | .eq64 f => some (packA 11#6 f.g f.k 12#4 (0#3 ++ f.p) f.a f.b)
  | .pand f => some (packA 12#6 f.g f.k 0#4 (0#3 ++ f.p) (0#3 ++ f.a) (0#3 ++ f.b))
  | .por f => some (packA 12#6 f.g f.k 1#4 (0#3 ++ f.p) (0#3 ++ f.a) (0#3 ++ f.b))
  | .pxor f => some (packA 12#6 f.g f.k 2#4 (0#3 ++ f.p) (0#3 ++ f.a) (0#3 ++ f.b))
  | .pandn f => some (packA 12#6 f.g f.k 3#4 (0#3 ++ f.p) (0#3 ++ f.a) (0#3 ++ f.b))
  | .pmov g k d b => some (packA 12#6 g k 4#4 (0#3 ++ d) 0#6 (0#3 ++ b))
  | .pread g k d b => some (packA 12#6 g k 5#4 d 0#6 (0#3 ++ b))
  | .addi g d a i => some (packI 13#6 g d a i)
  | .movi g d v i => some (packW 14#6 g d v i)
  | .movhi g d v i => some (packW 15#6 g d v i)
  | .addF32 f => some (packA 16#6 f.g f.k 0#4 f.d f.a f.b)
  | .subF32 f => some (packA 16#6 f.g f.k 1#4 f.d f.a f.b)
  | .mulF32 f => some (packA 16#6 f.g f.k 2#4 f.d f.a f.b)
  | .fmaF32 f => some (packA 16#6 f.g f.k 3#4 f.d f.a f.b)
  | .fnmaF32 f => some (packA 16#6 f.g f.k 4#4 f.d f.a f.b)
  | .minF32 f => some (packA 16#6 f.g f.k 5#4 f.d f.a f.b)
  | .maxF32 f => some (packA 16#6 f.g f.k 6#4 f.d f.a f.b)
  | .absF32 f => some (packA 16#6 f.g f.k 7#4 f.d 0#6 f.b)
  | .negF32 f => some (packA 16#6 f.g f.k 8#4 f.d 0#6 f.b)
  | .rcpF32 f => some (packA 16#6 f.g f.k 9#4 f.d 0#6 f.b)
  | .rsqrtF32 f => some (packA 16#6 f.g f.k 10#4 f.d 0#6 f.b)
  | .sqrtF32 f => some (packA 16#6 f.g f.k 11#4 f.d 0#6 f.b)
  | .exp2F32 f => some (packA 16#6 f.g f.k 12#4 f.d 0#6 f.b)
  | .log2F32 f => some (packA 16#6 f.g f.k 13#4 f.d 0#6 f.b)
  | .copysignF32 f => some (packA 16#6 f.g f.k 14#4 f.d f.a f.b)
  | .addF64 f => some (packA 17#6 f.g f.k 0#4 f.d f.a f.b)
  | .subF64 f => some (packA 17#6 f.g f.k 1#4 f.d f.a f.b)
  | .mulF64 f => some (packA 17#6 f.g f.k 2#4 f.d f.a f.b)
  | .fmaF64 f => some (packA 17#6 f.g f.k 3#4 f.d f.a f.b)
  | .fnmaF64 f => some (packA 17#6 f.g f.k 4#4 f.d f.a f.b)
  | .minF64 f => some (packA 17#6 f.g f.k 5#4 f.d f.a f.b)
  | .maxF64 f => some (packA 17#6 f.g f.k 6#4 f.d f.a f.b)
  | .absF64 f => some (packA 17#6 f.g f.k 7#4 f.d 0#6 f.b)
  | .negF64 f => some (packA 17#6 f.g f.k 8#4 f.d 0#6 f.b)
  | .rcpF64 f => some (packA 17#6 f.g f.k 9#4 f.d 0#6 f.b)
  | .rsqrtF64 f => some (packA 17#6 f.g f.k 10#4 f.d 0#6 f.b)
  | .sqrtF64 f => some (packA 17#6 f.g f.k 11#4 f.d 0#6 f.b)
  | .copysignF64 f => some (packA 17#6 f.g f.k 14#4 f.d f.a f.b)
  | .addH16 f => some (packA 18#6 f.g f.k 0#4 f.d f.a f.b)
  | .mulH16 f => some (packA 18#6 f.g f.k 1#4 f.d f.a f.b)
  | .fmaH16 f => some (packA 18#6 f.g f.k 2#4 f.d f.a f.b)
  | .minH16 f => some (packA 18#6 f.g f.k 3#4 f.d f.a f.b)
  | .maxH16 f => some (packA 18#6 f.g f.k 4#4 f.d f.a f.b)
  | .addBf16 f => some (packA 18#6 f.g f.k 8#4 f.d f.a f.b)
  | .mulBf16 f => some (packA 18#6 f.g f.k 9#4 f.d f.a f.b)
  | .fmaBf16 f => some (packA 18#6 f.g f.k 10#4 f.d f.a f.b)
  | .minBf16 f => some (packA 18#6 f.g f.k 11#4 f.d f.a f.b)
  | .maxBf16 f => some (packA 18#6 f.g f.k 12#4 f.d f.a f.b)
  | .addH16x2 f => some (packA 19#6 f.g f.k 0#4 f.d f.a f.b)
  | .mulH16x2 f => some (packA 19#6 f.g f.k 1#4 f.d f.a f.b)
  | .fmaH16x2 f => some (packA 19#6 f.g f.k 2#4 f.d f.a f.b)
  | .minH16x2 f => some (packA 19#6 f.g f.k 3#4 f.d f.a f.b)
  | .maxH16x2 f => some (packA 19#6 f.g f.k 4#4 f.d f.a f.b)
  | .addBf16x2 f => some (packA 19#6 f.g f.k 8#4 f.d f.a f.b)
  | .mulBf16x2 f => some (packA 19#6 f.g f.k 9#4 f.d f.a f.b)
  | .fmaBf16x2 f => some (packA 19#6 f.g f.k 10#4 f.d f.a f.b)
  | .minBf16x2 f => some (packA 19#6 f.g f.k 11#4 f.d f.a f.b)
  | .maxBf16x2 f => some (packA 19#6 f.g f.k 12#4 f.d f.a f.b)
  | .feqF32 f => some (packA 20#6 f.g f.k 0#4 (0#3 ++ f.p) f.a f.b)
  | .fltF32 f => some (packA 20#6 f.g f.k 1#4 (0#3 ++ f.p) f.a f.b)
  | .fleF32 f => some (packA 20#6 f.g f.k 2#4 (0#3 ++ f.p) f.a f.b)
  | .funordF32 f => some (packA 20#6 f.g f.k 3#4 (0#3 ++ f.p) f.a f.b)
  | .feqF64 f => some (packA 20#6 f.g f.k 4#4 (0#3 ++ f.p) f.a f.b)
  | .fltF64 f => some (packA 20#6 f.g f.k 5#4 (0#3 ++ f.p) f.a f.b)
  | .fleF64 f => some (packA 20#6 f.g f.k 6#4 (0#3 ++ f.p) f.a f.b)
  | .funordF64 f => some (packA 20#6 f.g f.k 7#4 (0#3 ++ f.p) f.a f.b)
  | .cvt g c d a u => some (packA 21#6 g 0#1 c d a (0#2 ++ u))
  | .tfence => some (packS 22#6 0#6 0#6 0#6 0#8)
  | .mmul g k n d a b => some (packA 24#6 g k (0#2 ++ n) d a b)
  | .madd g k n d a b => some (packA 24#6 g k (1#2 ++ n) d a b)
  | .msub g k n d a b => some (packA 24#6 g k (2#2 ++ n) d a b)
  | .mmac g k n d a b => some (packA 24#6 g k (3#2 ++ n) d a b)
  | .mred g n d a => some (packA 25#6 g 0#1 (0#2 ++ n) d a 0#6)
  | .mred128 g n d a => some (packA 25#6 g 0#1 (1#2 ++ n) d a 0#6)
  | .mneg g n d a => some (packA 25#6 g 0#1 (2#2 ++ n) d a 0#6)
  | .bfly g n d a s => some (packA 26#6 g 0#1 (0#2 ++ n) d a (0#3 ++ s))
  | .ibfly g n d a s => some (packA 26#6 g 0#1 (1#2 ++ n) d a (0#3 ++ s))
  | .perm g d a b => some (packA 27#6 g 1#1 0#4 d a b)
  | .lrot g d a b => some (packA 27#6 g 1#1 1#4 d a b)
  | .setm g n a => some (packA 27#6 g 0#1 2#4 (0#4 ++ n) a 0#6)
  | .getm g n a => some (packA 27#6 g 0#1 3#4 (0#4 ++ n) a 0#6)
  | .getk g n a => some (packA 27#6 g 0#1 4#4 (0#4 ++ n) a 0#6)
  | .ld f => some (packM 28#6 f.g f.t f.sb f.x f.f f.w)
  | .st f => some (packM 29#6 f.g f.t f.sb f.x f.f f.w)
  | .lde f => some (packM 30#6 f.g f.t f.sb f.x f.f f.w)
  | .ste f => some (packM 31#6 f.g f.t f.sb f.x f.f f.w)
  | .preq d a p r q => some (packS 32#6 0#6 d a (0#3 ++ p ++ r ++ q))
  | .lclean a i => some (packS 32#6 1#6 0#6 a i)
  | .pf d a w => some (packS 32#6 2#6 d a (0#7 ++ w))
  | .lflush a i => some (packS 32#6 3#6 0#6 a i)
  | .linv a i => some (packS 32#6 4#6 0#6 a i)
  | .lds d a f w => some (packS 32#6 5#6 d a (0#3 ++ f ++ w))
  | .cst d a p w => some (packS 32#6 6#6 d a (0#3 ++ p ++ w))
  | .exld d a f p w => some (packS 32#6 7#6 d a (f ++ p ++ w))
  | .talloc d a b => some (packA 33#6 7#3 1#1 0#4 d a b)
  | .tfree a => some (packA 33#6 7#3 0#1 1#4 0#6 a 0#6)
  | .tfill d a b => some (packA 33#6 7#3 1#1 2#4 d a b)
  | .tflush d a => some (packA 33#6 7#3 0#1 3#4 d a 0#6)
  | .tquery f => some (packA 33#6 f.g 0#1 4#4 f.d f.a 0#6)
  | .tld g k w d a b => some (packA 34#6 g k (0#2 ++ w) d a b)
  | .tst g k w d a b => some (packA 34#6 g k (1#2 ++ w) d a b)
  | .tlde f => some (packA 34#6 f.g f.k 8#4 f.d f.a f.b)
  | .tste f => some (packA 34#6 f.g f.k 9#4 f.d f.a f.b)
  | .tldg f => some (packA 35#6 f.g f.k 0#4 f.d f.a f.b)
  | .tstg f => some (packA 35#6 f.g f.k 1#4 f.d f.a f.b)
  | .macq a => some (packA 35#6 7#3 0#1 2#4 0#6 a 0#6)
  | .mrel a => some (packA 35#6 7#3 0#1 3#4 0#6 a 0#6)
  | .atomAdd f => some (packA 36#6 f.g f.k 0#4 f.d f.a f.b)
  | .atomAnd f => some (packA 36#6 f.g f.k 1#4 f.d f.a f.b)
  | .atomOr f => some (packA 36#6 f.g f.k 2#4 f.d f.a f.b)
  | .atomXor f => some (packA 36#6 f.g f.k 3#4 f.d f.a f.b)
  | .atomMinS32 f => some (packA 36#6 f.g f.k 4#4 f.d f.a f.b)
  | .atomMaxS32 f => some (packA 36#6 f.g f.k 5#4 f.d f.a f.b)
  | .atomMinN32 f => some (packA 36#6 f.g f.k 6#4 f.d f.a f.b)
  | .atomMaxN32 f => some (packA 36#6 f.g f.k 7#4 f.d f.a f.b)
  | .atomXchg f => some (packA 36#6 f.g f.k 8#4 f.d f.a f.b)
  | .atomCas f => some (packA 36#6 f.g f.k 9#4 f.d f.a f.b)
  | .redAdd f => some (packA 37#6 f.g f.k 0#4 0#6 f.a f.b)
  | .redAnd f => some (packA 37#6 f.g f.k 1#4 0#6 f.a f.b)
  | .redOr f => some (packA 37#6 f.g f.k 2#4 0#6 f.a f.b)
  | .redXor f => some (packA 37#6 f.g f.k 3#4 0#6 f.a f.b)
  | .redMinS32 f => some (packA 37#6 f.g f.k 4#4 0#6 f.a f.b)
  | .redMaxS32 f => some (packA 37#6 f.g f.k 5#4 0#6 f.a f.b)
  | .redMinN32 f => some (packA 37#6 f.g f.k 6#4 0#6 f.a f.b)
  | .redMaxN32 f => some (packA 37#6 f.g f.k 7#4 0#6 f.a f.b)
  | .atomAddN64 f => some (packA 38#6 f.g f.k 0#4 f.d f.a f.b)
  | .atomAndN64 f => some (packA 38#6 f.g f.k 1#4 f.d f.a f.b)
  | .atomOrN64 f => some (packA 38#6 f.g f.k 2#4 f.d f.a f.b)
  | .atomXorN64 f => some (packA 38#6 f.g f.k 3#4 f.d f.a f.b)
  | .atomMinS64 f => some (packA 38#6 f.g f.k 4#4 f.d f.a f.b)
  | .atomMaxS64 f => some (packA 38#6 f.g f.k 5#4 f.d f.a f.b)
  | .atomMinN64 f => some (packA 38#6 f.g f.k 6#4 f.d f.a f.b)
  | .atomMaxN64 f => some (packA 38#6 f.g f.k 7#4 f.d f.a f.b)
  | .atomXchgN64 f => some (packA 38#6 f.g f.k 8#4 f.d f.a f.b)
  | .atomCasN64 f => some (packA 38#6 f.g f.k 9#4 f.d f.a f.b)
  | .redAddN64 f => some (packA 39#6 f.g f.k 0#4 0#6 f.a f.b)
  | .redAndN64 f => some (packA 39#6 f.g f.k 1#4 0#6 f.a f.b)
  | .redOrN64 f => some (packA 39#6 f.g f.k 2#4 0#6 f.a f.b)
  | .redXorN64 f => some (packA 39#6 f.g f.k 3#4 0#6 f.a f.b)
  | .redMinS64 f => some (packA 39#6 f.g f.k 4#4 0#6 f.a f.b)
  | .redMaxS64 f => some (packA 39#6 f.g f.k 5#4 0#6 f.a f.b)
  | .redMinN64 f => some (packA 39#6 f.g f.k 6#4 0#6 f.a f.b)
  | .redMaxN64 f => some (packA 39#6 f.g f.k 7#4 0#6 f.a f.b)
  | .atomAddF32 f => some (packA 40#6 f.g f.k 0#4 f.d f.a f.b)
  | .atomMinF32 f => some (packA 40#6 f.g f.k 1#4 f.d f.a f.b)
  | .atomMaxF32 f => some (packA 40#6 f.g f.k 2#4 f.d f.a f.b)
  | .atomAddF64 f => some (packA 40#6 f.g f.k 3#4 f.d f.a f.b)
  | .atomMinF64 f => some (packA 40#6 f.g f.k 4#4 f.d f.a f.b)
  | .atomMaxF64 f => some (packA 40#6 f.g f.k 5#4 f.d f.a f.b)
  | .atomAddBf16x2 f => some (packA 40#6 f.g f.k 6#4 f.d f.a f.b)
  | .atomMinBf16x2 f => some (packA 40#6 f.g f.k 7#4 f.d f.a f.b)
  | .atomMaxBf16x2 f => some (packA 40#6 f.g f.k 8#4 f.d f.a f.b)
  | .atomAddH16x2 f => some (packA 40#6 f.g f.k 9#4 f.d f.a f.b)
  | .atomMinH16x2 f => some (packA 40#6 f.g f.k 10#4 f.d f.a f.b)
  | .atomMaxH16x2 f => some (packA 40#6 f.g f.k 11#4 f.d f.a f.b)
  | .atomAddBf16 f => some (packA 40#6 f.g f.k 12#4 f.d f.a f.b)
  | .atomMinBf16 f => some (packA 40#6 f.g f.k 13#4 f.d f.a f.b)
  | .atomMaxBf16 f => some (packA 40#6 f.g f.k 14#4 f.d f.a f.b)
  | .redAddF32 f => some (packA 41#6 f.g f.k 0#4 0#6 f.a f.b)
  | .redMinF32 f => some (packA 41#6 f.g f.k 1#4 0#6 f.a f.b)
  | .redMaxF32 f => some (packA 41#6 f.g f.k 2#4 0#6 f.a f.b)
  | .redAddF64 f => some (packA 41#6 f.g f.k 3#4 0#6 f.a f.b)
  | .redMinF64 f => some (packA 41#6 f.g f.k 4#4 0#6 f.a f.b)
  | .redMaxF64 f => some (packA 41#6 f.g f.k 5#4 0#6 f.a f.b)
  | .redAddBf16x2 f => some (packA 41#6 f.g f.k 6#4 0#6 f.a f.b)
  | .redMinBf16x2 f => some (packA 41#6 f.g f.k 7#4 0#6 f.a f.b)
  | .redMaxBf16x2 f => some (packA 41#6 f.g f.k 8#4 0#6 f.a f.b)
  | .redAddH16x2 f => some (packA 41#6 f.g f.k 9#4 0#6 f.a f.b)
  | .redMinH16x2 f => some (packA 41#6 f.g f.k 10#4 0#6 f.a f.b)
  | .redMaxH16x2 f => some (packA 41#6 f.g f.k 11#4 0#6 f.a f.b)
  | .redAddBf16 f => some (packA 41#6 f.g f.k 12#4 0#6 f.a f.b)
  | .redMinBf16 f => some (packA 41#6 f.g f.k 13#4 0#6 f.a f.b)
  | .redMaxBf16 f => some (packA 41#6 f.g f.k 14#4 0#6 f.a f.b)
  | .cas128 g d a b => some (packA 42#6 g 0#1 0#4 d a b)
  | .lres32 f => some (packA 42#6 f.g 0#1 1#4 f.d f.a 0#6)
  | .lres64 f => some (packA 42#6 f.g 0#1 2#4 f.d f.a 0#6)
  | .scond32 f => some (packA 42#6 f.g f.k 3#4 f.d f.a f.b)
  | .scond64 f => some (packA 42#6 f.g f.k 4#4 f.d f.a f.b)
  | .mon g a => some (packA 42#6 g 0#1 5#4 0#6 a 0#6)
  | .fence s => some (packS 43#6 0#6 0#6 0#6 (0#5 ++ s))
  | .fenceAcq s => some (packS 43#6 0#6 0#6 0#6 (1#5 ++ s))
  | .fenceRel s => some (packS 43#6 0#6 0#6 0#6 (2#5 ++ s))
  | .bar n => some (packS 43#6 1#6 0#6 0#6 (0#4 ++ n))
  | .gbar a => some (packS 43#6 2#6 0#6 a 0#8)
  | .mwait => some (packS 43#6 3#6 0#6 0#6 0#8)
  | .launch a => some (packS 44#6 0#6 0#6 a 0#8)
  | .spawn f => some (packS 44#6 1#6 f.d f.a 0#8)
  | .jcnt d a i => some (packS 44#6 2#6 d a i)
  | .exit_ => some (packS 44#6 3#6 0#6 0#6 0#8)
  | .yield => some (packS 44#6 4#6 0#6 0#6 0#8)
  | .gquery f => some (packS 44#6 5#6 f.d f.a 0#8)
  | .qpush f => some (packS 45#6 0#6 f.d f.a 0#8)
  | .qtail f => some (packS 45#6 1#6 f.d f.a 0#8)
  | .seqwait f => some (packS 45#6 2#6 f.d f.a 0#8)
  | .dsub f => some (packS 46#6 0#6 f.d f.a 0#8)
  | .vsub f => some (packS 46#6 1#6 f.d f.a 0#8)
  | .csub f => some (packS 46#6 2#6 f.d f.a 0#8)
  | .qhead f => some (packS 47#6 0#6 f.d f.a 0#8)
  | .qheadWait f => some (packS 47#6 0#6 f.d f.a 1#8)
  | .seqread f => some (packS 47#6 1#6 f.d f.a 0#8)
  | .mload d a i => some (packS 48#6 0#6 d a i)
  | .mswap => some (packS 48#6 1#6 0#6 0#6 0#8)
  | .mstep d a i t w => some (packS 48#6 2#6 d a (0#3 ++ i ++ t ++ w))
  | .mzero f => some (packS 48#6 3#6 f.d f.a 0#8)
  | .mzeroFree a => some (packS 48#6 3#6 0#6 a 1#8)
  | .mdrain d a f s r => some (packS 48#6 4#6 d a (0#4 ++ f ++ s ++ r))
  | .vdsub a => some (packS 49#6 0#6 0#6 a 0#8)
  | .vsig f => some (packS 49#6 1#6 f.d f.a 0#8)
  | .vyield => some (packS 49#6 2#6 0#6 0#6 0#8)
  | .vyieldDone => some (packS 49#6 2#6 0#6 0#6 1#8)
  | .rast g d b => some (packC 52#6 g 0#4 d 0#6 b 1#1)
  | .rastbin g d b => some (packC 52#6 g 1#4 d 0#6 b 1#1)
  | .binflush g d b => some (packC 52#6 g 2#4 d 0#6 b 1#1)
  | .ctok f => some (packC 53#6 f.g 0#4 f.d f.a f.b 1#1)
  | .zs f => some (packC 53#6 f.g 1#4 f.d f.a f.b 1#1)
  | .zsP g a b => some (packC 53#6 g 1#4 0#6 a b 0#1)
  | .blnd f => some (packC 53#6 f.g 2#4 f.d f.a f.b 1#1)
  | .blndP g a b => some (packC 53#6 g 2#4 0#6 a b 0#1)
  | .tex f => some (packC 54#6 f.g 0#4 f.d f.a f.b 1#1)
  | .texg f => some (packC 54#6 f.g 1#4 f.d f.a f.b 1#1)
  | .texq f => some (packC 54#6 f.g 2#4 f.d f.a f.b 1#1)
  | .trav f => some (packC 55#6 f.g 0#4 f.d f.a f.b 1#1)
  | .travc f => some (packC 55#6 f.g 1#4 f.d f.a f.b 1#1)
  | .rdsV d i => some (packS 56#6 0#6 d 0#6 i)
  | .rdsS d i => some (packS 56#6 1#6 d 0#6 i)
  | .wrs a i => some (packS 56#6 2#6 0#6 a i)
  | .upcall d a i => some (packS 56#6 3#6 d a i)
  | .brk i => some (packS 56#6 4#6 0#6 0#6 i)
  | .nop => some (packS 56#6 5#6 0#6 0#6 0#8)
  | .tlbiPage f => some (packS 57#6 0#6 f.d f.a 0#8)
  | .tlbiAsid f => some (packS 57#6 0#6 f.d f.a 1#8)
  | .tlbiAll f => some (packS 57#6 0#6 f.d f.a 2#8)
  | .pkset d a i => some (packS 57#6 1#6 d a i)
  | .hintImmediate y => some (packH 62#6 0#4 y)
  | .hintJoin y => some (packH 62#6 1#4 y)
  | .hintRounding y => some (packH 62#6 2#4 y)
  | .hintScalePolicy y => some (packH 62#6 3#4 y)
  | .hintPriority y => some (packH 62#6 4#4 y)
  | .hintScope y => some (packH 62#6 5#4 y)
  | .hintFormat y => some (packH 62#6 6#4 y)
  | .reservedWord _ => none
  | .debugBreakpoint _ => none
  | .trapRecordWrite _ => none
  | .prqRecordWrite _ => none
  | .filterEntryFreeWake _ => none
  | .pgresWake _ _ _ => none
  | .pgresFault _ _ _ => none
  | .homeSliceWrite _ _ _ => none
  | .counterHalving => none
  | .migrationNoticeWrite _ => none
  | .loadDataArrival _ => none
  | .fenceComplete _ => none
  | .fenceRollback _ => none
  | .barRelease _ _ => none
  | .gbarRelease _ _ => none
  | .regangJoin _ _ => none
  | .mwaitWake _ => none
  | .seqwaitWake _ => none
  | .tokenAcquire _ => none
  | .ringRoomWake _ => none
  | .taskQueueRoomWake _ => none
  | .placement _ _ => none
  | .tileListRelease _ _ => none
  | .stopRequest _ => none
  | .overrunNotice _ => none
  | .park _ => none
  | .parkImagePerformed _ => none
  | .crewWake _ => none
  | .resume _ _ => none
  | .joinPush _ => none
  | .impliedDecrement _ => none
  | .crewExitComplete _ => none
  | .tfillComplete _ => none
  | .vintnerCardStart _ _ => none
  | .productCard _ _ => none
  | .programCard _ _ => none
  | .vintnerSwitch _ => none
  | .bankFillComplete _ => none
  | .swap _ => none
  | .matrixStep _ => none
  | .accumulatorZero _ => none
  | .accumulatorFree _ => none
  | .accumulatorDrain _ => none
  | .engineTurn _ => none
  | .testWaitWake _ => none
  | .ringWake _ => none
  | .entryComplete _ => none
  | .ringResume _ => none
  | .cardDispatch _ _ _ => none
  | .cardComplete _ _ _ => none
  | .decanterChunk _ _ => none
  | .schedulePeriod _ => none
  | .guestSliceEnd _ _ => none
  | .coprocessorServe _ _ => none
  | .coprocessorQueueRoom _ => none
  | .lanePerform _ _ => none
  | .windowEntry _ _ => none
  | .callRecordArrival _ _ => none
  | .mailboxRecordWrite _ => none
  | .tresRetry _ _ => none
  | .tresSkip _ _ => none
  | .tresRedirect _ _ _ => none
  | .tresTerminate _ _ _ => none
  | .tresPark _ _ => none
  | .ureply _ _ _ => none
  | .ureplyTerminate _ _ => none
  | .mgringWrite _ _ _ _ => none
  | .hswscClear _ => none
  | .registerWrite _ _ _ _ => none
  | .scrubError _ _ => none
  | .pluginPeriodStart _ _ => none
  | .pluginOverrun _ _ => none
  | .ecallReturn _ _ _ => none
  | .ecallGuse _ _ _ => none
  | .ecallLog _ _ _ => none
  | .pluginTimeout _ _ => none
  | .hostInboundRequest _ => none
  | .storageInboundRequest _ => none
  | .inboundTimeout _ => none
  | .peerInboundRequest _ _ => none
  | .completionTimeout _ => none
  | .linkDown _ => none
  | .linkUp _ => none
  | .portEnable _ => none
  | .moduleLost _ => none
  | .rollback => none
  | .checkpointTimer => none
  | .cut _ => none
  | .ready => none
  | .go => none
  | .commit _ => none
  | .powerOn => none
  | .hostColdStart => none
  | .hostWarmStart => none
  | .monitorWarmStart => none
  | .firmwareImageWrite _ => none
  | .getVersion => none
  | .getCapabilities => none
  | .negotiateAlgorithms _ _ => none
  | .getDigests => none
  | .getCertificate _ => none
  | .challenge _ => none
  | .getMeasurements _ => none
  | .thermalThrottle _ => none
  | .thermalShutdown _ => none
  | .powerLimitThrottle => none
  | .checkpointCopyComplete _ => none
  | .residentCoreAccess _ _ => none
  | .satpWrite _ _ _ => none
  | .powerLimitRelease => none
  | .hypervisorReenable _ _ => none

/-- The host's question: the instruction read from the bits of a table row. Every word of this hardware is 32 bits. -/
noncomputable def decodeTableWord (_nbits w : Nat) : Option Instr :=
  match decode (BitVec.ofNat 32 w) with
  | .ok i => some i
  | .error _ => none

end Sys2Proof
end

