-- ==== Sys2Proof/Machine/State.lean ====
section
/-!
DEFINITION. The state of one SX2960 module as plain data, the reasons a step can stop, and the state after reset.

Sparse tables (`SMap`) hold what differs from a default, by a key that is a natural number: a register file lists the
registers that are not zero. `Device` is everything a coordinated checkpoint restores (24_ports R457, R458); `State`
adds the images of the cuts, the ports, the start, power, and the model's own agenda (notes/assumptions/1).
-/

namespace Sys2Proof.Machine

/-- A sparse table: keys rise strictly, and a key that is not listed has the table's default. -/
abbrev SMap (α : Type) := List (Nat × α)

/-- Memory: bytes at rising addresses, each other than what an address that is not listed reads as (`unlisted`). -/
abbrev Memory := List Host.Cell

/-- The units that hold translation caches and take ASIDs (10_pages R210, R215). -/
inductive UnitId where
  | core (n : Nat) | vintner (cluster : Nat) | decanter (cluster : Nat) | coprocessor (cluster : Nat)
  | engine (die : Nat) | cellarer (die : Nat) | hostPort | storagePort | peerPort (n : Nat) | hart (n : Nat)
deriving DecidableEq, Repr

/-- The kinds of a page (R212). -/
inductive Kind where
  | sc | rc | ws | pv
deriving DecidableEq, Repr

/-- The fault kinds of 22_system R424, in the order of their numbers: kind 1 is the first. -/
inductive FaultKind where
  | illegalEncoding | privilegedInstruction | misalignedCode | registerRange | divergenceOverflow
  | regangMismatch | barrierMismatch | groupMembership | malformedRecord | joinUnderflow
  | groupOverflow | unmappedAddress | malformedEntry | protection | instructionFetch
  | kindMismatch | misalignedData | formatMismatch | malformedBlock | illegalKind
  | illegalHandle | tileRange | accumulatorToken | accumulatorSpace | matrixShape
  | matrixSequence | arithmeticTrap | modulusUnset | modulusRange | malformedCommand
  | linkDepth | coprocessorDescriptor | coprocessorOperand | tokenOrder | breakpoint
  | uncorrectableData | completionTimeout | unsupportedRequest | peerLost | linkDown
deriving DecidableEq, Repr

/-- A cause: the fault kind and the detail field of its trap record (R427). -/
structure Trap where
  kind : FaultKind
  detail : Nat := 0
deriving DecidableEq, Repr

/-! ### Slices, parts and gangs (06_control R137 to R147) -/

/-- An entry of a divergence stack (R140). -/
structure DivEntry where
  pc : W64
  mask : BitVec 4
  rpc : Option W64
deriving DecidableEq, Repr

/-- A wait of R113: its code, the barrier number or group, the operand, the clock it began at, and the length in bytes
of the hint group it waits at (R69). -/
structure Wait where
  code : Nat
  num : Nat
  operand : Nat
  since : Nat
  len : Nat
deriving DecidableEq, Repr

/-- A slice: control state (R140), stack with the entries the core holds on top of those in the spill area (R144),
pending hints (R68), part (R138), wait (R113). -/
structure Slice where
  pc : W64 := 0
  mask : BitVec 4 := 15
  rpc : Option W64 := none
  stack : List DivEntry := []
  spilled : Nat := 0
  part : Nat := 0
  live : BitVec 4 := 15
  exited : Bool := false
  wait : Option Wait := none
  hints : List W32 := []
  /-- TRES action 0 for a debug breakpoint: not checked for one issue (22_system R428). -/
  unchecked : Bool := false
  /-- What came of the remote access the part waited for: 0 none, 1 its completion, 2 no completion in time, 3 a refusal
  (22_system R424, 24_ports R455); 4: the accumulator tile that `macq` waited for is free (17_matrix R342). -/
  remote : Nat := 0
deriving DecidableEq, Repr

/-- The registers of a gang (00_scope R4): `v` by 32 × register + lane, `s` by 64 × slice + register, `p` one mask per
predicate, `lk` by lane, `mq` and `mkr` (the `mk` registers) by 32 × number + lane. -/
structure Regs where
  v : SMap W32 := []
  s : SMap W32 := []
  p : SMap LaneMask := []
  lk : SMap W64 := []
  mq : SMap W64 := []
  mkr : SMap W64 := []
  af : W32 := 0
  te : W32 := 0
deriving DecidableEq, Repr

/-- A byte a buffered write stores: physical address, value, and the bits of the byte it writes (09_memory R204). -/
structure ByteWrite where
  addr : Nat
  value : Byte
  bits : Byte
deriving DecidableEq, Repr

/-- The floating operations of a home slice (13_atomics R255, R258). -/
inductive FloatOp where
  | add | min | max
deriving DecidableEq, Repr

/-- The floating formats of a home slice's operations (R258). -/
inductive FloatFmt where
  | f32 | f64 | bf16x2 | h16x2 | bf16
deriving DecidableEq, Repr

/-- What a home slice does to a location (R257 to R259). -/
inductive HomeOp where
  | int (op : AtomOp)
  | float (op : FloatOp) (fmt : FloatFmt)
deriving DecidableEq, Repr

/-- An entry of a store buffer: bytes of one line (of a PV line, for the core's copy), bytes of a PV line under policy 3
(R196), no-return reductions of one instruction that are one event, each with its location, in lane order (R253), a store to another module (its
number) or to a bus (none) that begins at a physical address, or the mark of a fence (R256, R268). -/
inductive BufOp where
  | write (kind : Kind) (bytes : List ByteWrite)
  | through (bytes : List ByteWrite)
  | reduce (kind : Kind) (op : HomeOp) (size : Nat) (ops : List (Nat × W64))
  | remote (peer : Option Nat) (addr : Nat) (va : W64)
  | fence (id : Nat)
deriving DecidableEq, Repr

/-- A store buffer's entry with the slices of the part that issued it (14_ordering R275), its scope and its policy (R196),
whether all of it is one event (09_memory R191; else each byte is one), and the serial number at its issue. -/
structure BufEntry where
  slices : BitVec 8
  op : BufOp
  scope : Nat := 5
  policy : Nat := 0
  whole : Bool := true
  stamp : Nat := 0
deriving DecidableEq, Repr

/-- A fence that a part runs past (13_atomics R268, R269): its kind (0 full, 1 acquire, 2 release) and scope, the part's
slices at the fence, the lines read past it, the rollbacks so far, and what a rollback restores. -/
structure Fence where
  id : Nat
  slices : BitVec 8
  kind : Nat
  scope : Nat
  lines : List Nat
  rollbacks : Nat
  regs : Regs
  control : List Slice
  /-- Flags that other parts of the gang raised since the fence. -/
  others : W32
  /-- Rolled back: the part stands at the fence again. -/
  back : Bool
deriving DecidableEq, Repr

/-- A byte that a load in flight reads: its physical address, its page's kind, the module or the bus (none) when it lies
outside this module's DRAM, and its value once it is bound. -/
structure FlightByte where
  addr : Nat
  kind : Kind
  away : Option (Option Nat) := none
  value : Option Byte := none
deriving DecidableEq, Repr

/-- A lane of a load in flight: its bytes in order, whether they are bound in one event (09_memory R191), and for a decoding
load the format of the element, with the half of the byte that a 4-bit element takes. -/
structure FlightLane where
  lane : Nat
  va : W64
  bytes : List FlightByte
  whole : Bool
  fmt : Nat := 0
  half : Nat := 0
deriving DecidableEq, Repr

/-- Where the data of a load go: unchanged to a `v` register of a width code, decoded to the register type of a code (R201),
or to an `s` register of the part's slices. -/
inductive FlightDest where
  | plain (reg width : Nat)
  | decoded (reg ty : Nat)
  | uniform (reg width : Nat)
deriving DecidableEq, Repr

/-- A load whose data has not arrived (05_work R113, 14_ordering R276): its serial number, the slices of its part, its
destination and lanes, where the instruction stands, and the running fence that it was issued past, full or acquire
(13_atomics R268). `holds`: no later instruction of the part issues before the data arrives, because the load may still
fault, or because it is an acquire (R282; notes/assumptions/63). -/
structure Flight where
  id : Nat
  slices : BitVec 8
  dest : FlightDest
  lanes : List FlightLane
  start : W64
  len : Nat
  past : Option Nat
  holds : Bool
  failed : Option FaultKind := none
deriving DecidableEq, Repr

/-- A watch of a slice on a 128-byte line, by line number (R263). -/
structure Watch where
  slice : Nat
  line : Nat
  fired : Bool
deriving DecidableEq, Repr

/-- A lane's reservation (R260, R261). -/
structure Resv where
  addr : Nat
  width : Nat
  /-- Rises with each `lres`: the oldest entry of a full table is the least (R260). -/
  age : Nat
deriving DecidableEq, Repr

/-- A precise trap of a part, before and after its record is written (22_system R426, R427). -/
structure Stop where
  slices : BitVec 8
  trap : Trap
  addr : W64
  va : W64
  lanes : LaneMask
  /-- The tag of the record; none until it is written. -/
  tag : Option Nat
  /-- TRES action 4 was taken. -/
  park : Bool
deriving DecidableEq, Repr

/-- An outstanding upcall (R437). -/
structure Upcall where
  slices : BitVec 8
  msg : List W32
  channel : Nat
  dest : Nat
  addr : W64
  tag : Option Nat
deriving DecidableEq, Repr

/-- Record registers a part's coprocessor call will write (20_coprocessors R389). -/
structure PendingRecord where
  call : Nat
  slices : BitVec 8
  reg : Nat
  count : Nat
  /-- The `s` register of `rast`'s cursor, which the record writes as well (R402). -/
  cursor : Option Nat := none
deriving DecidableEq, Repr

/-- One gang. -/
structure Gang where
  regs : Regs := {}
  slices : List Slice := []
  buffer : List BufEntry := []
  /-- Loads in flight, oldest first. -/
  loads : List Flight := []
  fences : List Fence := []
  watches : List Watch := []
  /-- Overflow bit of each slice (R263). -/
  overflow : BitVec 8 := 0
  resv : SMap Resv := []
  stops : List Stop := []
  upcalls : List Upcall := []
  records : List PendingRecord := []
  /-- Replay masks of stopped parts, by the part's lowest slice (09_memory R194, 10_pages R220): mask and address. -/
  replay : SMap (LaneMask × W64) := []
deriving DecidableEq, Repr

/-- The states of a crew (05_work R127); a queued crew is an entry of a queue. -/
inductive Phase where
  | running | stopping | parking | parked | resumable | exited
deriving DecidableEq, Repr

/-- A crew's frame: named in its record, or of the die's pool (R119). -/
inductive Frame where
  | named (va : W64)
  | pool (index : Nat)
deriving DecidableEq, Repr

/-- A tile (12_tiles R232): its bytes by offset. -/
structure Tile where
  /-- The serial number of its allocation: a tile allocated again is another one (17_matrix R337). -/
  id : Nat := 0
  k : Nat
  fmt : Nat
  mode : Nat
  data : SMap Byte
  reads : Nat
  /-- Fills accepted and not yet performed. -/
  pending : Nat
  filled : Bool
deriving DecidableEq, Repr

/-- A crew (R118 to R127). -/
structure Crew where
  record : BitVec 512
  recptr : W64
  asid : Nat
  guest : Nat
  core : Nat
  frame : Frame
  phase : Phase
  gangs : SMap Gang
  /-- Crew barriers (13_atomics R271): arrived gangs and parity. -/
  barriers : SMap (BitVec 16 × Bool)
  tiles : SMap Tile
  /-- Deadline D of a pending stop (R123). -/
  deadline : Option Nat
  /-- An overrun notice was sent for this stop. -/
  noticed : Bool
  /-- Overrun clocks not yet charged (R126). -/
  overrun : Nat
  /-- Reason of the park image: 1 long wait, 2 stop request, 3 trap park (R120). -/
  reason : Nat
  /-- A type-5 record was written since the last park that succeeded (R119). -/
  faulted : Bool
  /-- A page request for the frame is outstanding (R119). -/
  framePage : Option Nat
  /-- Ranks in the gather list (R242): group and rank. -/
  rank : Option (Nat × Nat)
deriving DecidableEq, Repr

/-! ### Per core and per cluster -/

/-- Who waits for a page (10_pages R221, R222). -/
inductive Waiter where
  | part (p : PartRef)
  | preq (p : PartRef)
  | unit (u : UnitId) (n : Nat)
  | crewFrame (crew : Nat)
  | push (die n : Nat)
  | inbound (n : Nat)
deriving DecidableEq, Repr

/-- An entry of a core's fault filter (R221). -/
structure FilterEntry where
  asid : Nat
  page : Nat
  union : BitVec 8
  leaf : Nat := 0
  waiters : List Waiter
deriving DecidableEq, Repr

/-- An entry of a cluster's merge stage (R221): written once its record stands in the queue. -/
structure MergeEntry where
  asid : Nat
  page : Nat
  union : BitVec 8
  count : Nat
  leaf : Nat
  written : Bool
  waiters : List Waiter
deriving DecidableEq, Repr

/-- A PV line in a core's data cache (14_ordering R286). -/
structure PvLine where
  crew : Nat
  data : SMap Byte
  dirty : Bool
deriving DecidableEq, Repr

/-- A line that a core's data cache holds (09_memory R187), and whether it was brought in to be retained (R196). -/
structure CacheLine where
  line : Nat
  retain : Bool
deriving DecidableEq, Repr

/-- A line that a home slice holds: its way and its owner, the guest whose access filled it (R189, R198). -/
structure HomeLine where
  line : Nat
  way : Nat
  owner : Nat
deriving DecidableEq, Repr

/-- One SIMT core. -/
structure CoreState where
  parkthr : W32 := 4096
  filter : List FilterEntry := []
  /-- Who waits for a filter entry (R221), and what it will ask for: ASID, page, union and the leaf's address. -/
  held : List (Waiter × List (Nat × Nat × BitVec 8 × Nat)) := []
  /-- The data cache by set: 16 ways, the most recently used line first (R187). -/
  cache : SMap (List CacheLine) := []
  /-- What its PV lines hold. -/
  pv : SMap PvLine := []
deriving DecidableEq, Repr

/-- A run of memory that a fill reads: its physical address and length, the module when it is another one, and whether it
lies on a PV page. -/
structure Span where
  pa : Nat
  len : Nat
  peer : Option Nat
  pv : Bool
deriving DecidableEq, Repr

/-- A fill of a tile that was accepted (12_tiles R237): the tile (of a crew, or by its key in the cluster's table), the
read count, the core whose copies of PV lines it reads, and the memory in tile order; the part whose loads its reads are, as
crew, gang and slices, with the serial number at its issue (R244). -/
structure Fill where
  part : Option (Nat × Nat × BitVec 8) := none
  stamp : Nat := 0
  /-- The bytes, once the reads are bound. -/
  data : Option (List Byte) := none
  crew : Option Nat
  cluster : Nat
  key : Nat
  reads : Nat
  core : Option Nat
  spans : List Span
deriving DecidableEq, Repr

/-- The states of a bank of the array (17_matrix R321). -/
inductive BankState where
  | empty | filling | ready | active
deriving DecidableEq, Repr

/-- A bank: state, count (none: serves until a swap; 0: exhausted), the unit's address and memory, format and geometry, the address
of its `mload`, its bytes; `refill` until the unit has been read again after a switch of contexts (R329). -/
structure Bank where
  state : BankState := .empty
  count : Option Nat := none
  va : W64 := 0
  spans : List Span := []
  fmt : Nat := 0
  geo : Nat := 0
  at_ : W64 := 0
  data : SMap Byte := []
  refill : Bool := false
deriving DecidableEq, Repr

/-- An operation of the array's queue (R334); `tile` and `id` are the allocations of the A tile and of the accumulator
(R337); `dest` is the memory of a drain by offset, with its kind. -/
inductive ArrOp where
  | swap
  | step (a tile acc id m wa row0 : Nat) (edge32 init : Bool) (at_ : W64)
  | zero (acc id : Nat) (at_ : W64)
  | free (acc id : Nat) (at_ : W64)
  | drain (acc id row0 rows pitch rnd : Nat) (sat free : Bool) (dest : List (Nat × Kind × Span)) (fmt geo : Nat) (at_ : W64)
deriving DecidableEq, Repr

/-- An accumulator tile (R326, R327). -/
structure Acc where
  /-- The serial number of its allocation. -/
  id : Nat
  asid : Nat
  blocks : Nat
  /-- The crew that holds the token; none when the array does. -/
  token : Option Nat
  /-- Elements by row × 1,024 + column. -/
  data : SMap W32
  /-- Set until the queued zeroing: elements not listed hold free values. -/
  stale : Option Nat
deriving DecidableEq, Repr

/-- A footprint of a card (18_engines R366). -/
structure Footprint where
  base : Nat
  length : Nat
  write : Bool
deriving DecidableEq, Repr

/-- Where a card stands (R366 to R368). -/
inductive CardState where
  | pending | dispatched | running
deriving DecidableEq, Repr

/-- A job card (R366 to R368). -/
structure Card where
  id : Nat
  vintner : Bool
  addr : W64
  block : BitVec 512
  cluster : Nat
  cls : Nat
  guest : Nat
  asid : Nat
  prints : List Footprint
  /-- Cards it waits for. -/
  edges : List Nat
  /-- Entry it was accepted from: ring and number; none for `vdsub`. -/
  entry : Option (Nat × Nat)
  state : CardState
  /-- Set when its engine has ended it: cause code (0 none), address, flags. -/
  ended : Option (Nat × W64 × BitVec 5)
  /-- The moment its edges were met, as a serial number (R368). -/
  met : Nat := 0
deriving DecidableEq, Repr

/-- Why a Vintner context waits, where the wait gives way to a lower class (R329, R341): a page, the fill of an A tile (its
key), a full array queue, a token, a word of `seqwait`, a ring without room, the guest's next time slice. -/
inductive VWait where
  | page (asid pg : Nat) (fetch : Bool)
  | fill (key : Nat)
  | queue
  | token
  | seq (va : W64) (value : Nat)
  | ring (va : W64)
  | slice
deriving DecidableEq, Repr

/-- A context of a Vintner (R328). -/
structure VCtx where
  die : Nat
  group : Nat
  card : Card
  pc : W64 := 0
  s : SMap W32 := []
  /-- `p0` to `p6`; `p7` reads 1. -/
  p : BitVec 8 := 0
  hints : List W32 := []
  flags : BitVec 5 := 0
  queue : List ArrOp := []
  wait : Option VWait := none
  /-- Its banks while another context holds the array (R329): the two banks and which was active. -/
  saved : Option (Bank × Bank × Bool) := none
  /-- Filled or ready by `mload` since the last swap (R336). -/
  loaded : Bool := false
  /-- The step of the product card's sequence (R333). -/
  prod : Nat := 0
deriving DecidableEq, Repr

/-- The Decanter's place in a card (R373): the row and column of the next unit. -/
structure DecSlot where
  die : Nat
  group : Nat
  card : Card
  row : Nat
  col : Nat
  flags : BitVec 5
  /-- 1 running, 2 suspended at the cursor. -/
  state : Nat
  /-- Waits for a page request. -/
  page : Option Nat
  /-- Fills of its tile that were accepted before its dispatch and are not performed (12_tiles R237). -/
  ahead : Nat
deriving DecidableEq, Repr

/-- A coprocessor call accepted by a unit (20_coprocessors R389). -/
structure Call where
  id : Nat
  unit : CopUnit
  /-- Major and minor. -/
  major : Nat
  minor : Nat
  posted : Bool
  crew : Nat
  gang : Nat
  slices : BitVec 8
  lanes : LaneMask
  asid : Nat
  dest : Nat
  /-- The `s` block: its first register, and its values. -/
  base : Nat
  sregs : List W32
  /-- The `v` operands, by 32 × operand + lane. -/
  vregs : SMap W32
  /-- The cluster of the issuing core. -/
  cluster : Nat
  /-- The render target's place, when its descriptor could be read at issue. -/
  target : Nat := 0
deriving DecidableEq, Repr

/-- A record on its way to the calling lanes: word w of lane i at 32 × w + i; and a write of the `s` cursor. -/
structure Record where
  call : Call
  words : SMap W32
  cursor : Option W32
deriving DecidableEq, Repr

/-- A lane of `zs` or `blnd` at a render target's owner (R397, R398): its target, screen tile (none when it faulted before
it was held), sample and token; whether it has entered the window, is performed, and has returned its record. -/
structure HeldLane where
  call : Call
  lane : Nat
  target : Nat
  tile : Option Nat
  sample : Nat
  token : Nat
  entered : Bool
  done : Bool
  sent : Bool
  result : W32
  /-- Acceptance order (R398). -/
  order : Nat
deriving DecidableEq, Repr

/-- What the owner keeps of a render target (R393 to R396): where it is reached, the descriptor as last read, the live
tokens, the stream, its word in memory, and the commit word. -/
structure Target where
  asid : Nat
  va : W64
  desc : BitVec 512
  live : List Nat
  draw : Nat
  next : Nat
  stream : Nat
  commit : Nat
deriving DecidableEq, Repr

/-- One cluster. -/
structure Cluster where
  /-- By 1,024 × ASID + index. -/
  tiles : SMap Tile := []
  merge : List MergeEntry := []
  /-- Requests that wait for a merge-stage entry. -/
  mergeHeld : List MergeEntry := []
  vctx : SMap VCtx := []
  /-- The class whose context the Vintner issues from and the array serves. -/
  vcur : Option Nat := none
  bank0 : Bank := {}
  bank1 : Bank := {}
  /-- The active bank is bank 1; the first `mload` of a card fills bank 0. -/
  active1 : Bool := true
  accs : SMap Acc := []
  dec : SMap DecSlot := []
  /-- The class of the card whose chunks the Decanter performs. -/
  decCur : Option Nat := none
  calls : List Call := []
  records : List Record := []
  held : List HeldLane := []
  /-- By the physical address of the descriptor. -/
  targets : SMap Target := []
  /-- Pages refused to a coprocessor call (10_pages R222): call and page. -/
  refused : List (Nat × Nat) := []
deriving DecidableEq, Repr

/-! ### Per die -/

/-- A record in a queue of the Cellarer (05_work R102): the copy, where it came from, where it may be placed. -/
structure Queued where
  record : BitVec 512
  recptr : W64
  asid : Nat
  guest : Nat
  /-- Only this core, or only this cluster. -/
  onCore : Option Nat
  onCluster : Option Nat
  /-- A parked crew that is resumable (R118). -/
  crew : Option Nat
  /-- Rank in its gather list. -/
  rank : Option (Nat × Nat)
  /-- The entries of its input tile list (R101), and the die it was launched on. -/
  tiles : List Nat := []
  die : Nat := 0
deriving DecidableEq, Repr

/-- A reservation of candidate cores for the head of a queue (R106): the queue, its guest, the cores, the class, and the
gang slots that the head needs. -/
structure Reservation where
  source : Nat
  guest : Nat
  cores : List Nat
  cls : Nat
  need : Nat
deriving DecidableEq, Repr

/-- A push or an implied decrement that the Cellarer will make (R133, R134). -/
structure Push where
  addr : W64
  asid : Nat
  service : Bool
  crew : Nat
  /-- The page it waits for. -/
  page : Option Nat := none
  /-- The record, once it was read and checked: the push waits only for room. -/
  held : Option Queued := none
deriving DecidableEq, Repr

/-- A fault record not of a trap, not yet written (22_system R425): bytes 0 to 47 of it. -/
structure FaultRec where
  cause : Nat
  type : Nat
  mask : Nat
  crew : Nat
  addr : W64
  va : W64
  asid : Nat
  gang : Nat
  cluster : Nat
  detail : Nat
  ptr : W64
deriving DecidableEq, Repr

/-- An overrun notice (R443). -/
structure Notice where
  crew : Nat
  guest : Nat
  deadline : Nat
  clock : Nat
deriving DecidableEq, Repr

/-- A walk in progress (18_engines R350). -/
structure Walk where
  entry : Nat
  cls : Nat
  cur : W64
  stack : List W64
  last : W64
  /-- Blocks walked in the turn, and since the last launch. -/
  turn : Nat
  since : Nat
  /-- The block at the cursor, read before a wait for the entry's cards. -/
  block : Option (BitVec 512) := none
deriving DecidableEq, Repr

/-- An entry taken and not yet complete (R353, R354). -/
structure EntryState where
  n : Nat
  walked : Bool
  cards : Nat
  cause : Nat
  faultAddr : W64
  last : W64
  flags : BitVec 5
  /-- A link packet: completes with no fault and 0 cards (R359). -/
  link : Bool
deriving DecidableEq, Repr

/-- A registered ring (R361) and the engine's own state of it. -/
structure Ring where
  valid : Bool := false
  asid : Nat := 0
  desc : W64 := 0
  walk : Option Walk := none
  entries : List EntryState := []
  /-- The number of the next entry to complete. -/
  next : Nat := 0
  /-- Held stopped in the engine's own state (R355). -/
  stopped : Bool := false
  /-- The fault that stopped it: cause code and block address. -/
  fault : Option (Nat × W64) := none
  /-- The entry whose walk or completion faulted. -/
  faultEntry : Option Nat := none
  /-- A stop whose status record or STOP bit waits for a page (R355): the fault record, and the entry. -/
  unwritten : Option (FaultRec × Option Nat) := none
  /-- A test that waits (R352): line and whether its watch has fired. -/
  testLine : Option (Nat × Bool) := none
  /-- The watch on the tail line (R358): physical line, fired. -/
  tailLine : Nat := 0
  tailFired : Bool := false
  awake : Bool := true
  /-- The page that its turns wait for, and the one that a completion waits for (R353, R355). -/
  page : Option Nat := none
  donePage : Option Nat := none
deriving DecidableEq, Repr

/-- A merge group (R361, R367). -/
structure Group where
  ctl : W32 := 0
  rings : SMap Ring := []
  cards : List Card := []
  last : Nat := 63
deriving DecidableEq, Repr

/-- A plug-in of a tenant (22_system R444): its window of the firmware core's SRAM (R443), the guests and ceilings that the
hypervisor set, the running event with the clock it began at, a0 to a2 and the words of its event page, the reply it last
gave, and the log. -/
structure Plugin where
  enabled : Bool := false
  /-- Failed ends in succession. -/
  failures : Nat := 0
  /-- The event it runs for: 0 none. -/
  event : Nat := 0
  since : Nat := 0
  a0 : W64 := 0
  a1 : W64 := 0
  a2 : W64 := 0
  window : Nat × Nat := (0, 0)
  page : List W64 := []
  guests : List Nat := []
  ceilings : SMap Nat := []
  reply : List Nat := []
  log : List W64 := []
deriving DecidableEq, Repr

/-- Registers of the control windows by name (R225, R360, R431), and the queues behind them. -/
structure Die where
  sysie : SMap W32 := []
  fqbase : W64 := 0
  fqhead : Nat := 0
  fqtail : Nat := 0
  tres0 : W64 := 0
  mbbase : W64 := 0
  mbhead : Nat := 0
  mbtail : Nat := 0
  urep0 : W64 := 0
  cqbase : W64 := 0
  cls2 : Nat := 12
  svc2 : Nat := 12
  dev2 : Nat := 12
  tile2 : Nat := 10
  fpbase : W64 := 0
  fpcfg : W32 := 0
  dbgbp : SMap (BitVec 128) := []
  serrcnt : W32 := 0
  asdbase : W64 := 0
  atbase : W64 := 0
  prqbase : W64 := 0
  prqhead : Nat := 0
  prqtail : Nat := 0
  pgres0 : W64 := 0
  mnqbase : W64 := 0
  mnqhead : Nat := 0
  mnqtail : Nat := 0
  mnqover : Bool := false
  migth : W32 := BitVec.ofNat 32 (64 * 65536 + 1024)
  migrg : SMap (BitVec 128) := []
  schper : Nat := 20
  gshare : SMap Nat := [(0, 1024)]
  guse : SMap Nat := []
  groups : SMap Group := []
  mgring0 : SMap W64 := []
  cursors : SMap (BitVec 256) := []
  /-- Sequence numbers of the page request, fault and mailbox records (R222, R427, R438). -/
  prqseq : Nat := 0
  fqseq : Nat := 0
  mbseq : Nat := 0
  faults : List FaultRec := []
  notices : List (Nat × Nat × BitVec 5) := []
  overruns : List Notice := []
  lostNotices : Nat := 0
  /-- The Cellarer's queues, by `4 × guest + class`; service; tile lists by `4 × (cluster of the die) + class`; gather
  lists by `256 × ASID + group`; device queues (die 0's) by `4 × guest + class`. -/
  queues : SMap (List Queued) := []
  service : List Queued := []
  tileLists : SMap (List Queued) := []
  arrivals : SMap (List Queued) := []
  gather : SMap (List Queued) := []
  groupsReady : List (Nat × List Queued) := []
  device : SMap (List Queued) := []
  pushes : List Push := []
  decrements : List Push := []
  reserved : List Reservation := []
  /-- Frames of the pool in use. -/
  frames : List Nat := []
  lastGroup : Nat := 63
  /-- The merge group and ring whose turn waits for the entry's cards (R350). -/
  inTurn : Option (Nat × Nat) := none
  nextCard : Nat := 0
  /-- Overruns of exited crews not yet charged, by guest (R126, R365). -/
  charges : SMap Nat := []
  /-- Guests whose time slice has ended (R365). -/
  ended : List Nat := []
  plugins : SMap Plugin := []
  /-- The firmware core (22_system R443): its SRAM, its 16 protection entries (base, size, and bits 0 read, 1 write, 2
  execute), and what its last load read. -/
  sram : SMap Byte := []
  pmp : SMap (Nat × Nat × BitVec 3) := []
  fwResult : W64 := 0
deriving DecidableEq, Repr

/-! ### The module -/

/-- A translation a unit holds (10_pages R215). -/
structure TlbEntry where
  unit : UnitId
  asid : Nat
  /-- First virtual address and size of the page. -/
  base : Nat
  size : Nat
  /-- Physical address of the leaf entry. -/
  leaf : Nat
  pa : Nat
  peer : Nat
  r : Bool
  w : Bool
  x : Bool
  dirty : Bool
  kind : Kind
  fmt : Nat
  geo : Nat
deriving DecidableEq, Repr

/-- A descriptor a unit holds (R210). -/
structure DescEntry where
  unit : UnitId
  asid : Nat
  root : Nat
  groups : Nat
  guest : Nat
  valid : Bool
deriving DecidableEq, Repr

/-- A directory entry (14_ordering R291). -/
inductive DirEntry where
  | pointers (cores : List Nat) (resident : BitVec 4)
  | coarse (vector : W64) (resident : BitVec 4)
deriving DecidableEq, Repr

/-- The writer a WS tag names (R275, R284): a gang with the slices of the part, a unit, or a unit of a coprocessor block. -/
inductive Writer where
  | gang (crew gang : Nat) (slices : BitVec 8)
  | unit (u : UnitId)
  | cop (cluster : Nat) (u : CopUnit)
  | module (m : Nat)
deriving DecidableEq, Repr

/-- An access counter (10_pages R223, R224). -/
structure Counter where
  count : Nat
  queued : Bool
  dies : BitVec 4
  device : Bool
deriving DecidableEq, Repr

/-- Registers of a hart that its own instructions write (22_system R441, R442; notes/assumptions/57). -/
inductive HartReg where
  | sie | stvec | sepc | sscratch | status
deriving DecidableEq, Repr

/-- Translation modes, trap registers and store buffer of a resident core (22_system R441, R442, 14_ordering R302). -/
structure Hart where
  satp : W64 := 0
  vsatp : W64 := 0
  /-- In S-mode, or in U-mode. -/
  supervisor : Bool := true
  /-- `sstatus`.SUM. -/
  sum : Bool := false
  /-- `sstatus`.SIE, SPIE and SPP, and `sie`. -/
  sie : Bool := false
  spie : Bool := false
  spp : Bool := false
  enables : W64 := 0
  stvec : W64 := 0
  sepc : W64 := 0
  sscratch : W64 := 0
  /-- Where the hart executes: set by a trap and by its return. -/
  pc : W64 := 0
  /-- Stores that are not performed yet, oldest first. -/
  buffer : List BufEntry := []
  /-- Exception code and `stval` of the last exception of an access. -/
  scause : Option Nat := none
  stval : W64 := 0
  /-- The last access raised its exception. -/
  faulted : Bool := false
  /-- What the last access read, from the lowest bits on; for an `sc`, 0 or 1 as it wrote or not. -/
  result : W64 := 0
  resv : Option Resv := none
deriving DecidableEq, Repr

/-- Everything a cut restores (24_ports R457, R458). -/
structure Device where
  mem : Memory := []
  crews : SMap Crew := []
  cores : SMap CoreState := []
  clusters : SMap Cluster := []
  dies : SMap Die := []
  fills : List Fill := []
  tlb : List TlbEntry := []
  descs : List DescEntry := []
  dir : SMap DirEntry := []
  wsTags : SMap Writer := []
  /-- The lines of the home slices, by 1,024 × slice + set, the most recently used line first (R189). -/
  home : SMap (List HomeLine) := []
  hsctl : SMap W32 := []
  hswm : SMap W32 := []
  hswsc : SMap W64 := []
  /-- Lines marked as uncorrectable (22_system R424). -/
  poisoned : List Nat := []
  counters : SMap Counter := []
  harts : SMap Hart := []
  clock : Nat := 0
  nextCrew : Nat := 1
  nextCall : Nat := 0
  /-- Rises with each `lres`, fence and held lane. -/
  serial : Nat := 0
deriving DecidableEq, Repr

/-- An inbound request that is held (24_ports R452). -/
structure HeldReq where
  q : PortReq
  storage : Bool
  asid : Nat
  va : W64
  /-- The page it waits for; none for a posted write that stands behind a held one of its requester. -/
  page : Option Nat
  /-- The clock at which it was held. -/
  since : Nat
deriving DecidableEq, Repr

/-- An answer of a port (R450, R452). -/
inductive Answer where
  | data (bytes : List Byte)
  | done
  | unsupported
  /-- Data with an uncorrectable soft error (R455). -/
  | poisoned
deriving DecidableEq, Repr

/-- The phases of a coordinated checkpoint on this module (R457). -/
inductive CheckPhase where
  | idle | frozen | ready | copying
deriving DecidableEq, Repr

/-- The ports and the port window (R450 to R458). -/
structure Ports where
  /-- TOUT, EN, MODE and UP of port n. -/
  tout : SMap Nat := []
  en : SMap Bool := [(0, true)]
  mode : SMap Nat := []
  up : SMap Bool := []
  route : SMap Byte := []
  /-- Windows 0 to 7: BUS, size, VBASE, ASID, enable. -/
  bus : SMap W64 := []
  size : SMap W64 := []
  vbase : SMap W64 := []
  wasid : SMap Nat := []
  wen : SMap Bool := []
  storasid : Nat := 0
  ckper : W32 := 0
  buddy : Nat := 0
  ckcut : Nat := 0
  wsmap : W64 := 0
  held : List HeldReq := []
  /-- Answers to requests, newest first, by requester. -/
  answers : List (Nat × Answer) := []
  lost : List Nat := []
  devid : Nat := 0
  /-- Modules written since the last release at `.peer` (R454). -/
  written : List Nat := []
deriving DecidableEq, Repr

/-- The start (R460). -/
structure Start where
  step : Nat := 6
  failures : Nat := 0
  recovery : Bool := false
  image : List W64 := []
deriving DecidableEq, Repr

/-- A response of the SPDM responder (R461). -/
inductive SpdmAnswer where
  | version (major minor : Nat)
  | capabilities (flags : W64)
  | algorithms (asym hash : Nat)
  | digests (slots : Nat) (digest : List W64)
  | certificate (slot : Nat) (chain : List W64)
  | challengeAuth (nonce : Nat) (signature : List W64)
  | measurements (count : Nat) (blocks : List (Nat × List W64))
  | error
deriving DecidableEq, Repr

/-- The SPDM responder (R461): what was negotiated, and the last response. -/
structure Spdm where
  version : Bool := false
  caps : Bool := false
  algs : Option (Nat × Nat) := none
  response : Option SpdmAnswer := none
deriving DecidableEq, Repr

/-- Power and cooling (R462). -/
structure Power where
  /-- Dies that throttle for their temperature. -/
  hot : List Nat := []
  limit : Bool := false
  shutdown : Bool := false
deriving DecidableEq, Repr

/-- The agent whose instruction `exec` runs. -/
inductive Issuer where
  | gang (crew gang slice : Nat)
  | vintner (cluster : Nat)
  | none
deriving DecidableEq, Repr

/-- What happens besides the events of the opcode table (notes/assumptions/64): the data cache of a core evicts a line
(09_memory R187); a store of a hart is performed, its `sfence.vma`, its `fence` with the predecessor and successor sets (bit 0
writes, bit 1 reads), a write of one of its registers, an interrupt it takes and its return (14_ordering R302, 22_system R441,
R442); a soft error of a die is corrected (R424); a plug-in's `ecall` of another number, an access of the firmware core to its
SRAM or to the event page, with what it writes, and the protection entries and plug-in windows that the monitor sets (R443,
R444); another module's release has been performed (24_ports R454). -/
inductive Other where
  | evict (core line : Nat)
  | hartPerform (hart idx : Nat)
  | sfence (hart : Nat)
  | hartFence (hart : Nat) (pred succ : BitVec 2)
  | csrWrite (hart : Nat) (reg : HartReg) (value : W64)
  | hartInterrupt (hart : Nat)
  | hartReturn (hart : Nat)
  | corrected (die : Nat)
  | pluginEcall (die tenant number : Nat)
  | firmwareAccess (die addr size : Nat) (event : Bool) (store : Option W64)
  | protectionEntry (die n base size : Nat) (perms : BitVec 3)
  | pluginWindow (die tenant base size : Nat)
  | moduleReleased (m : Nat)
deriving DecidableEq, Repr

/-- A turn of the agenda: which agent moves next, and how (notes/assumptions/1). -/
inductive Turn where
  | issue (crew gang slice : Nat)
  /-- The same, and the data of a load that issues come later (05_work R113), or an atomic performs one of its groups of lanes,
  by number (13_atomics R253). -/
  | issueLate (crew gang slice n : Nat)
  | vissue (cluster : Nat)
  | event (i : Instr)
  | more (m : Other)
deriving DecidableEq, Repr

/-- The module. -/
structure State extends Device where
  ports : Ports := {}
  start : Start := {}
  spdm : Spdm := {}
  power : Power := {}
  /-- The checkpoint under way (R457): its phase and number, a cut that this module called and has not taken, the clock
  of the last call and of the freeze, and the modules whose copies are complete. -/
  phase : CheckPhase := .idle
  cut : Nat := 0
  called : Option Nat := none
  calledAt : Nat := 0
  frozenAt : Nat := 0
  copied : List Nat := []
  /-- Freeze images with the memory of their cuts, which the undo logs restore (R458). -/
  images : List (Nat × Device) := []
  /-- The model's own: the turns to come, the issuing agent, and the counter of free values. -/
  agenda : List Turn := []
  cur : Issuer := .none
  /-- The turn is `issueLate`, with its number. -/
  late : Option Nat := none
  free : Nat := 0
deriving DecidableEq, Repr

/-- Why the machine stops with a fault. Each is safe: the model stops where nothing is claimed of the hardware. -/
inductive Fault where
  /-- `exec` was asked for an instruction while `cur` names no part and no context that could issue it. Raised by every
  instruction's meaning; safe: `step` never asks. -/
  | noIssuer
deriving DecidableEq, Repr

/-- Why the machine refuses. -/
inductive Refusal where
  /-- The instruction's meaning is not modelled yet. Raised by an arm of `exec` only; safe. -/
  | notModelled (mnemonic : String)
deriving DecidableEq, Repr

/-- The machine after a cold start has completed, before any resident core has run (24_ports R460): memory, tiles and
accumulators clear, every attribute entry RC, bytes, linear, every control register at its reset value
(INVENTORY.md, `## State`). -/
def State.reset : State := {}

end Sys2Proof.Machine
end

