-- ==== Sys2Proof/Machine/SMap.lean ====
section
/-!
DEFINITION. Sparse tables and memory: reading, writing, and the canonical form of memory.

A table lists its keys in rising order. `SMap.put` keeps that order and replaces an entry in place; `SMap.setD`
removes the entry when the value is the default, so that tables that read alike are alike.
-/

namespace Sys2Proof.Machine

/-- Bits hi:lo of a natural number. -/
def natBits (x lo w : Nat) : Nat := x / 2 ^ lo % 2 ^ w

/-- The entry of a key. -/
def SMap.find {α : Type} (m : SMap α) (k : Nat) : Option α :=
  match m with
  | [] => none
  | (j, x) :: t => if j = k then some x else SMap.find t k

/-- The value of a key, or the table's default. -/
def SMap.getD {α : Type} (m : SMap α) (k : Nat) (d : α) : α :=
  match SMap.find m k with
  | some x => x
  | none => d

/-- Enter a value. -/
def SMap.put {α : Type} (m : SMap α) (k : Nat) (v : α) : SMap α :=
  match m with
  | [] => [(k, v)]
  | (j, x) :: t =>
    if j = k then (k, v) :: t else if k < j then (k, v) :: (j, x) :: t else (j, x) :: SMap.put t k v

/-- Remove a key. -/
def SMap.erase {α : Type} (m : SMap α) (k : Nat) : SMap α :=
  match m with
  | [] => []
  | (j, x) :: t => if j = k then SMap.erase t k else (j, x) :: SMap.erase t k

/-- Set a value in a table whose unlisted keys read as `d`. -/
def SMap.setD {α : Type} [DecidableEq α] (m : SMap α) (k : Nat) (v d : α) : SMap α :=
  if v = d then SMap.erase m k else SMap.put m k v

/-- The entries with lo ≤ key < hi, moved down by lo. -/
def SMap.range {α : Type} (m : SMap α) (lo hi : Nat) : SMap α :=
  match m with
  | [] => []
  | (j, x) :: t => if lo ≤ j ∧ j < hi then (j - lo, x) :: SMap.range t lo hi else SMap.range t lo hi

/-- The first key below `n` that is not listed. -/
def SMap.freeKey {α : Type} (m : SMap α) : Nat → Option Nat
  | 0 => none
  | n + 1 =>
    match SMap.freeKey m n with
    | some k => some k
    | none => match SMap.find m n with
      | none => some n
      | some _ => none

/-- Bytes of the page-attribute table: two for each 4 KiB piece of the module's DRAM (10_pages R216). -/
def attrBytes : Nat := 2 ^ 28

/-- What an address that is not listed reads as, as a cold start leaves it (24_ports R460): zero, but for the
page-attribute table, which the start builds at the reset value of `ATBASE` with every entry RC, bytes, linear. -/
def unlisted (a : Nat) : Byte := if a < attrBytes ∧ a % 2 = 0 then 1 else 0

/-- The byte at an address. -/
def Memory.read (m : Memory) (a : Nat) : Byte := SMap.getD m a (unlisted a)

/-- Write one byte, keeping the canonical form. -/
def Memory.write (m : Memory) (a : Nat) (b : Byte) : Memory := SMap.setD m a b (unlisted a)

/-- The canonical form: addresses strictly rising, no byte that an unlisted address reads as. -/
def Memory.wf : Memory → Bool
  | [] => true
  | [(a, b)] => b != unlisted a
  | (a, b) :: (c, d) :: t => b != unlisted a && decide (a < c) && Memory.wf ((c, d) :: t)

/-- Write bytes at rising addresses. -/
def Memory.writeBytes (m : Memory) (a : Nat) : List Byte → Memory
  | [] => m
  | b :: t => Memory.writeBytes (Memory.write m a b) (a + 1) t

/-- `n` bytes from an address. -/
def Memory.readBytes (m : Memory) (a : Nat) : Nat → List Byte
  | 0 => []
  | n + 1 => Memory.read m a :: Memory.readBytes m (a + 1) n

/-- The little-endian value of bytes (R2), as a natural number. -/
def bytesNat : List Byte → Nat
  | [] => 0
  | b :: t => b.toNat + 256 * bytesNat t

/-- The `n` bytes of a natural number, little-endian (R2). -/
def natBytes (n : Nat) (v : Nat) : List Byte :=
  match n with
  | 0 => []
  | k + 1 => BitVec.ofNat 8 v :: natBytes k (v / 256)

/-- The little-endian value of `n` bytes from an address. -/
def Memory.readNat (m : Memory) (a n : Nat) : Nat := bytesNat (Memory.readBytes m a n)

/-- Write a value as `n` bytes. -/
def Memory.writeNat (m : Memory) (a n v : Nat) : Memory := Memory.writeBytes m a (natBytes n v)

/-- Bytes of a range that are not zero, moved down to offset zero. -/
def Memory.range (m : Memory) (lo n : Nat) : SMap Byte :=
  if lo < attrBytes then
    (List.range n).filterMap (fun i => let b := Memory.read m (lo + i); if b = 0 then none else some (i, b))
  else SMap.range m lo (lo + n)

/-- The bytes of a range as a cold start leaves them. -/
def Memory.clear (m : Memory) (lo hi : Nat) : Memory := m.filter (fun c => c.1 < lo || hi ≤ c.1)

end Sys2Proof.Machine
end

