-- ==== Sys2Proof/Machine/Gang.lean ====
section
/-!
DEFINITION. Registers and control state of a gang: reading and writing `v`, `s`, `p`, `lk`, `mq`, `mk` (00_scope R4),
parts and slices (06_control R137 to R139), and the accessors of crews, cores, clusters and dies.
-/

namespace Sys2Proof.Machine

/-- The number of a fault kind (22_system R424). -/
def FaultKind.code : FaultKind → Nat
  | .illegalEncoding => 1
  | .privilegedInstruction => 2
  | .misalignedCode => 3
  | .registerRange => 4
  | .divergenceOverflow => 5
  | .regangMismatch => 6
  | .barrierMismatch => 7
  | .groupMembership => 8
  | .malformedRecord => 9
  | .joinUnderflow => 10
  | .groupOverflow => 11
  | .unmappedAddress => 12
  | .malformedEntry => 13
  | .protection => 14
  | .instructionFetch => 15
  | .kindMismatch => 16
  | .misalignedData => 17
  | .formatMismatch => 18
  | .malformedBlock => 19
  | .illegalKind => 20
  | .illegalHandle => 21
  | .tileRange => 22
  | .accumulatorToken => 23
  | .accumulatorSpace => 24
  | .matrixShape => 25
  | .matrixSequence => 26
  | .arithmeticTrap => 27
  | .modulusUnset => 28
  | .modulusRange => 29
  | .malformedCommand => 30
  | .linkDepth => 31
  | .coprocessorDescriptor => 32
  | .coprocessorOperand => 33
  | .tokenOrder => 34
  | .breakpoint => 35
  | .uncorrectableData => 36
  | .completionTimeout => 37
  | .unsupportedRequest => 38
  | .peerLost => 39
  | .linkDown => 40

/-- Cause code: origin × 64 + kind (R424). Origins: 0 gang, 1 Vintner, 2 Decanter, 3 coprocessor, 4 command engine,
5 port. -/
def causeCode (origin : Nat) (k : FaultKind) : Nat := origin * 64 + k.code

/-! ### Registers -/

/-- `v` register r of a lane. -/
def Regs.getV (x : Regs) (r lane : Nat) : W32 := SMap.getD x.v (32 * r + lane) 0

/-- Write `v` register r of a lane. -/
def Regs.setV (x : Regs) (r lane : Nat) (a : W32) : Regs := { x with v := SMap.setD x.v (32 * r + lane) a 0 }

/-- `s` register r of a slice (R4, R147). -/
def Regs.getS (x : Regs) (slice r : Nat) : W32 := SMap.getD x.s (64 * slice + r) 0

/-- Write `s` register r of a slice. -/
def Regs.setS (x : Regs) (slice r : Nat) (a : W32) : Regs := { x with s := SMap.setD x.s (64 * slice + r) a 0 }

/-- Predicate p of every lane: `p7` reads 1 (R4). -/
def Regs.getPs (x : Regs) (p : Nat) : LaneMask := if p = 7 then BitVec.allOnes 32 else SMap.getD x.p p 0

/-- Predicate p of a lane. -/
def Regs.getP (x : Regs) (p lane : Nat) : Bool := (x.getPs p).getLsbD lane

/-- Bit `lane` of a mask set to `b`. -/
def maskSet {n : Nat} (m : BitVec n) (lane : Nat) (b : Bool) : BitVec n :=
  if b then m ||| BitVec.twoPow n lane else m &&& ~~~ BitVec.twoPow n lane

/-- Write predicate p of a lane: a write to `p7` is discarded (R4, R139). -/
def Regs.setP (x : Regs) (p lane : Nat) (b : Bool) : Regs :=
  if p = 7 then x else { x with p := SMap.setD x.p p (maskSet (x.getPs p) lane b) 0 }

/-- `lk` of a lane. -/
def Regs.getLk (x : Regs) (lane : Nat) : W64 := SMap.getD x.lk lane 0

/-- Write `lk` of a lane. -/
def Regs.setLk (x : Regs) (lane : Nat) (a : W64) : Regs := { x with lk := SMap.setD x.lk lane a 0 }

/-- `mq` register n of a lane. -/
def Regs.getMq (x : Regs) (n lane : Nat) : W64 := SMap.getD x.mq (32 * n + lane) 0

/-- `mk` register n of a lane. -/
def Regs.getMk (x : Regs) (n lane : Nat) : W64 := SMap.getD x.mkr (32 * n + lane) 0

/-- Write `mq` and `mk` register n of a lane (15_modular R315). -/
def Regs.setM (x : Regs) (n lane : Nat) (q k : W64) : Regs :=
  { x with mq := SMap.setD x.mq (32 * n + lane) q 0, mkr := SMap.setD x.mkr (32 * n + lane) k 0 }

/-- A pair of `v` registers: the lower-numbered one holds the least significant half (R4). -/
def Regs.getV2 (x : Regs) (r lane : Nat) : W64 := pairOf (x.getV r lane) (x.getV (r + 1) lane)

/-- Write a pair of `v` registers. -/
def Regs.setV2 (x : Regs) (r lane : Nat) (a : W64) : Regs := (x.setV r lane (pairLo a)).setV (r + 1) lane (pairHi a)

/-- A pair of `s` registers. -/
def Regs.getS2 (x : Regs) (slice r : Nat) : W64 := pairOf (x.getS slice r) (x.getS slice (r + 1))

/-- Write a pair of `s` registers. -/
def Regs.setS2 (x : Regs) (slice r : Nat) (a : W64) : Regs := (x.setS slice r (pairLo a)).setS slice (r + 1) (pairHi a)

/-- A quad of `v` registers (03_encoding R57). -/
def Regs.getV4 (x : Regs) (r lane : Nat) : BitVec 128 := x.getV2 (r + 2) lane ++ x.getV2 r lane

/-- Write a quad of `v` registers. -/
def Regs.setV4 (x : Regs) (r lane : Nat) (a : BitVec 128) : Regs :=
  (x.setV2 r lane (a.extractLsb' 0 64)).setV2 (r + 2) lane (a.extractLsb' 64 64)

/-- Registers that a datum of a width code takes (R57). -/
def widthRegs (w : Nat) : Nat := if w = 4 then 4 else if w = 3 then 2 else 1

/-- Write a datum of a width code to a lane (R200). -/
def putWidth (w d : Nat) (q : Regs) (i v : Nat) : Regs :=
  if w = 4 then q.setV4 d i (BitVec.ofNat 128 v)
  else if w = 3 then q.setV2 d i (BitVec.ofNat 64 v)
  else q.setV d i (BitVec.ofNat 32 v)

/-- The datum of a width code of a lane. -/
def getWidth (w d : Nat) (q : Regs) (i : Nat) : Nat :=
  if w = 4 then (q.getV4 d i).toNat
  else if w = 3 then (q.getV2 d i).toNat
  else (q.getV d i).toNat

/-- Raise sticky flags (04_numbers R87, 08_floating_point R173). -/
def Regs.raise (x : Regs) (flags : W32) : Regs := { x with af := x.af ||| flags }

/-! ### Gangs, slices, parts -/

/-- Slice k of a gang. -/
def Gang.slice (g : Gang) (k : Nat) : Slice := g.slices.getD k { exited := true }

/-- Replace slice k. -/
def Gang.setSlice (g : Gang) (k : Nat) (x : Slice) : Gang := { g with slices := g.slices.set k x }

/-- Change each slice of a list. -/
def Gang.mapSlices (g : Gang) (ks : List Nat) (f : Nat → Slice → Slice) : Gang :=
  { g with slices := g.slices.mapIdx (fun k x => if ks.contains k then f k x else x) }

/-- The slices of the part that slice k belongs to: non-exited slices with its part number (R138). -/
def Gang.part (g : Gang) (k : Nat) : List Nat :=
  (List.range 8).filter (fun j => !(g.slice j).exited && (g.slice j).part == (g.slice k).part)

/-- The slices of a gang that have not exited. -/
def Gang.liveSlices (g : Gang) : List Nat := (List.range 8).filter (fun j => !(g.slice j).exited)

/-- A slice mask of a list of slices. -/
def sliceMask (ks : List Nat) : BitVec 8 := ks.foldl (fun m k => m ||| BitVec.twoPow 8 k) 0

/-- The slices of a mask. -/
def slicesOf (m : BitVec 8) : List Nat := (List.range 8).filter (fun k => m.getLsbD k)

/-- A lane mask of a list of lanes. -/
def laneMask (ls : List Nat) : LaneMask := ls.foldl (fun m k => m ||| BitVec.twoPow 32 k) 0

/-- Split the slices of a part into one part per program counter; each part takes the number of its lowest slice
(R138). -/
def Gang.split (g : Gang) (ks : List Nat) : Gang :=
  let pcOf := fun k => (g.slice k).pc
  g.mapSlices ks (fun k x =>
    match ks.find? (fun j => !(g.slice j).exited && pcOf j == pcOf k) with
    | some j => { x with part := j }
    | none => x)

/-- A gang at the first instruction of its crew: registers zero, every slice at the code address with a full mask, one
part (03_encoding R60, 06_control R137, R138). -/
def Gang.start (code : W64) : Gang := { slices := List.replicate 8 { pc := code } }

/-- The part of a slice mask raises flags: they are ORed into `af` (R87, R175). Fences of other parts remember them, so
that a rollback of those parts does not lose them. -/
def Gang.raise (g : Gang) (m : BitVec 8) (flags : W32) : Gang :=
  { g with
    regs := g.regs.raise flags
    fences := g.fences.map (fun f => if (f.slices &&& m) = 0 then { f with others := f.others ||| flags } else f) }

/-- Flags of several lanes, ORed (R87, R171). -/
def orFlags (fs : List Nat) : Nat := fs.foldl (fun a b => a ||| b) 0

/-! ### Crews, cores, clusters, dies -/

/-- The die of a core, of a cluster; the cluster of a core; the die of a home slice (01_machine R10, 09_memory R188). -/
def dieOfCore (n : Nat) : Nat := n / 128
def clusterOfCore (n : Nat) : Nat := n / 8
def dieOfCluster (n : Nat) : Nat := n / 16

/-- The die on which a unit lies; ports belong to die 0 (14_ordering R279). -/
def UnitId.die : UnitId → Nat
  | .core n => dieOfCore n
  | .vintner c => dieOfCluster c
  | .decanter c => dieOfCluster c
  | .coprocessor c => dieOfCluster c
  | .engine d => d
  | .cellarer d => d
  | .hostPort => 0
  | .storagePort => 0
  | .peerPort _ => 0
  | .hart n => n / 8

def State.crew? (s : State) (c : Nat) : Option Crew := SMap.find s.crews c
def State.setCrew (s : State) (c : Nat) (x : Crew) : State := { s with crews := SMap.put s.crews c x }
def State.gang? (s : State) (c g : Nat) : Option Gang :=
  match s.crew? c with
  | some x => SMap.find x.gangs g
  | none => none
def State.setGang (s : State) (c g : Nat) (x : Gang) : State :=
  match s.crew? c with
  | some y => s.setCrew c { y with gangs := SMap.put y.gangs g x }
  | none => s
def State.core (s : State) (n : Nat) : CoreState := SMap.getD s.cores n {}
def State.setCore (s : State) (n : Nat) (x : CoreState) : State := { s with cores := SMap.put s.cores n x }
def State.cluster (s : State) (n : Nat) : Cluster := SMap.getD s.clusters n {}
def State.setCluster (s : State) (n : Nat) (x : Cluster) : State := { s with clusters := SMap.put s.clusters n x }
def State.die (s : State) (n : Nat) : Die := SMap.getD s.dies n {}
def State.setDie (s : State) (n : Nat) (x : Die) : State := { s with dies := SMap.put s.dies n x }
def State.hart (s : State) (n : Nat) : Hart := SMap.getD s.harts n {}
def State.setHart (s : State) (n : Nat) (x : Hart) : State := { s with harts := SMap.put s.harts n x }

/-- The core of a crew, 0 when there is none. -/
def State.coreOf (s : State) (c : Nat) : Nat :=
  match s.crew? c with
  | some x => x.core
  | none => 0

/-- Change every gang of every crew. -/
def State.mapGangs (s : State) (f : Nat → Nat → Gang → Gang) : State :=
  { s with crews := s.crews.map (fun p => (p.1, { p.2 with gangs := p.2.gangs.map (fun q => (q.1, f p.1 q.1 q.2)) })) }

/-- Change every registered ring of every die. -/
def State.mapRings (s : State) (f : Ring → Ring) : State :=
  { s with dies := s.dies.map (fun p => (p.1, { p.2 with groups := p.2.groups.map (fun q =>
      (q.1, { q.2 with rings := q.2.rings.map (fun r => (r.1, f r.2)) })) })) }

/-- Take the next free value. -/
def State.nextFree (s : State) : State := { s with free := s.free + 1 }

/-- Take the next serial number. -/
def State.nextSerial (s : State) : State := { s with serial := s.serial + 1 }

/-! ### Fields of a continuation record (05_work R99) -/

/-- Bits hi:lo of a record, as a natural number. -/
def recField (r : BitVec 512) (lo w : Nat) : Nat := (r.extractLsb' lo w).toNat
def recCode (r : BitVec 512) : W64 := r.extractLsb' 0 64
def recFrame (r : BitVec 512) : W64 := r.extractLsb' 64 64
def recJoin (r : BitVec 512) : Nat := recField r 128 32
def recGangs (r : BitVec 512) : Nat := recField r 160 8
def recRegs (r : BitVec 512) : Nat := recField r 168 8
def recClass (r : BitVec 512) : Nat := recField r 176 2
def recService (r : BitVec 512) : Bool := r.getLsbD 178
def recCoresident (r : BitVec 512) : Bool := r.getLsbD 179
def recDrain (r : BitVec 512) : Nat := recField r 192 16
def recGroup (r : BitVec 512) (n : Nat) : Nat := recField r (208 + 8 * n) 8
def recTilesN (r : BitVec 512) : Nat := recField r 240 16
def recTiles (r : BitVec 512) : W64 := r.extractLsb' 256 64
def recParent (r : BitVec 512) : W64 := r.extractLsb' 320 64
def recArg0 (r : BitVec 512) : W64 := r.extractLsb' 384 64
def recArg1 (r : BitVec 512) : W64 := r.extractLsb' 448 64

/-- The groups a record names: 0xFF is none. -/
def recGroups (r : BitVec 512) : List Nat := ((List.range 4).map (recGroup r)).filter (fun g => g != 255)

end Sys2Proof.Machine
end

