-- ==== Sys2Proof/Machine/Numbers.lean ====
section
/-!
DEFINITION. Numbers to the bit (04_numbers R74 to R96): the floating formats, exact values, the one rounding, the
operations, and the conversions.

Every operation forms an exact value, a natural mantissa times a power of two, with a mark (`sticky`) that the true
value lies strictly between this mantissa and the next; `roundTo` then rounds it once. Codes are natural numbers below
2^(bits of the format). Flags are those of `af`: 1 invalid, 2 divide-by-zero, 4 overflow, 8 underflow, 16 inexact (R173).
-/

namespace Sys2Proof.Machine

/-- The floating formats (R76). -/
inductive FpFmt where
  | f64 | f32 | h16 | bf16 | e4m3 | e5m2 | e2m1
deriving DecidableEq, Repr

/-- Exponent bits. -/
def FpFmt.expBits : FpFmt → Nat
  | .f64 => 11 | .f32 => 8 | .h16 => 5 | .bf16 => 8 | .e4m3 => 4 | .e5m2 => 5 | .e2m1 => 2

/-- Mantissa bits. -/
def FpFmt.manBits : FpFmt → Nat
  | .f64 => 52 | .f32 => 23 | .h16 => 10 | .bf16 => 7 | .e4m3 => 3 | .e5m2 => 2 | .e2m1 => 1

/-- Exponent bias. -/
def FpFmt.bias : FpFmt → Nat
  | .f64 => 1023 | .f32 => 127 | .h16 => 15 | .bf16 => 127 | .e4m3 => 7 | .e5m2 => 15 | .e2m1 => 1

/-- Bits of a code. -/
def FpFmt.bits (f : FpFmt) : Nat := 1 + f.expBits + f.manBits

/-- The sign bit's weight. -/
def FpFmt.signBit (f : FpFmt) : Nat := 2 ^ (f.expBits + f.manBits)

/-- Infinity exists in this format. -/
def FpFmt.hasInf : FpFmt → Bool
  | .e4m3 => false | .e2m1 => false | _ => true

/-- The code of the largest finite magnitude. -/
def FpFmt.largest (f : FpFmt) : Nat :=
  match f with
  | .e4m3 => 0x7E
  | .e2m1 => 0x7
  | _ => (2 ^ f.expBits - 1) * 2 ^ f.manBits - 1

/-- The code of +∞. -/
def FpFmt.infCode (f : FpFmt) : Nat := (2 ^ f.expBits - 1) * 2 ^ f.manBits

/-- The default NaN; E2M1 has none and a NaN becomes +0 there (R76, R89). -/
def FpFmt.nanCode (f : FpFmt) : Nat :=
  match f with
  | .e4m3 => 0x7F
  | .e2m1 => 0
  | _ => f.infCode + 2 ^ (f.manBits - 1)

/-- The formats whose subnormals the flush bit reaches (R85). -/
def FpFmt.flushes : FpFmt → Bool
  | .f64 => true | .f32 => true | .h16 => true | .bf16 => true | _ => false

/-- The value of a code. -/
inductive FpVal where
  | nan (signalling : Bool)
  | inf (neg : Bool)
  | zero (neg : Bool)
  /-- mant × 2^exp, mant above 0. -/
  | num (neg : Bool) (mant : Nat) (exp : Int)
deriving DecidableEq, Repr

/-- The value of a code of a format (R76, R77). -/
def FpFmt.value (f : FpFmt) (code : Nat) : FpVal :=
  let neg := decide (f.signBit ≤ code)
  let mag := code % f.signBit
  let e := mag / 2 ^ f.manBits
  let m := mag % 2 ^ f.manBits
  if f = .e4m3 ∧ mag = 0x7F then .nan false
  else if f.hasInf ∧ e = 2 ^ f.expBits - 1 then
    if m = 0 then .inf neg else .nan (decide (m < 2 ^ (f.manBits - 1)))
  else if mag = 0 then .zero neg
  else if e = 0 then .num neg m (1 - (f.bias : Int) - f.manBits)
  else .num neg (2 ^ f.manBits + m) ((e : Int) - f.bias - f.manBits)

/-- A code is subnormal. -/
def FpFmt.subnormal (f : FpFmt) (code : Nat) : Bool :=
  let mag := code % f.signBit
  decide (mag ≠ 0) && decide (mag < 2 ^ f.manBits)

/-- Rounding mode (0 nearest even, 1 toward zero, 2 toward −∞, 3 toward +∞), saturation and flush of a kind-2 hint
(R66, R83 to R85). -/
structure Rnd where
  mode : Nat := 0
  sat : Bool := false
  ftz : Bool := false
deriving DecidableEq, Repr

/-- The modifiers of a kind-2 hint's payload. -/
def Rnd.ofPayload (p : Nat) : Rnd := { mode := p % 4, sat := p.testBit 2, ftz := p.testBit 3 }

/-- The code an operand is read as under the flush bit (R85). -/
def FpFmt.input (f : FpFmt) (r : Rnd) (code : Nat) : Nat :=
  if r.ftz && f.flushes && f.subnormal code then (if f.signBit ≤ code then f.signBit else 0) else code

/-- An exact value: (−1)^neg × mant × 2^exp, and with `sticky` strictly between this mantissa and the next. -/
structure Exact where
  neg : Bool
  mant : Nat
  exp : Int
  sticky : Bool := false
deriving DecidableEq, Repr

/-- Bits of a natural number: 0 has none. -/
def bitLen (n : Nat) : Nat := if n = 0 then 0 else n.log2 + 1

/-- Round mant × 2^(−sh) (plus sticky) to an integer: the integer, and whether it differs (R83). -/
def roundShift (mode : Nat) (neg : Bool) (mant : Nat) (sticky : Bool) (sh : Nat) : Nat × Bool :=
  let q := mant / 2 ^ sh
  let rem := mant % 2 ^ sh
  let inexact := decide (rem ≠ 0) || sticky
  let up :=
    match mode with
    | 0 =>
      let twice := 2 * rem
      if twice < 2 ^ sh then false
      else if twice = 2 ^ sh then (if sh = 0 then false else sticky || q % 2 == 1)
      else true
    | 1 => false
    | 2 => neg && inexact
    | _ => !neg && inexact
  (if up then q + 1 else q, inexact)

/-- Round an exact value at the binary place `lsb`: the integer multiple of 2^lsb, and whether it differs. -/
def roundAt (mode : Nat) (x : Exact) (lsb : Int) : Nat × Bool :=
  if x.exp ≤ lsb then roundShift mode x.neg x.mant x.sticky (lsb - x.exp).toNat
  else roundShift mode x.neg (x.mant * 2 ^ (x.exp - lsb).toNat) x.sticky 0

/-- A zero code of a sign. -/
def FpFmt.zeroCode (f : FpFmt) (neg : Bool) : Nat := if neg then f.signBit else 0

/-- What an overflow delivers (R84). -/
def FpFmt.overflowCode (f : FpFmt) (r : Rnd) (neg : Bool) : Nat :=
  let toInf := f.hasInf && !r.sat &&
    (match r.mode with | 0 => true | 1 => false | 2 => neg | _ => !neg)
  (if toInf then f.infCode else f.largest) + f.zeroCode neg

/-- The one rounding of an exact value to a format: code and flags (R83 to R86). -/
def roundTo (f : FpFmt) (r : Rnd) (x : Exact) : Nat × Nat :=
  if x.mant = 0 then (f.zeroCode x.neg, if x.sticky then 24 else 0)
  else
    let lead : Int := x.exp + (bitLen x.mant : Int) - 1
    let unb := roundAt r.mode x (lead - f.manBits)
    let lead' : Int := if unb.1 = 2 ^ (f.manBits + 1) then lead + 1 else lead
    let tiny := decide (lead' < 1 - (f.bias : Int))
    let lsb : Int := max (lead - f.manBits) (1 - (f.bias : Int) - f.manBits)
    let q := roundAt r.mode x lsb
    let code := ((lsb + f.bias + f.manBits - 1).toNat) * 2 ^ f.manBits + q.1
    if f.largest < code then (f.overflowCode r x.neg, 20)
    else if tiny && r.ftz && f.flushes then (f.zeroCode x.neg, 24)
    else (code + f.zeroCode x.neg, (if q.2 then 16 else 0) + (if tiny && q.2 then 8 else 0))

/-- The default NaN of a format, with invalid when asked. -/
def FpFmt.nan (f : FpFmt) (invalid : Bool) : Nat × Nat := (f.nanCode, if invalid then 1 else 0)

/-- A value reads as a signalling NaN. -/
def FpVal.snan : FpVal → Bool
  | .nan b => b
  | _ => false

/-- A value is a NaN. -/
def FpVal.isNan : FpVal → Bool
  | .nan _ => true
  | _ => false

/-- The sign of a value. -/
def FpVal.neg : FpVal → Bool
  | .nan _ => false
  | .inf n => n
  | .zero n => n
  | .num n _ _ => n

/-- The opposite value. -/
def FpVal.negate : FpVal → FpVal
  | .nan b => .nan b
  | .inf n => .inf (!n)
  | .zero n => .zero (!n)
  | .num n m e => .num (!n) m e

/-- The exact value of a finite one. -/
def FpVal.exact : FpVal → Exact
  | .num n m e => { neg := n, mant := m, exp := e }
  | v => { neg := v.neg, mant := 0, exp := 0 }

/-- The mantissa of an exact value as an integer at a place not above its own. -/
def Exact.at_ (x : Exact) (lsb : Int) : Int :=
  let m : Int := ((x.mant * 2 ^ (x.exp - lsb).toNat : Nat) : Int)
  if x.neg then -m else m

/-- The exact sum of two exact values; a zero sum of opposite values takes the sign of R83. -/
def Exact.add (mode : Nat) (x y : Exact) : Exact :=
  if x.mant = 0 ∧ y.mant = 0 then
    { neg := if x.neg = y.neg then x.neg else decide (mode = 2), mant := 0, exp := 0 }
  else
    let lsb := if x.mant = 0 then y.exp else if y.mant = 0 then x.exp else min x.exp y.exp
    let t : Int := (if x.mant = 0 then 0 else x.at_ lsb) + (if y.mant = 0 then 0 else y.at_ lsb)
    if t = 0 then { neg := decide (mode = 2), mant := 0, exp := 0 }
    else { neg := decide (t < 0), mant := t.natAbs, exp := lsb }

/-- The exact product. -/
def Exact.mul (x y : Exact) : Exact := { neg := x.neg != y.neg, mant := x.mant * y.mant, exp := x.exp + y.exp }

/-- Sum of two values (R77, R83). -/
def fpAddV (f : FpFmt) (r : Rnd) (a b : FpVal) : Nat × Nat :=
  match a, b with
  | .nan x, y => f.nan (x || y.snan)
  | x, .nan y => f.nan (x.snan || y)
  | .inf m, .inf n => if m = n then (f.infCode + f.zeroCode m, 0) else f.nan true
  | .inf m, _ => (f.infCode + f.zeroCode m, 0)
  | _, .inf n => (f.infCode + f.zeroCode n, 0)
  | x, y => roundTo f r (x.exact.add r.mode y.exact)

/-- r(A + B). -/
def fpAdd (f : FpFmt) (r : Rnd) (a b : Nat) : Nat × Nat :=
  fpAddV f r (f.value (f.input r a)) (f.value (f.input r b))

/-- r(A − B). -/
def fpSub (f : FpFmt) (r : Rnd) (a b : Nat) : Nat × Nat :=
  fpAddV f r (f.value (f.input r a)) (f.value (f.input r b)).negate

/-- r(A × B). -/
def fpMul (f : FpFmt) (r : Rnd) (a b : Nat) : Nat × Nat :=
  match f.value (f.input r a), f.value (f.input r b) with
  | .nan x, y => f.nan (x || y.snan)
  | x, .nan y => f.nan (x.snan || y)
  | .inf _, .zero _ => f.nan true
  | .zero _, .inf _ => f.nan true
  | .inf m, y => (f.infCode + f.zeroCode (m != y.neg), 0)
  | x, .inf n => (f.infCode + f.zeroCode (x.neg != n), 0)
  | x, y => roundTo f r (x.exact.mul y.exact)

/-- r(A × B + D), the product negated first for `fnma`; 0 × ∞ is invalid whatever D is (R178). -/
def fpFma (f : FpFmt) (r : Rnd) (negate : Bool) (a b d : Nat) : Nat × Nat :=
  let x := let v := f.value (f.input r a); if negate then v.negate else v
  let y := f.value (f.input r b)
  let z := f.value (f.input r d)
  let snan := x.snan || y.snan || z.snan
  let zeroInf := match x, y with
    | .inf _, .zero _ => true
    | .zero _, .inf _ => true
    | _, _ => false
  if zeroInf then f.nan true
  else if x.isNan || y.isNan || z.isNan then f.nan snan
  else
    let pneg := x.neg != y.neg
    match x, y, z with
    | .inf _, _, .inf n => if pneg = n then (f.infCode + f.zeroCode n, 0) else f.nan true
    | _, .inf _, .inf n => if pneg = n then (f.infCode + f.zeroCode n, 0) else f.nan true
    | .inf _, _, _ => (f.infCode + f.zeroCode pneg, 0)
    | _, .inf _, _ => (f.infCode + f.zeroCode pneg, 0)
    | _, _, .inf n => (f.infCode + f.zeroCode n, 0)
    | _, _, _ => roundTo f r ((x.exact.mul y.exact).add r.mode z.exact)

/-- Order of two values that are no NaNs: −1, 0, 1, with −0 = +0. -/
def FpVal.cmp (a b : FpVal) : Int :=
  match a, b with
  | .inf m, .inf n => if m = n then 0 else if m then -1 else 1
  | .inf m, _ => if m then -1 else 1
  | _, .inf n => if n then 1 else -1
  | x, y =>
    let t := (x.exact.add 0 { y.exact with neg := !y.neg })
    if t.mant = 0 then 0 else if t.neg then -1 else 1

/-- minimumNumber and maximumNumber of IEEE 754-2019 (R96). -/
def fpMinMax (f : FpFmt) (r : Rnd) (isMax : Bool) (a b : Nat) : Nat × Nat :=
  let ca := f.input r a
  let cb := f.input r b
  let x := f.value ca
  let y := f.value cb
  let flags := if x.snan || y.snan then 1 else 0
  match x, y with
  | .nan _, .nan _ => (f.nanCode, flags)
  | .nan _, _ => (cb, flags)
  | _, .nan _ => (ca, flags)
  | _, _ =>
    let c := x.cmp y
    let aLess := if c = 0 then x.neg && !y.neg else decide (c < 0)
    let aMore := if c = 0 then y.neg && !x.neg else decide (0 < c)
    (if isMax then (if aMore then ca else if aLess then cb else ca)
     else (if aLess then ca else if aMore then cb else ca), flags)

/-- The compares of major 0x14 (R184): 0 equal, 1 less, 2 less or equal, 3 unordered. -/
def fpCompare (f : FpFmt) (r : Rnd) (op : Nat) (a b : Nat) : Bool × Nat :=
  let x := f.value (f.input r a)
  let y := f.value (f.input r b)
  let un := x.isNan || y.isNan
  let sn := x.snan || y.snan
  let inv := match op with | 1 => un | 2 => un | _ => sn
  let res := match op with
    | 0 => !un && decide (x.cmp y = 0)
    | 1 => !un && decide (x.cmp y < 0)
    | 2 => !un && decide (x.cmp y ≤ 0)
    | _ => un
  (res, if inv then 1 else 0)

/-- `abs`, `neg` and `copysign` on the sign bit (R180): the new sign by `sign`. -/
def fpSign (f : FpFmt) (mag : Nat) (sign : Bool) : Nat × Nat :=
  match f.value mag with
  | .nan s => f.nan s
  | _ => (mag % f.signBit + f.zeroCode sign, 0)

/-- The sign bit of a code. -/
def FpFmt.signOf (f : FpFmt) (code : Nat) : Bool := decide (f.signBit ≤ code)

/-- r(1 ÷ B) (R179). -/
def fpRcp (f : FpFmt) (r : Rnd) (b : Nat) : Nat × Nat :=
  match f.value (f.input r b) with
  | .nan s => f.nan s
  | .inf n => (f.zeroCode n, 0)
  | .zero n => (f.infCode + f.zeroCode n, 2)
  | .num n m e =>
    let k := bitLen m + f.manBits + 4
    roundTo f r { neg := n, mant := 2 ^ k / m, exp := -(k : Int) - e, sticky := decide (2 ^ k % m ≠ 0) }

/-- ⌊√x⌋, one bit at a time from bit `n` − 1 down. -/
def isqrtFrom (x : Nat) : Nat → Nat → Nat
  | 0, r => r
  | n + 1, r => isqrtFrom x n (if (r + 2 ^ n) * (r + 2 ^ n) ≤ x then r + 2 ^ n else r)

/-- ⌊√x⌋. -/
def isqrt (x : Nat) : Nat := isqrtFrom x (bitLen x / 2 + 1) 0

/-- r(√B) (R179). -/
def fpSqrt (f : FpFmt) (r : Rnd) (b : Nat) : Nat × Nat :=
  match f.value (f.input r b) with
  | .nan s => f.nan s
  | .inf n => if n then f.nan true else (f.infCode, 0)
  | .zero n => (f.zeroCode n, 0)
  | .num n m e =>
    if n then f.nan true
    else
      let m0 := if e % 2 = 0 then m else 2 * m
      let e0 := if e % 2 = 0 then e else e - 1
      let t := f.manBits + 4
      let x := m0 * 2 ^ (2 * t)
      let q := isqrt x
      roundTo f r { neg := false, mant := q, exp := e0 / 2 - t, sticky := decide (q * q ≠ x) }

/-- r(1 ÷ √B) (R179). -/
def fpRsqrt (f : FpFmt) (r : Rnd) (b : Nat) : Nat × Nat :=
  match f.value (f.input r b) with
  | .nan s => f.nan s
  | .inf n => if n then f.nan true else (0, 0)
  | .zero n => (f.infCode + f.zeroCode n, 0)
  | .num n m e =>
    if n then f.nan true
    else
      let m0 := if e % 2 = 0 then m else 2 * m
      let e0 := if e % 2 = 0 then e else e - 1
      let t := bitLen m0 + f.manBits + 4
      let x := 2 ^ (2 * t) / m0
      let q := isqrt x
      roundTo f r { neg := false, mant := q, exp := -(t : Int) - e0 / 2, sticky := decide (q * q * m0 ≠ 2 ^ (2 * t)) }

/-- ⌊2^256 × ln 2⌋. -/
def ln2Fix : Nat := 80260960185991308862233904206310070533990667611589946606122867505419956976171

/-- The terms y^k ÷ k! in 256-bit fixed point, summed while fuel lasts. -/
def expSeries (y : Nat) : Nat → Nat → Nat → Nat → Nat
  | 0, _, _, acc => acc
  | fuel + 1, k, t, acc => expSeries y fuel (k + 1) (t * y / 2 ^ 256 / k) (acc + t)

/-- 2^f in 256-bit fixed point for f in [0, 1). -/
def exp2Fix (f : Nat) : Nat := expSeries (f * ln2Fix / 2 ^ 256) 80 1 (2 ^ 256) 0

/-- r(2^B) (R178, R179): the fixed-point value carries more than 240 correct bits (notes/assumptions/20). -/
def fpExp2 (f : FpFmt) (r : Rnd) (b : Nat) : Nat × Nat :=
  match f.value (f.input r b) with
  | .nan s => f.nan s
  | .inf n => if n then (0, 0) else (f.infCode, 0)
  | .zero _ => roundTo f r { neg := false, mant := 1, exp := 0 }
  | .num n m e =>
    if 12 < e + (bitLen m : Int) then
      roundTo f r { neg := false, mant := 1, exp := if n then -10000 else 10000 }
    else
      -- B as a multiple of 2^−200
      let fix : Int := { neg := n, mant := m, exp := e : Exact }.at_ (-200)
      let whole := fix / 2 ^ 200
      let frac := (fix % 2 ^ 200).toNat * 2 ^ 56
      if frac = 0 then roundTo f r { neg := false, mant := 1, exp := whole }
      else roundTo f r { neg := false, mant := exp2Fix frac, exp := whole - 256, sticky := true }

/-- The terms w^(2k+1) ÷ (2k + 1) in 256-bit fixed point. -/
def atanhSeries (w2 : Nat) : Nat → Nat → Nat → Nat → Nat
  | 0, _, _, acc => acc
  | fuel + 1, k, t, acc => atanhSeries w2 fuel (k + 2) (t * w2 / 2 ^ 256) (acc + t / k)

/-- log2 z in 256-bit fixed point, z in [1, 2) in 256-bit fixed point. -/
def log2Fix (z : Nat) : Nat :=
  let w := (z - 2 ^ 256) * 2 ^ 256 / (z + 2 ^ 256)
  2 * atanhSeries (w * w / 2 ^ 256) 90 1 w 0 * 2 ^ 256 / ln2Fix

/-- r(log2 B) (R178, R179; notes/assumptions/20). -/
def fpLog2 (f : FpFmt) (r : Rnd) (b : Nat) : Nat × Nat :=
  match f.value (f.input r b) with
  | .nan s => f.nan s
  | .inf n => if n then f.nan true else (f.infCode, 0)
  | .zero _ => (f.infCode + f.signBit, 0)
  | .num n m e =>
    if n then f.nan true
    else
      let len := bitLen m
      let lead : Int := e + (len : Int) - 1
      if m = 2 ^ (len - 1) then
        roundTo f r { neg := decide (lead < 0), mant := lead.natAbs, exp := 0 }
      else
        let v : Int := lead * 2 ^ 256 + (log2Fix (m * 2 ^ (257 - len)) : Nat)
        roundTo f r { neg := decide (v < 0), mant := if v < 0 then v.natAbs - 1 else v.natAbs, exp := -256, sticky := true }

/-! ### Register types and conversions (03_encoding R65, R74, R88 to R91) -/

/-- A register type: floating, or an integer of a width and signedness. -/
inductive RegType where
  | fp (f : FpFmt)
  | int (bits : Nat) (signed : Bool)
deriving DecidableEq, Repr

/-- The type of a code (R65); code 15 names none. -/
def RegType.ofCode : Nat → Option RegType
  | 0 => some (.fp .f64) | 1 => some (.fp .f32) | 2 => some (.fp .h16) | 3 => some (.fp .bf16)
  | 4 => some (.fp .e4m3) | 5 => some (.fp .e5m2) | 6 => some (.fp .e2m1)
  | 7 => some (.int 8 true) | 8 => some (.int 8 false) | 9 => some (.int 16 true) | 10 => some (.int 16 false)
  | 11 => some (.int 32 true) | 12 => some (.int 32 false) | 13 => some (.int 64 true) | 14 => some (.int 64 false)
  | _ => none

/-- Bits of a type. -/
def RegType.bits : RegType → Nat
  | .fp f => f.bits
  | .int b _ => b

/-- A type is held in a pair. -/
def RegType.wide (t : RegType) : Bool := t.bits == 64

/-- A source of a conversion: a floating value or an integer. -/
inductive Source where
  | fp (v : FpVal)
  | int (n : Int)
deriving DecidableEq, Repr

/-- The two's-complement or natural reading of the low bits of a value. -/
def readInt (bits : Nat) (signed : Bool) (v : Nat) : Int :=
  let x := v % 2 ^ bits
  if signed && decide (2 ^ (bits - 1) ≤ x) then (x : Int) - 2 ^ bits else x

/-- The source value of a register's code (R74). -/
def RegType.source (t : RegType) (r : Rnd) (v : Nat) : Source :=
  match t with
  | .fp f => .fp (f.value (f.input r (v % 2 ^ f.bits)))
  | .int b sg => .int (readInt b sg v)

/-- The exact value of an integer. -/
def Exact.ofInt (n : Int) : Exact := { neg := decide (n < 0), mant := n.natAbs, exp := 0 }

/-- Least and greatest value of an integer type. -/
def intMin (bits : Nat) (signed : Bool) : Int := if signed then -(2 ^ (bits - 1) : Int) else 0
def intMax (bits : Nat) (signed : Bool) : Int := if signed then (2 ^ (bits - 1) : Int) - 1 else (2 ^ bits : Int) - 1

/-- The two's-complement code of an integer in `bits` bits. -/
def intCode (bits : Nat) (n : Int) : Nat := (n % (2 ^ bits : Int)).toNat

/-- Conversion to a floating format (R88, R89). -/
def convertFp (f : FpFmt) (r : Rnd) (x : Source) : Nat × Nat :=
  match x with
  | .int n => roundTo f r (Exact.ofInt n)
  | .fp (.nan s) => if f = .e2m1 then (0, 1) else f.nan s
  | .fp (.inf n) => if f.hasInf then (f.infCode + f.zeroCode n, 0) else (f.largest + f.zeroCode n, 1)
  | .fp v => roundTo f r v.exact

/-- Conversion to an integer type (R89, R90). -/
def convertInt (bits : Nat) (signed : Bool) (r : Rnd) (x : Source) : Int × Nat :=
  let lo := intMin bits signed
  let hi := intMax bits signed
  let clamp := fun (n : Int) (nx : Bool) =>
    if n < lo then (lo, 1) else if hi < n then (hi, 1) else (n, if nx then 16 else 0)
  match x with
  | .int n => clamp n false
  | .fp (.nan _) => (0, 1)
  | .fp (.inf n) => (if n then lo else hi, 1)
  | .fp v =>
    let q := roundAt r.mode v.exact 0
    clamp (if v.neg then -(q.1 : Int) else q.1) q.2

/-- A conversion's result as its register code: an integer is extended as R74 gives, here to 64 bits, of which a single
register takes the low 32. -/
def convert (t : RegType) (r : Rnd) (x : Source) : Nat × Nat :=
  match t with
  | .fp f => convertFp f r x
  | .int b sg =>
    let q := convertInt b sg r x
    (intCode (if b = 64 then 64 else 32) q.1, q.2)

/-- `cvt` between two types (R185): a floating type to itself keeps its code, but for NaNs and the flush bit. -/
def cvtCode (dst src : RegType) (r : Rnd) (v : Nat) : Nat × Nat :=
  match dst, src with
  | .fp f, .fp g =>
    if f = g then
      match f.value (v % 2 ^ f.bits) with
      | .nan s => f.nan s
      | _ => (f.input r (v % 2 ^ f.bits), 0)
    else convert dst r (src.source r v)
  | _, _ => convert dst r (src.source r v)

/-- The exact value of a block element: mantissa code of w bits and exponent byte (R78). R78 does not say which NaN an element of
a NaN tile is: here it is a quiet one, whose conversion sets no flag (notes/assumptions/65). -/
def blockValue (w m e : Nat) : Source :=
  if e = 255 then .fp (.nan false)
  else
    let n := readInt w true m
    if n = 0 then .fp (.zero false)
    else .fp (.num (decide (n < 0)) n.natAbs ((e : Int) - 127 - ((w : Int) - 1)))

end Sys2Proof.Machine
end

