-- ==== Sys2Proof/Machine/Elem.lean ====
section
/-!
DEFINITION. The elements of page formats (04_numbers R75 to R82, 09_memory_access R202): where an element lies in a
region of a format and geometry, and its exact value. Memory instructions, tiles, the Decanter and the Vintner share it.

A region is read through a function from byte offsets to bytes.
-/

namespace Sys2Proof.Machine

/-- Bits of an element of a format (R80). -/
def elemBits : Nat → Nat
  | 1 => 64
  | 2 => 32
  | 3 => 16
  | 4 => 16
  | 7 => 4
  | 9 => 4
  | 11 => 6
  | 12 => 4
  | 13 => 3
  | 14 => 2
  | _ => 8

/-- A block format (R78, R80). -/
def blockFormat (fmt : Nat) : Bool := decide (10 ≤ fmt) && decide (fmt ≤ 14)

/-- The floating format of a linear format code. -/
def linearFp : Nat → FpFmt
  | 1 => .f64
  | 2 => .f32
  | 3 => .h16
  | 4 => .bf16
  | 5 => .e4m3
  | 6 => .e5m2
  | _ => .e2m1

/-- The exact value of a code of a linear format (R75, R76). -/
def linearValue (fmt code : Nat) : Source :=
  if fmt = 8 then .int (readInt 8 true code)
  else if fmt = 9 then .int (readInt 4 true code)
  else .fp ((linearFp fmt).value code)

/-- The code a value has in a linear format, and its flags (R88 to R91). -/
def linearCode (fmt : Nat) (r : Rnd) (x : Source) : Nat × Nat :=
  if fmt = 8 then let q := convertInt 8 true r x; (intCode 8 q.1, q.2)
  else if fmt = 9 then let q := convertInt 4 true r x; (intCode 4 q.1, q.2)
  else convertFp (linearFp fmt) r x

/-- Bytes of a unit, of its data region; elements of a stripe (R81, R82). -/
def unitBytes : Nat := 1048576
def dataBytes : Nat := 1032192
def stripeElems : Nat := 3072

/-- Edge of a square tile of a geometry. -/
def tileEdge (geo : Nat) : Nat := if geo = 1 then 16 else 32

/-- Square tiles in a unit (R81). -/
def tilesPerUnit (w edge : Nat) : Nat := dataBytes * 8 / (edge * edge * w)

/-- Bytes of a stripe, and stripes in a unit (R82). -/
def stripeBytes (w n : Nat) : Nat := 16 + 32 * n * w
def stripesPerUnit (w n : Nat) : Nat := min (dataBytes / stripeBytes w n) 5456

/-- `n` bytes of a region, little-endian. -/
def regionNat (rd : Nat → Byte) (off n : Nat) : Nat := bytesNat ((List.range n).map (fun i => rd (off + i)))

/-- `w` bits of the bit string that starts at a byte (R79). -/
def bitString (rd : Nat → Byte) (start bit w : Nat) : Nat :=
  natBits (regionNat rd (start + bit / 8) ((bit % 8 + w + 7) / 8)) (bit % 8) w

/-- The N of a unit's exponent region: one of 2, 3, 4, 6 and 8, with bytes 1 to 15 zero (R82). -/
def unitN (rd : Nat → Byte) (u : Nat) : Option Nat :=
  let n := (rd (u * unitBytes + dataBytes)).toNat
  if (n == 2 || n == 3 || n == 4 || n == 6 || n == 8) && regionNat rd (u * unitBytes + dataBytes + 1) 15 == 0 then some n
  else none

/-- The set bits of a natural number among its low `n`. -/
def popBelow (x n : Nat) : Nat := ((List.range n).filter (fun i => x.testBit i)).length

/-- The first sixteen bytes of a stripe are well formed: eight masks of population N, and zeros (R82). -/
def stripeOk (word n : Nat) : Bool :=
  decide (word < 2 ^ 96) && (List.range 8).all (fun j => popBelow (natBits word (12 * j) 12) 12 == n)

/-- Where an element of a block region lies: unit, and within it the first byte of its data, the bit of its mantissa
there, and the byte of its exponent; for a stripe, its first byte, K row and column. -/
structure BlockSpot where
  unit : Nat
  data : Nat
  bit : Nat
  exp : Nat
  row : Nat
  col : Nat
deriving DecidableEq, Repr

/-- Where element e of a square geometry lies (R81, R202). -/
def squareSpot (w edge e : Nat) : BlockSpot :=
  let size := edge * edge
  let per := tilesPerUnit w edge
  let t := e % (per * size) / size
  let q := e % size
  { unit := e / (per * size), data := t * (size * w / 8), bit := q * w, exp := dataBytes + t, row := q / edge, col := q % edge }

/-- Where element e of N-of-12 stripes lies, with the stripes per unit of N (R82, R202). The bit is that of the first
mantissa. -/
def stripeSpot (w n e : Nat) : BlockSpot :=
  let per := stripesPerUnit w n
  let s := e % (per * stripeElems) / stripeElems
  let k := e % stripeElems / 32
  { unit := e / (per * stripeElems), data := s * stripeBytes w n, bit := 128, exp := dataBytes + 16 + 3 * s + k / 32
    row := k, col := e % 32 }

/-- Where element e of a block format lies; `n` is the N of the unit at the base (ignored for squares). -/
def blockSpot (fmt geo n e : Nat) : BlockSpot :=
  if geo = 3 then stripeSpot (elemBits fmt) n e else squareSpot (elemBits fmt) (tileEdge geo) e

/-- The bit of an element's mantissa in its stripe's bit string; none when its row is absent (R82). -/
def stripeBit (w n word : Nat) (b : BlockSpot) : Option Nat :=
  let j := b.row / 12
  let mask := natBits word (12 * j) 12
  if mask.testBit (b.row % 12) then some (((j * n + popBelow mask (b.row % 12)) * 32 + b.col) * w) else none

/-- The mantissa of an element of a stripe: zero when its row is absent (R82). -/
def stripeMantissa (w n word : Nat) (rd : Nat → Byte) (b : BlockSpot) : Nat :=
  match stripeBit w n word b with
  | some bit => bitString rd (b.unit * unitBytes + b.data + 16) bit w
  | none => 0

/-- The value of element e of a region of a block format; none where the region is malformed (R78, R81, R82). -/
def blockElem (fmt geo n : Nat) (rd : Nat → Byte) (e : Nat) : Option Source :=
  let w := elemBits fmt
  let b := blockSpot fmt geo n e
  let ex := (rd (b.unit * unitBytes + b.exp)).toNat
  if geo = 3 then
    let word := regionNat rd (b.unit * unitBytes + b.data) 16
    if unitN rd b.unit = some n ∧ stripeOk word n then some (blockValue w (stripeMantissa w n word rd b) ex) else none
  else some (blockValue w (bitString rd (b.unit * unitBytes + b.data) b.bit w) ex)

/-- The ranges that the value of an element depends on within its unit: first byte and length. -/
def blockRanges (fmt geo n : Nat) (rd : Nat → Byte) (b : BlockSpot) : List (Nat × Nat) :=
  let w := elemBits fmt
  if geo = 3 then
    let m := match stripeBit w n (regionNat rd (b.unit * unitBytes + b.data) 16) b with
      | some bit => [(b.data + 16 + bit / 8, (bit % 8 + w + 7) / 8)]
      | none => []
    [(b.data, 16), (dataBytes, 16), (b.exp, 1)] ++ m
  else [(b.data + b.bit / 8, (b.bit % 8 + w + 7) / 8), (b.exp, 1)]

/-- The value of element e of a linear region that starts at a byte (R202). -/
def linearElem (fmt : Nat) (rd : Nat → Byte) (e : Nat) : Source :=
  linearValue fmt (bitString rd 0 (e * elemBits fmt) (elemBits fmt))

/-- The register types of `lde` and `ste` by field w (R201). -/
def memType (w : Nat) : RegType :=
  match w with
  | 0 => .fp .f32
  | 1 => .fp .f64
  | 2 => .fp .h16
  | 3 => .fp .bf16
  | _ => .int 32 true

/-- Write a datum of a register type to a lane. -/
def putType (t : RegType) (d : Nat) (q : Regs) (i v : Nat) : Regs := putWidth (if t.wide then 3 else 2) d q i v

/-- The datum of a register type of a lane. -/
def getType (t : RegType) (d : Nat) (q : Regs) (i : Nat) : Nat := getWidth (if t.wide then 3 else 2) d q i

end Sys2Proof.Machine
end

