-- ==== Sys2Proof/Machine/Home.lean ====
section
/-!
DEFINITION. The home slices and the copies of their lines (09_memory R187 to R198, 13_atomics R250 to R269, 14_ordering R284
to R293): which lines a slice holds and which a core's data cache does, line requests and access counters, performing a
write with the directory, watches, reservations, WS tags and fence rollbacks that go with it, and the operations of atomics
and reductions.
-/

namespace Sys2Proof.Machine

/-- The number of the 128-byte line of a physical address. -/
def lineOf (pa : Nat) : Nat := pa / 128

/-- The home slice of a physical address (R188). -/
def homeOf (pa : Nat) : Nat :=
  let f := fun lo w => pa / 2 ^ lo % 2 ^ w
  f 7 8 ^^^ f 15 8 ^^^ f 23 8 ^^^ f 31 8 ^^^ f 39 8 ^^^ f 47 1

/-- The end of the module's DRAM (24_ports R451). -/
def dramEnd : Nat := 2 ^ 39

/-! ### Operations on locations (R255, R257) -/

/-- The new value of an integer operation on `bits` bits; none when a compare fails. -/
def intOp (op : AtomOp) (bits old b compare : Nat) : Option Nat :=
  let pick := fun (signed less : Bool) =>
    if (decide (readInt bits signed b < readInt bits signed old)) = less then b else old
  match op with
  | .add => some ((old + b) % 2 ^ bits)
  | .and => some (old &&& b)
  | .or => some (old ||| b)
  | .xor => some (old ^^^ b)
  | .minS => some (pick true true)
  | .maxS => some (pick true false)
  | .minN => some (pick false true)
  | .maxN => some (pick false false)
  | .xchg => some b
  | .cas => if old = compare then some b else none

/-- One floating operation on one element. -/
def floatOp1 (op : FloatOp) (f : FpFmt) (old b : Nat) : Nat × Nat :=
  match op with
  | .add => fpAdd f {} old b
  | .min => fpMinMax f {} false old b
  | .max => fpMinMax f {} true old b

/-- Both halves of a packed pair, each on its own; flags ORed. -/
def packed2 (f : Nat → Nat → Nat × Nat) (a b : Nat) : Nat × Nat :=
  let lo := f (a % 65536) (b % 65536)
  let hi := f (a / 65536 % 65536) (b / 65536 % 65536)
  (lo.1 + 65536 * hi.1, lo.2 ||| hi.2)

/-- A floating operation of a home slice: the new value and its flags (R255). -/
def floatOp (op : FloatOp) (fmt : FloatFmt) (old b : Nat) : Nat × Nat :=
  match fmt with
  | .f32 => floatOp1 op .f32 old b
  | .f64 => floatOp1 op .f64 old b
  | .bf16 => floatOp1 op .bf16 (old % 65536) (b % 65536)
  | .bf16x2 => packed2 (floatOp1 op .bf16) old b
  | .h16x2 => packed2 (floatOp1 op .h16) old b

/-- The new value (none: no write) and the flags of an operation on `size` bytes. -/
def HomeOp.apply (op : HomeOp) (size old b compare : Nat) : Option Nat × Nat :=
  match op with
  | .int o => (intOp o (8 * size) old b compare, 0)
  | .float o f => let r := floatOp o f old b; (some r.1, r.2)

/-! ### Rollback of a fence (R269) -/

/-- A register table with the entries of some lanes or slices taken from another: `inside` says which keys. -/
def mergeTable {α : Type} (cur snap : SMap α) (inside : Nat → Bool) : SMap α :=
  (snap.filter (fun p => inside p.1)).foldl (fun m p => SMap.put m p.1 p.2) (cur.filter (fun p => !inside p.1))

/-- The lanes of a slice mask (00_scope R6). -/
def lanesOfMask (m : BitVec 8) : LaneMask := laneMask ((List.range 32).filter (fun i => m.getLsbD (i / 4)))

/-- Registers of the slices of a mask restored from a snapshot; `others` are the flags other parts raised since. -/
def Regs.restore (cur snap : Regs) (m : BitVec 8) (others : W32) : Regs :=
  let byLane := fun k => m.getLsbD (k % 32 / 4)
  let lanes := lanesOfMask m
  { cur with
    v := mergeTable cur.v snap.v byLane
    s := mergeTable cur.s snap.s (fun k => m.getLsbD (k / 64))
    p := (List.range 7).foldl (fun t k =>
      SMap.setD t k ((cur.getPs k &&& ~~~ lanes) ||| (snap.getPs k &&& lanes)) 0) cur.p
    lk := mergeTable cur.lk snap.lk byLane
    mq := mergeTable cur.mq snap.mq byLane
    mkr := mergeTable cur.mkr snap.mkr byLane
    af := snap.af ||| others }

/-- The entries of a store buffer without those of the mask's parts after the mark of a fence. -/
def dropAfter (id : Nat) (m : BitVec 8) : List BufEntry → Bool → List BufEntry
  | [], _ => []
  | e :: t, seen =>
    let here := seen || (match e.op with | .fence n => n == id | _ => false)
    if seen && (e.slices &&& m) != 0 then dropAfter id m t here else e :: dropAfter id m t here

/-- Roll the part of a fence back to it: buffered stores and loads after it, registers and control state are as they stood. -/
def Gang.rollback (g : Gang) (f : Fence) : Gang :=
  { g with
    regs := g.regs.restore f.regs f.slices f.others
    slices := g.slices.mapIdx (fun k x => if f.slices.getLsbD k then f.control.getD k x else x)
    buffer := dropAfter f.id f.slices g.buffer false
    loads := g.loads.filter (fun l => decide (l.past ≠ some f.id))
    fences := g.fences.map (fun h =>
      if h.id = f.id then { h with rollbacks := h.rollbacks + 1, lines := [], back := true } else h) }

/-- Roll back every fence of a gang whose speculation set holds the line (R269). -/
def Gang.disturb (g : Gang) (line : Nat) : Gang :=
  (g.fences.filter (fun f => f.lines.contains line)).foldl Gang.rollback g

/-- Roll back the parts of one core that read the line past a fence, but for one part. -/
def State.disturbCore (s : State) (core line : Nat) (but : Option (Nat × Nat × BitVec 8)) : State :=
  s.mapGangs (fun c n g =>
    if s.coreOf c ≠ core then g
    else
      let own := fun (f : Fence) => match but with
        | some (bc, bg, m) => c == bc && n == bg && (f.slices &&& m) != 0
        | none => false
      (g.fences.filter (fun f => f.lines.contains line && !own f)).foldl Gang.rollback g)

/-! ### Who asks (R198, R275) -/

/-- The die a writer issues from; none for another module. -/
def State.writerDie (s : State) : Writer → Option Nat
  | .gang c _ _ => some (dieOfCore (s.coreOf c))
  | .unit u => some u.die
  | .cop cl _ => some (dieOfCluster cl)
  | .module _ => none

/-- The guest of a crew, 0 when there is none. -/
def State.crewGuest (s : State) (c : Nat) : Nat := match s.crew? c with | some x => x.guest | none => 0

/-- The guest for which an agent asks for a line (R198): of its crew, its card or its merge group; 0 for an agent that
works for no guest (notes/assumptions/10). -/
def State.guestOf (s : State) : Writer → Nat
  | .gang c _ _ => s.crewGuest c
  | .unit (.vintner cl) =>
    let c := s.cluster cl
    match c.vcur with
    | some k => match SMap.find c.vctx k with | some x => x.card.guest | none => 0
    | none => 0
  | .unit (.decanter cl) =>
    let c := s.cluster cl
    match c.decCur with
    | some k => match SMap.find c.dec k with | some x => x.card.guest | none => 0
    | none => 0
  | .unit (.engine d) =>
    match SMap.find (s.die d).groups (s.die d).lastGroup with
    | some g => bitsAt g.ctl 8 6
    | none => 0
  | .cop cl u =>
    match (s.cluster cl).calls.find? (fun c => decide (c.unit = u)) with
    | some c => s.crewGuest c.crew
    | none => 0
  | _ => 0

/-- Two writers are one agent for a WS tag: a tag names a gang as (crewid, gang) (R284). -/
def Writer.same : Writer → Writer → Bool
  | .gang c g _, .gang c' g' _ => c == c' && g == g'
  | x, y => decide (x = y)

/-- A release of an agent that is no part clears the WS tags of the lines that it wrote (R284). -/
def State.releasedBy (s : State) (w : Writer) : State :=
  { s with wsTags := s.wsTags.filter (fun p => decide (p.2 ≠ w)) }

/-- The WS tag of a line after a write (R284): a standing tag of another writer is a conflict, which sets the sticky
flag, the count and the first line of the slice's `HSWSC` (R285). -/
def State.wsWrite (s : State) (line : Nat) (w : Writer) : State :=
  let conflict := match SMap.find s.wsTags line with
    | some t => !Writer.same t w
    | none => false
  let h := homeOf (line * 128)
  let old := SMap.getD s.hswsc h 0
  let count := (old.extractLsb' 48 15).toNat
  let new : W64 :=
    if old.getLsbD 63 then
      BitVec.ofNat 64 (2 ^ 63 + (min (count + 1) 32767) * 2 ^ 48 + (old.extractLsb' 7 41).toNat * 128)
    else BitVec.ofNat 64 (2 ^ 63 + 2 ^ 48 + line % 2 ^ 41 * 128)
  let merged := match SMap.find s.wsTags line, w with
    | some (.gang c g m), .gang c' g' m' => if c = c' ∧ g = g' then Writer.gang c g (m ||| m') else w
    | _, _ => w
  { s with
    wsTags := SMap.put s.wsTags line merged
    hswsc := if conflict then SMap.put s.hswsc h new else s.hswsc }

/-! ### Access counters (10_pages R223, R224) -/

/-- The thresholds of a 64 KiB block (R223): high and low. -/
def Die.thresholds (d : Die) (block : Nat) : Nat × Nat :=
  let hit := (List.range 16).find? (fun n =>
    let r := SMap.getD d.migrg n 0
    r.getLsbD 0 && decide (bitsAt r 32 32 ≤ block) && decide (block ≤ bitsAt r 64 32))
  match hit with
  | some n => let r := SMap.getD d.migrg n 0; (bitsAt r 96 16, bitsAt r 112 16)
  | none => (bitsAt d.migth 0 16, bitsAt d.migth 16 16)

/-- A line request from a die (none: another device) counts when it comes from elsewhere than the line's home slice
(R223); a counter that reaches its high threshold raises one notice (R224). A full ring holds the counter while its notice
waits. -/
def State.count (s : State) (pa : Nat) (die : Option Nat) : State :=
  if die = some (homeOf pa / 64) ∨ dramEnd ≤ pa then s
  else
    let block := pa / 65536
    let dn := homeOf (block * 65536) / 64
    let d := s.die dn
    let c : Counter := SMap.getD s.counters block { count := 0, queued := false, dies := 0, device := false }
    let full := (d.mnqtail + 1) % 1024 == d.mnqhead
    let held := full && d.notices.any (fun n => n.1 == block)
    let high := (d.thresholds block).1
    let n := if held then c.count else min (c.count + 1) 65535
    let dies := match die with | some k => maskSet c.dies (k % 4) true | none => c.dies
    let device := c.device || die.isNone
    let cross := !c.queued && decide (high ≤ n) && decide (0 < high)
    let c' : Counter := { count := n, queued := c.queued || cross, dies := dies, device := device }
    let s1 : State := { s with counters := SMap.put s.counters block c' }
    if cross then
      s1.setDie dn { d with
        notices := d.notices ++ [(block, n, (if device then (16 : BitVec 5) else 0) ||| dies.setWidth 5)]
        mnqover := d.mnqover || full }
    else s1

/-! ### Performing a write at a home slice -/

/-- A write to a line fires every watch on it (R263) and wakes the rings that watch it (18_engines R352, R358). -/
def State.fire (s : State) (line : Nat) : State :=
  (s.mapGangs (fun _ _ g => { g with
      watches := g.watches.map (fun w => if w.line = line then { w with fired := true } else w) })).mapRings
    (fun r =>
      let r1 := if r.tailLine = line then { r with tailFired := true } else r
      match r1.testLine with
      | some (l, _) => if l = line then { r1 with testLine := some (l, true) } else r1
      | none => r1)

/-- A write to a line clears every reservation on it (R260). -/
def State.unreserve (s : State) (line : Nat) : State :=
  let s1 := s.mapGangs (fun _ _ g => { g with resv := g.resv.filter (fun p => lineOf p.2.addr != line) })
  { s1 with harts := s1.harts.map (fun p => (p.1, { p.2 with
      resv := match p.2.resv with
        | some r => if lineOf r.addr = line then none else some r
        | none => none })) }

/-- The set of a core's data cache that a line falls in (R187; notes/assumptions/10). -/
def cacheSet (line : Nat) : Nat := line % 128

/-- The PV line a core holds. -/
def State.pvLine (s : State) (core line : Nat) : Option PvLine := SMap.find (s.core core).pv line

/-- A core's data cache holds a line. -/
def CoreState.holds (c : CoreState) (line : Nat) : Bool :=
  (SMap.getD c.cache (cacheSet line) []).any (fun l => l.line == line)

/-- A core's data cache without a line. -/
def CoreState.drop (c : CoreState) (line : Nat) : CoreState :=
  { c with
    cache := SMap.setD c.cache (cacheSet line) ((SMap.getD c.cache (cacheSet line) []).filter (fun l => l.line != line)) []
    pv := SMap.erase c.pv line }

/-- A core loses its copy of a line, if it has one. -/
def State.dropCopy (s : State) (core line : Nat) : State :=
  let c := s.core core
  if c.holds line || (SMap.find c.pv line).isSome then s.setCore core (c.drop line) else s

/-- Every core loses its copy of a line. -/
def State.dropCopies (s : State) (line : Nat) : State := (s.cores.map (·.1)).foldl (fun t n => t.dropCopy n line) s

/-- Copies of a line before a write is performed: RC and WS copies are invalidated, SC copies are updated and stay, PV
copies stay as they are (R292). -/
def State.invalidate (s : State) (line : Nat) (k : Kind) : State :=
  let gone : State := { s.dropCopies line with dir := SMap.erase s.dir line }
  match k with
  | .rc => gone
  | .ws => gone
  | _ => s

/-- One byte after a masked write. -/
def mergeByte (old : Byte) (w : ByteWrite) : Byte := (old &&& ~~~ w.bits) ||| (w.value &&& w.bits)

/-- Bytes of memory after masked writes. -/
def Memory.apply (m : Memory) (bs : List ByteWrite) : Memory :=
  bs.foldl (fun t w => Memory.write t w.addr (mergeByte (Memory.read t w.addr) w)) m

/-- A write of bytes of one line at its home slice (R292): copies are told, the bytes stand, watches fire, reservations
fall, tags follow, and the parts that read the line past a fence roll back, but for those that read a PV copy of their
core's. -/
def State.writeLine (s : State) (k : Kind) (w : Writer) (line : Nat) (bs : List ByteWrite) : State :=
  let s1 := s.invalidate line k
  let s2 := if k = .ws then s1.wsWrite line w else s1
  let s3 : State := { s2 with mem := Memory.apply s2.mem bs }
  let s4 := (s3.fire line).unreserve line
  s4.mapGangs (fun c _ g => if k = .pv ∧ (s4.pvLine (s4.coreOf c) line).isSome then g else g.disturb line)

/-- The bytes of a copy as a write of its whole line. -/
def PvLine.bytes (l : PvLine) (line : Nat) : List ByteWrite :=
  (List.range 128).map (fun i => { addr := line * 128 + i, value := SMap.getD l.data i 0, bits := 255 })

/-! ### The lines of the home slices (R189, R196 to R198) -/

/-- The set of its home slice that a line falls in: the spec does not give it (notes/assumptions/10). -/
def homeSet (line : Nat) : Nat := line / 256 % 768

/-- The key of a line's set among those of all home slices. -/
def homeKey (line : Nat) : Nat := 1024 * homeOf (line * 128) + homeSet line

/-- The lines in the set of a line, most recently used first. -/
def State.homeLines (s : State) (line : Nat) : List HomeLine := SMap.getD s.home (homeKey line) []

/-- A recall of a line (R218, R260): dirty PV copies are written to the home slice, then every copy is dropped; the
directory entry has no sharers, reservations fall, and the parts that read a copy past a fence roll back. -/
def State.recallLine (s : State) (line : Nat) : State :=
  let s1 := (s.cores.map (·.1)).foldl (fun (t : State) (n : Nat) =>
    match s.pvLine n line with
    | some l => if l.dirty then t.writeLine .pv (.gang l.crew 0 0) line (l.bytes line) else t
    | none => t) s
  let s2 := s1.dropCopies line
  let s3 : State := { s2 with dir := SMap.erase s2.dir line }
  (s3.unreserve line).mapGangs (fun _ _ g => g.disturb line)

/-- The ways that fills of a guest may use in the home slice of a line: all 16, or those of `HSWM` (R197). -/
def State.homeWays (s : State) (line guest : Nat) : W32 :=
  let h := homeOf (line * 128)
  if (SMap.getD s.hsctl h 0).getLsbD 0 then SMap.getD s.hswm (64 * h + guest) 0xFFFF else 0xFFFF

/-- The home slice of a line holds it, for a guest: a hit becomes the most recently used line and keeps its owner; a miss
takes a free allowed way, or that of the least recently used line among the allowed ways, which is evicted; with no
allowed way the access is served past the slice. `lru` inserts as the least recently used line (R196). -/
def State.allocate (s : State) (line guest : Nat) (lru : Bool) : State :=
  let ls := s.homeLines line
  let put := fun (t : State) (l : List HomeLine) => ({ t with home := SMap.put t.home (homeKey line) l } : State)
  match ls.find? (fun l => l.line == line) with
  | some l => if ls.head?.map (·.line) = some line then s else put s (l :: ls.filter (fun x => x.line != line))
  | none =>
    let ways := s.homeWays line guest
    let enter := fun (t : State) (rest : List HomeLine) (way : Nat) =>
      let l : HomeLine := { line := line, way := way, owner := guest }
      put t (if lru then rest ++ [l] else l :: rest)
    match (List.range 16).find? (fun w => ways.getLsbD w && !ls.any (fun l => l.way == w)) with
    | some w => enter s ls w
    | none =>
      match ls.reverse.find? (fun l => ways.getLsbD l.way) with
      | none => s
      | some v => enter (s.recallLine v.line) (ls.filter (fun l => l.line != v.line)) v.way

/-- A line request that arrives at a home slice: it is counted and served (R189, R223). -/
def State.requestAs (s : State) (line : Nat) (die : Option Nat) (guest : Nat) (lru : Bool) : State :=
  if dramEnd ≤ line * 128 then s else (s.count (line * 128) die).allocate line guest lru

/-- A line request of an agent. -/
def State.request (s : State) (line : Nat) (w : Writer) (lru : Bool := false) : State :=
  s.requestAs line (s.writerDie w) (s.guestOf w) lru

/-- The lines of a home slice that a guest owns (R197, R198). -/
def State.ownedLines (s : State) (slice guest : Nat) : Nat :=
  ((s.home.filter (fun p => p.1 / 1024 == slice)).flatMap (fun p => p.2.filter (fun l => l.owner == guest))).length

/-! ### Writes of agents -/

/-- Perform a write of bytes of one line: the request reaches its home slice, and the line is written. -/
def State.performLine (s : State) (k : Kind) (w : Writer) (lru : Bool) (line : Nat) (bs : List ByteWrite) : State :=
  (s.request line w lru).writeLine k w line bs

/-- The lines that a list of bytes touches, in order of first appearance. -/
def linesOf (bs : List ByteWrite) : List Nat := (bs.map (fun b => lineOf b.addr)).eraseDups

/-- Perform a write of bytes, line by line. -/
def State.performBytes (s : State) (k : Kind) (w : Writer) (bs : List ByteWrite) (lru : Bool := false) : State :=
  (linesOf bs).foldl (fun t l => t.performLine k w lru l (bs.filter (fun b => lineOf b.addr == l))) s

/-- Whole bytes of a value at an address. -/
def byteWrites (a n v : Nat) : List ByteWrite :=
  (natBytes n v).mapIdx (fun i b => { addr := a + i, value := b, bits := 255 })

/-- Perform a write of an `n`-byte value. -/
def State.performNat (s : State) (k : Kind) (w : Writer) (a n v : Nat) : State := s.performBytes k w (byteWrites a n v)

/-- A read-modify-write at a home slice, read and write adjacent in the location's order (R250): the old value, the
flags, and the state. It is one request. -/
def State.atomic (s : State) (k : Kind) (w : Writer) (op : HomeOp) (a size b compare : Nat) (lru : Bool := false) :
    Nat × Nat × State :=
  let old := Memory.readNat s.mem a size
  let r := op.apply size old b compare
  let s1 := s.request (lineOf a) w lru
  match r.1 with
  | some new => (old, r.2, s1.writeLine k w (lineOf a) (byteWrites a size new))
  | none => (old, r.2, s1)

/-! ### Copies in the cores (R187, R196, R286, R291) -/

/-- A core fills a copy of a line: the directory records it, in coarse form from the fifth core on (R291). -/
def State.recordCopy (s : State) (line core : Nat) : State :=
  let e : DirEntry := SMap.getD s.dir line (.pointers [] 0)
  let e' : DirEntry := match e with
    | .pointers cs m =>
      if cs.contains core then .pointers cs m
      else if cs.length < 4 then .pointers (cs ++ [core]) m
      else .coarse ((cs ++ [core]).foldl (fun v c => v ||| BitVec.twoPow 64 (c / 8)) 0) m
    | .coarse v m => .coarse (v ||| BitVec.twoPow 64 (core / 8)) m
  { s with dir := SMap.put s.dir line e' }

/-- A resident core of a die fills a copy (R291). -/
def State.recordResident (s : State) (line die : Nat) : State :=
  let e : DirEntry := SMap.getD s.dir line (.pointers [] 0)
  let e' : DirEntry := match e with
    | .pointers cs m => .pointers cs (m ||| BitVec.twoPow 4 die)
    | .coarse v m => .coarse v (m ||| BitVec.twoPow 4 die)
  { s with dir := SMap.put s.dir line e' }

/-- Publish a core's dirty copy of a PV line: it is written to the home slice and kept clean (R286, R292). -/
def State.pvClean (s : State) (core line : Nat) (w : Writer) : State :=
  let c := s.core core
  match SMap.find c.pv line with
  | some l =>
    if l.dirty then
      (s.setCore core { c with pv := SMap.put c.pv line { l with dirty := false } }).performLine .pv w false line (l.bytes line)
    else s
  | none => s

/-- A core's data cache evicts a line: a dirty PV copy is written to its home slice, and the parts of the core that read
the line past a fence roll back (R187, R269, R286). A clean copy goes silently: the directory keeps its entry (R291). -/
def State.evictCopy (s : State) (core line : Nat) : State :=
  let s1 := match s.pvLine core line with
    | some l => s.pvClean core line (.gang l.crew 0 0)
    | none => s
  (s1.dropCopy core line).disturbCore core line none

/-- The line of a full set that makes room: the least recently used one without retain, else the least recently used
(R196). -/
def victimOf (ls : List CacheLine) : Option CacheLine :=
  match ls.reverse.find? (fun l => !l.retain) with
  | some l => some l
  | none => ls.getLast?

/-- A line becomes the most recently used one of its set in a core's data cache; a full set evicts a line first. -/
def State.cacheEnter (s : State) (core line : Nat) (retain : Bool) : State :=
  let k := cacheSet line
  let ls := SMap.getD (s.core core).cache k []
  let old := ls.find? (fun l => l.line == line)
  let s1 := if old.isNone && decide (16 ≤ ls.length) then
      match victimOf ls with
      | some v => s.evictCopy core v.line
      | none => s
    else s
  let c := s1.core core
  let rest := (SMap.getD c.cache k []).filter (fun l => l.line != line)
  let keep := retain || (match old with | some l => l.retain | none => false)
  s1.setCore core { c with cache := SMap.put c.cache k ({ line := line, retain := keep } :: rest) }

/-- Fill a core's copy of a PV line from the home slice, for a crew (R286). -/
def State.pvFill (s : State) (core line crew : Nat) (w : Writer) (retain : Bool) : State :=
  match s.pvLine core line with
  | some _ => s.cacheEnter core line retain
  | none =>
    let s1 := ((s.request line w false).recordCopy line core).cacheEnter core line retain
    let c := s1.core core
    s1.setCore core { c with
      pv := SMap.put c.pv line { crew := crew, data := Memory.range s1.mem (line * 128) 128, dirty := false } }

/-- Bytes of a PV copy after masked writes. -/
def PvLine.write (l : PvLine) (bs : List ByteWrite) (dirty : Bool) : PvLine :=
  { l with
    data := bs.foldl (fun t w => SMap.setD t (w.addr % 128) (mergeByte (SMap.getD t (w.addr % 128) 0) w) 0) l.data
    dirty := l.dirty || dirty }

/-- Change a core's copy of a PV line; the other parts of the core that read it past a fence roll back (R293). -/
def State.pvPut (s : State) (core line : Nat) (bs : List ByteWrite) (dirty : Bool) (part : Nat × Nat × BitVec 8) : State :=
  let c := s.core core
  match SMap.find c.pv line with
  | none => s
  | some l => (s.setCore core { c with pv := SMap.put c.pv line (l.write bs dirty) }).disturbCore core line (some part)

/-- Write bytes of one line in a core's copy, for a part (R286); where making room in the core took the copy away again,
the write goes to the home slice. -/
def State.pvWrite (s : State) (core line : Nat) (bs : List ByteWrite) (part : Nat × Nat × BitVec 8) : State :=
  let w : Writer := .gang part.1 part.2.1 part.2.2
  let t := s.pvFill core line part.1 w false
  if (t.pvLine core line).isSome then t.pvPut core line bs true part else t.performLine .pv w false line bs

/-- Publish every dirty copy tagged with a crew, on its core (R286). -/
def State.pvPublishCrew (s : State) (core crew : Nat) : State :=
  (((s.core core).pv.filter (fun p => p.2.crew == crew && p.2.dirty)).map (·.1)).foldl
    (fun t l => t.pvClean core l (.gang crew 0 0)) s

/-- Drop every copy tagged with a crew on a core (R286). -/
def State.pvDropCrew (s : State) (core crew : Nat) : State :=
  (((s.core core).pv.filter (fun p => p.2.crew == crew)).map (·.1)).foldl (fun t l => t.dropCopy core l) s

/-- What a read of a line leaves in a core and at the home slice, under a policy (R187, R196, R286). -/
def State.touchLine (s : State) (core crew : Nat) (w : Writer) (policy : Nat) (l : Nat × Kind) : State :=
  let retain := decide (policy = 2)
  if policy = 3 then ((if l.2 = .pv then s.pvClean core l.1 w else s).request l.1 w false)
  else if (s.core core).holds l.1 then s.cacheEnter core l.1 retain
  else if policy = 1 then s.request l.1 w true
  else match l.2 with
    | .pv => s.pvFill core l.1 crew w retain
    | _ => ((s.request l.1 w false).recordCopy l.1 core).cacheEnter core l.1 retain

end Sys2Proof.Machine
end

