-- ==== Sys2Proof/Machine/Report.lean ====
section
/-!
DEFINITION. The fault queue of a die (22_system R425, R427, R464), and the routes to other modules (24_ports R453).
-/

namespace Sys2Proof.Machine

/-- A ring of N slots is full (R464). -/
def ringFull (head tail n : Nat) : Bool := (tail + 1) % n == head

/-- Write a 64-byte fault record at the tail of a die's fault queue, with release at `.dev`. -/
def State.writeFault (s : State) (dn : Nat) (r : FaultRec) : State :=
  let d := s.die dn
  let a := d.fqbase.toNat + 64 * d.fqtail
  let put := fun (t : State) (off n v : Nat) => t.performNat .rc (.unit (.cellarer dn)) (a + off) n v
  let s1 := put s 0 2 r.cause
  let s2 := put s1 2 1 r.type
  let s3 := put s2 3 1 (if r.type = 0 ∨ r.type = 5 then r.mask % 256 else 0)
  let s4 := put s3 4 4 r.crew
  let s5 := put s4 8 8 r.addr.toNat
  let s6 := put s5 16 8 r.va.toNat
  let s7 := put s6 24 4 (r.mask / 256)
  let s8 := put s7 28 2 r.asid
  let s9 := put s8 30 1 r.gang
  let s10 := put s9 31 1 r.cluster
  let s11 := put s10 32 8 r.detail
  let s12 := put s11 40 8 r.ptr.toNat
  let s13 := put (put s12 48 8 d.fqseq) 56 8 0
  let d' := s13.die dn
  s13.setDie dn { d' with fqtail := (d.fqtail + 1) % 1024, fqseq := d.fqseq + 1 }

/-- Write the records that wait, oldest first, while the queue has room. -/
def State.flushFaults (s : State) (dn : Nat) : Nat → State
  | 0 => s
  | fuel + 1 =>
    let d := s.die dn
    match d.faults with
    | [] => s
    | r :: t =>
      if ringFull d.fqhead d.fqtail 1024 then s
      else ((s.setDie dn { d with faults := t }).writeFault dn r).flushFaults dn fuel

/-- Hand a record to the fault queue: it is written now or when the queue has room, and never dropped. -/
def State.pushFault (s : State) (dn : Nat) (r : FaultRec) : State :=
  let d := s.die dn
  (s.setDie dn { d with faults := d.faults ++ [r] }).flushFaults dn (d.faults.length + 1)

/-- A record with every field zero but those given. -/
def faultRec (cause type : Nat) (addr : W64) (asid : Nat) : FaultRec :=
  { cause := cause, type := type, mask := 0, crew := 0, addr := addr, va := 0, asid := asid, gang := 0, cluster := 0,
    detail := 0, ptr := 0 }

/-! ### Routes -/

/-- A route to a module is valid (24_ports R453): the entry is valid, and its primary port's link is up or it has an
alternate; a lost module has none. -/
def State.routeValid (s : State) (m : Nat) : Bool :=
  let r := SMap.getD s.ports.route m 0
  !s.ports.lost.contains m && r.getLsbD 7 &&
    (SMap.getD s.ports.up (2 + bitsAt r 0 3) false || r.getLsbD 6)

/-- What becomes of a store that is sent to another module, at a physical address there (R453, 22_system R424): nothing, or
the kind with which it fails. A module performs only what lies in its DRAM. -/
def State.sendFails (s : State) (m addr : Nat) : Option FaultKind :=
  if !s.routeValid m then some .peerLost
  else if dramEnd ≤ addr then some .unsupportedRequest
  else if Config.remoteRefuses s.free then some .unsupportedRequest
  else none

/-- A failed remote store is reported with origin 5 only: a type-3 record (R424, R425). -/
def State.reportStore (s : State) (crew : Nat) (va : W64) (k : FaultKind) : State :=
  let asid := match s.crew? crew with | some c => c.asid | none => 0
  s.pushFault 0 { faultRec (causeCode 5 k) 3 0 asid with va := va }

end Sys2Proof.Machine
end

