-- ==== Sys2Proof/Machine/Buffer.lean ====
section
/-!
DEFINITION. What a part has issued and not yet done: buffered stores (09_memory R187, 13_atomics R256), loads in flight
(05_work R113) and the reads of tile fills (12_tiles R244); the order in which they are performed (14_ordering R276 to
R284), what a release, an acquire or a fence waits for (R280, R287), and the completion of fences (13_atomics R267, R268).
-/

namespace Sys2Proof.Machine

/-! ### Entries of a store buffer -/

/-- The bytes of this module's memory that an entry writes. -/
def BufOp.addrs : BufOp → List Nat
  | .write _ bs => bs.map (·.addr)
  | .through bs => bs.map (·.addr)
  | .reduce _ _ n ops => ops.flatMap (fun o => (List.range n).map (o.1 + ·))
  | _ => []

/-- An entry that is an SC access. -/
def BufOp.sc : BufOp → Bool
  | .write k _ => decide (k = .sc)
  | .reduce k _ _ _ => decide (k = .sc)
  | _ => false

/-- Two entries touch a common byte; what goes to one module, or to a bus, keeps its order. -/
def BufOp.meets (a b : BufOp) : Bool :=
  match a, b with
  | .remote m _ _, .remote n _ _ => decide (m = n)
  | a, b => a.addrs.any (fun q => b.addrs.contains q)

/-- A release or a fence of a scope covers an entry (R280); scope 7 stands for everything. -/
def BufEntry.covered (e : BufEntry) (scope : Nat) : Bool :=
  match e.op with
  | .write .ws _ => decide (5 ≤ scope)
  | .write .pv _ => decide (scope ≤ 2) || decide (7 ≤ scope)
  | .remote (some _) _ _ => decide (6 ≤ scope)
  | _ => true

/-- An entry may not be performed before an earlier one: both are of one part, and a fence stands between, they touch a
common byte, or the later one is an SC store, which is a release (R268, R282, R283). -/
def BufEntry.behind (e q : BufEntry) : Bool :=
  (q.slices &&& e.slices) != 0 &&
    (match q.op with
      | .fence _ => true
      | o => e.op.meets o || (e.op.sc && (o.sc || q.covered e.scope)))

/-- A release clears the WS tags of the lines whose writes it covered: those of the gang's parts in the mask (R284). -/
def State.clearTags (s : State) (crew gang : Nat) (m : BitVec 8) : State :=
  { s with wsTags := s.wsTags.filter (fun p => match p.2 with
      | .gang c g k => !(c == crew && g == gang && (k &&& m) != 0)
      | _ => true) }

/-- A release of the parts of a mask at a scope has been performed (R284, 24_ports R454). -/
def State.released (s : State) (crew gang : Nat) (m : BitVec 8) (scope : Nat) : State :=
  let s1 := if 5 ≤ scope then s.clearTags crew gang m else s
  if 6 ≤ scope then { s1 with ports := { s1.ports with written := [] } } else s1

/-- Perform one entry of a store buffer: a PV write in the core's copy (R286), under policy 3 in it and at the home slice
(09_memory R196), any other at its home slice. An SC write is a release (R282). -/
def State.performEntry (s : State) (crew gang : Nat) (e : BufEntry) : State :=
  let w : Writer := .gang crew gang e.slices
  let lru := decide (e.policy = 1)
  let core := s.coreOf crew
  match e.op with
  | .write .pv bs =>
    (linesOf bs).foldl (fun t l => t.pvWrite core l (bs.filter (fun b => lineOf b.addr == l)) (crew, gang, e.slices)) s
  | .write .sc bs => (s.performBytes .sc w bs lru).released crew gang e.slices e.scope
  | .write k bs => s.performBytes k w bs lru
  | .through bs =>
    (linesOf bs).foldl (fun t l =>
      let mine := bs.filter (fun b => lineOf b.addr == l)
      (t.performLine .pv w lru l mine).pvPut core l mine false (crew, gang, e.slices)) s
  | .reduce k op size ops =>
    let t := ops.foldl (fun t o => (t.atomic k w op o.1 size o.2.toNat 0 lru).2.2) s
    if k = .sc then t.released crew gang e.slices e.scope else t
  | .remote (some m) addr va =>
    match s.sendFails m addr with
    | some k => (s.reportStore crew va k).nextFree
    | none => { s.nextFree with ports := { s.ports with written := (m :: s.ports.written).eraseDups } }
  | .remote none _ _ => s
  | .fence _ => s

/-! ### Loads in flight -/

/-- The byte that a part on a core reads now: of another module, of a bus, of its core's copy of a PV line, or at the home
slice (R277, R286, R296). -/
def State.byteNow (s : State) (core addr : Nat) (kind : Kind) (away : Option (Option Nat)) : Byte :=
  match away with
  | some (some m) => Config.remoteByte s.free m addr
  | some none => Config.busByte s.free addr
  | none =>
    if kind = .pv then
      match s.pvLine core (lineOf addr) with
      | some l => SMap.getD l.data (addr % 128) 0
      | none => Memory.read s.mem addr
    else Memory.read s.mem addr

/-- Bind a byte that is not bound. -/
def FlightByte.bind (b : FlightByte) (v : FlightByte → Byte) : FlightByte :=
  match b.value with
  | some _ => b
  | none => { b with value := some (v b) }

/-- Every byte of a lane is bound. -/
def FlightLane.bound (l : FlightLane) : Bool := l.bytes.all (fun b => b.value.isSome)

/-- The data have arrived. -/
def Flight.done (f : Flight) : Bool := f.failed.isNone && f.lanes.all FlightLane.bound

/-- The bytes of this module that a load has not read yet. -/
def Flight.unread (f : Flight) : List Nat :=
  f.lanes.flatMap (fun l => (l.bytes.filter (fun b => b.away.isNone && b.value.isNone)).map (·.addr))

/-- Some byte comes from outside this module's DRAM. -/
def Flight.away (f : Flight) : Bool := f.lanes.any (fun l => l.bytes.any (fun b => b.away.isSome))

/-- Bind every byte of a load. -/
def Flight.bindAll (f : Flight) (v : FlightByte → Byte) : Flight :=
  { f with lanes := f.lanes.map (fun l => { l with bytes := l.bytes.map (fun b => b.bind v) }) }

/-- The events that a load still waits for, in order: a lane, or one byte of a lane (R276). -/
def Flight.chunks (f : Flight) : List (Nat × Option Nat) :=
  (f.lanes.mapIdx (fun i l =>
    if l.bound then []
    else if l.whole then [(i, none)]
    else (l.bytes.mapIdx (fun j b => if b.value.isSome then [] else [(i, some j)])).flatten)).flatten

/-- A pending event of a load may happen: an SC access goes after every earlier one of the instruction (R282). -/
def Flight.chunkMay (f : Flight) (c : Nat × Option Nat) : Bool :=
  let kindAt := fun (i : Nat) => match f.lanes[i]? with
    | some l => l.bytes.any (fun b => decide (b.kind = .sc))
    | none => false
  !kindAt c.1 || (f.chunks.takeWhile (fun d => decide (d ≠ c))).all (fun d => !kindAt d.1)

/-- Bind one event of a load. -/
def Flight.bindChunk (f : Flight) (v : FlightByte → Byte) (c : Nat × Option Nat) : Flight :=
  { f with lanes := f.lanes.mapIdx (fun i l =>
      if i ≠ c.1 then l
      else { l with bytes := l.bytes.mapIdx (fun j b => if c.2 = none ∨ c.2 = some j then b.bind v else b) }) }

/-- The value of a lane's bytes. -/
def FlightLane.nat (l : FlightLane) : Nat := bytesNat (l.bytes.map (fun b => b.value.getD 0))

/-- What a load leaves in the registers, and its flags. -/
def Flight.write (f : Flight) (r : Regs) : Regs × Nat :=
  match f.dest with
  | .plain reg w => (f.lanes.foldl (fun q l => putWidth w reg q l.lane l.nat) r, 0)
  | .decoded reg ty =>
    let t := memType ty
    let val := fun (l : FlightLane) =>
      let code := if elemBits l.fmt < 8 then natBits l.nat (4 * l.half) 4 else l.nat
      if l.fmt = 0 then (code, 0) else convert t {} (linearValue l.fmt code)
    (f.lanes.foldl (fun q l => putType t reg q l.lane (val l).1) r, orFlags (f.lanes.map (fun l => (val l).2)))
  | .uniform reg w =>
    let v := match f.lanes.head? with | some l => l.nat | none => 0
    ((slicesOf f.slices).foldl (fun q k =>
      if w = 3 then q.setS2 k reg (BitVec.ofNat 64 v) else q.setS k reg (BitVec.ofNat 32 v)) r, 0)

/-- The data of a load go to its registers, and the parts that wait for data are woken (05_work R113). -/
def Gang.land (g : Gang) (f : Flight) : Gang :=
  let w := f.write g.regs
  let g1 := ({ g with regs := w.1 } : Gang).raise f.slices (BitVec.ofNat 32 w.2)
  { g1 with
    loads := g.loads.filter (fun h => h.id != f.id)
    slices := g.slices.map (fun x => match x.wait with
      | some w => if w.code = 3 ∧ w.num = 5 then { x with wait := none } else x
      | none => x) }

/-- Every load whose data have arrived ends. -/
def Gang.landAll (g : Gang) : Gang := (g.loads.filter Flight.done).foldl Gang.land g

/-- The loads that are to be bound, and the earlier ones that touch a common byte (R283). -/
def flagLoads (sel : Flight → Bool) : List Flight → List (Flight × Bool)
  | [] => []
  | f :: t =>
    let r := flagLoads sel t
    (f, sel f || r.any (fun (q : Flight × Bool) => q.2 && (q.1.slices &&& f.slices) != 0 && f.unread.any (fun a => q.1.unread.contains a))) :: r

/-- Bind loads of a gang, and let those whose data have arrived end. -/
def State.bindLoads (s : State) (crew gang : Nat) (sel : Flight → Bool) : State :=
  match s.gang? crew gang with
  | none => s
  | some g =>
    if !g.loads.any sel then s
    else
      let l := flagLoads sel g.loads
      let v := fun (b : FlightByte) => s.byteNow (s.coreOf crew) b.addr b.kind b.away
      let g1 : Gang := { g with loads := l.map (fun (p : Flight × Bool) => if p.2 && p.1.failed.isNone then p.1.bindAll v else p.1) }
      let s1 := s.setGang crew gang g1.landAll
      if l.any (fun p => p.2 && p.1.away) then s1.nextFree else s1

/-! ### The reads of tile fills (12_tiles R237, R244) -/

/-- The bytes of a span. -/
def State.spanData (s : State) (core : Option Nat) (p : Span) : List Byte :=
  (List.range p.len).map (fun i =>
    let pa := p.pa + i
    match p.peer with
    | some m => Config.remoteByte s.free m pa
    | none =>
      if p.pv then
        match core with
        | some c => match s.pvLine c (lineOf pa) with
          | some l => SMap.getD l.data (pa % 128) 0
          | none => Memory.read s.mem pa
        | none => Memory.read s.mem pa
      else if pa < dramEnd then Memory.read s.mem pa
      else Config.busByte s.free pa)

/-- The part of a fill is among the parts of a mask. -/
def Fill.ofPart (f : Fill) (crew gang : Nat) (m : BitVec 8) : Bool :=
  match f.part with
  | some (c, g, k) => c == crew && g == gang && (k &&& m) != 0
  | none => false

/-- A fill reads a byte of this module that it has not read yet. -/
def Fill.unread (f : Fill) (a : Nat) : Bool :=
  f.data.isNone && f.spans.any (fun p => p.peer.isNone && decide (p.pa ≤ a) && decide (a < p.pa + p.len))

/-- The lines of this module in runs of memory. -/
def spanLines (l : List Span) : List Nat :=
  (l.filter (fun p => p.peer.isNone)).flatMap (fun p =>
    (List.range ((p.pa % 128 + p.len + 127) / 128)).map (fun j => p.pa / 128 + j))

/-- The line requests of a fill. -/
def State.fillRequests (s : State) (f : Fill) : State :=
  let guest := match f.part with
    | some (c, _, _) => s.crewGuest c
    | none => match f.crew with | some c => s.crewGuest c | none => 0
  (spanLines f.spans).foldl (fun t l => t.requestAs l (some (dieOfCluster f.cluster)) guest false) s

/-- The reads of fills are bound. -/
def State.bindFills (s : State) (sel : Fill → Bool) : State :=
  let mine := s.fills.filter (fun f => f.data.isNone && sel f)
  if mine.isEmpty then s
  else
    let s1 : State := { s with fills := s.fills.map (fun f =>
      if f.data.isNone && sel f then { f with data := some (f.spans.flatMap (s.spanData f.core)) } else f) }
    (mine.foldl State.fillRequests s1).nextFree

/-! ### Performing what is due -/

/-- The entries before the first fence's mark of the parts of a mask, and the others. -/
def splitMark (m : BitVec 8) : List BufEntry → List BufEntry × List BufEntry
  | [] => ([], [])
  | e :: t =>
    match e.op with
    | .fence _ => if (e.slices &&& m) != 0 then ([], e :: t) else let r := splitMark m t; (e :: r.1, r.2)
    | _ => let r := splitMark m t; (e :: r.1, r.2)

/-- Entries of the parts of a mask that are due, and the earlier ones that a due one stands behind. -/
def flagDue (m : BitVec 8) (due : BufEntry → Bool) : List BufEntry → List (BufEntry × Bool)
  | [] => []
  | e :: t =>
    let r := flagDue m due t
    (e, ((e.slices &&& m) != 0 && due e) || r.any (fun q => q.2 && q.1.behind e)) :: r

/-- The entries to perform, and the buffer without them. -/
def Gang.dueEntries (g : Gang) (m : BitVec 8) (due : BufEntry → Bool) : List BufEntry × List BufEntry :=
  let q := splitMark m g.buffer
  let f := flagDue m due q.1
  ((f.filter (·.2)).map (·.1), (f.filter (fun p => !p.2)).map (·.1) ++ q.2)

/-- A read must be bound before an entry is performed: it was issued before it by the same part, and they touch a common
byte, or the entry is an SC store (R282, R283). -/
def BufEntry.after (e : BufEntry) (slices : BitVec 8) (stamp : Nat) (meets : Nat → Bool) : Bool :=
  decide (stamp < e.stamp) && (slices &&& e.slices) != 0 && (e.op.sc || e.op.addrs.any meets)

def BufEntry.afterLoad (e : BufEntry) (f : Flight) : Bool :=
  !f.done && e.after f.slices f.id (fun a => f.unread.contains a)

def BufEntry.afterFill (e : BufEntry) (crew gang : Nat) (f : Fill) : Bool :=
  match f.part with
  | some (c, g, k) => c == crew && g == gang && f.data.isNone && e.after k f.stamp f.unread
  | none => false

/-- Perform the entries of the parts of a mask that are due, with what must come before them. -/
def State.performDue (s : State) (crew gang : Nat) (m : BitVec 8) (due : BufEntry → Bool) : State :=
  match s.gang? crew gang with
  | none => s
  | some g0 =>
    let todo := (g0.dueEntries m due).1
    if todo.isEmpty then s
    else
      let s1 := (s.bindLoads crew gang (fun f => todo.any (fun e => e.afterLoad f))).bindFills
        (fun f => todo.any (fun e => e.afterFill crew gang f))
      match s1.gang? crew gang with
      | none => s1
      | some g =>
        let q := g.dueEntries m due
        q.1.foldl (fun t e => t.performEntry crew gang e) (s1.setGang crew gang { g with buffer := q.2 })

/-- Bind the reads of the parts of a mask that were issued before a serial number. -/
def State.bindPart (s : State) (crew gang : Nat) (m : BitVec 8) (before : Nat) : State :=
  (s.bindLoads crew gang (fun f => (f.slices &&& m) != 0 && decide (f.id < before))).bindFills
    (fun f => f.ofPart crew gang m && decide (f.stamp < before))

/-- Complete the fence that the parts of a mask run past, if any: what it waits for is done, and its mark and speculation
set go (R267, R268, R293). A full or release fence of `.dev` or wider clears WS tags (R284). -/
def State.completeFence (s : State) (crew gang : Nat) (m : BitVec 8) : State :=
  match s.gang? crew gang with
  | none => s
  | some g =>
    match g.fences.find? (fun f => (f.slices &&& m) != 0) with
    | none => s
    | some f =>
      let s0 := s.bindPart crew gang f.slices f.id
      let s1 := if f.kind = 1 then s0 else s0.performDue crew gang f.slices (fun e => e.covered f.scope)
      match s1.gang? crew gang with
      | none => s1
      | some g1 =>
        let s2 := s1.setGang crew gang { g1 with
          fences := g1.fences.filter (fun h => h.id != f.id)
          buffer := g1.buffer.filter (fun e => match e.op with | .fence n => n != f.id | _ => true) }
        if f.kind = 1 then s2 else s2.released crew gang f.slices f.scope

/-- What a release of the parts of a mask at a scope waits for: fences complete, every read is bound, and every earlier
access that the scope covers is performed (R280, R281). -/
def State.drain (s : State) (crew gang : Nat) (m : BitVec 8) (scope : Nat) : State :=
  let s1 := s.completeFence crew gang m
  (s1.bindPart crew gang m s1.serial).performDue crew gang m (fun e => e.covered scope)

end Sys2Proof.Machine
end

