-- ==== Sys2Proof/Machine/Translate.lean ====
section
/-!
DEFINITION. Translation (10_pages R210 to R217): descriptors, the five-level walk, the checks in their order, the
translation caches, and the A and D bits.

A unit's cache keeps every translation it has made until a `tlbi` drops it: the spec lets a cache drop one sooner, and
gives no rule for when (notes/assumptions/8).
-/

namespace Sys2Proof.Machine

/-- The access of a walk (R214). -/
inductive Access where
  | read | write | atomic | execute
deriving DecidableEq, Repr

/-- What lies at a physical address (24_ports R451). -/
inductive Space where
  | dram | storageBus | hostBus | control | nothing
deriving DecidableEq, Repr

/-- The space of a physical address. -/
def spaceOf (pa : Nat) : Space :=
  if pa < dramEnd then .dram
  else if 0xE00000000000 ≤ pa ∧ pa < 0xF00000000000 then .storageBus
  else if 0xF00000000000 ≤ pa ∧ pa < 0xFFF000000000 then .hostBus
  else if 0xFFF000000000 ≤ pa ∧ pa < 2 ^ 48 then .control
  else .nothing

/-- A translated address: where it lies, on which module, and the page's attributes. -/
structure Page where
  pa : Nat
  peer : Nat
  remote : Bool
  kind : Kind
  fmt : Nat
  geo : Nat
  /-- First virtual address and size of the page. -/
  base : Nat
  size : Nat
deriving DecidableEq, Repr

/-- Why a walk gives no address. -/
inductive Fail where
  /-- Mapped, not present: with the leaf entry's address. -/
  | notPresent (leaf : Nat)
  /-- Attributes in transition. -/
  | transit (leaf : Nat)
  | fault (k : FaultKind)
deriving DecidableEq, Repr

/-- The kind of a 2-bit code (R212). -/
def kindOf (n : Nat) : Kind :=
  match n % 4 with
  | 0 => .sc | 1 => .rc | 2 => .ws | _ => .pv

/-- The 2-bit code of a kind. -/
def Kind.code : Kind → Nat
  | .sc => 0 | .rc => 1 | .ws => 2 | .pv => 3

/-- A format and a geometry are a valid pair (04_numbers R80). -/
def pairOk (fmt geo : Nat) : Bool :=
  if fmt ≤ 9 then geo == 0 else if fmt ≤ 14 then decide (1 ≤ geo) && decide (geo ≤ 3) else false

/-- A virtual address is canonical (R190, R214). -/
def canonical (va : W64) : Bool :=
  let top := (va.extractLsb' 52 12)
  if va.getLsbD 51 then top == BitVec.allOnes 12 else top == 0

/-- The 52 bits of a virtual address. -/
def vaNat (va : W64) : Nat := va.toNat % 2 ^ 52

/-- A page lies in the control space or an outbound range (R213, R214). -/
def outside (pa : Nat) : Bool :=
  match spaceOf pa with
  | .dram => false
  | .nothing => false
  | _ => true

/-- An entry with V = 1 is malformed at level l (R213). -/
def malformedEntry (e l : Nat) : Bool :=
  let leaf := e.testBit 1
  let pa := natBits e 12 36 * 4096
  natBits e 8 4 != 0 || natBits e 48 16 != 0 || natBits e 84 12 != 0
  || (!leaf && (natBits e 2 6 != 0 || natBits e 64 32 != 0))
  || (leaf && l == 4)
  || (leaf && pa % 2 ^ (12 + 8 * l) != 0)
  || (leaf && !pairOk (natBits e 66 5) (natBits e 71 3))
  || (leaf && l == 0 && decide (10 ≤ natBits e 66 5))
  || (!leaf && decide (dramEnd ≤ pa))
  || (leaf && outside pa && !(natBits e 64 2 == 1 && natBits e 66 5 == 0 && natBits e 71 3 == 0))

/-- The entry of the page-attribute table for a physical address of DRAM, in the table at a die's `ATBASE` (R216). -/
def State.attrOf (s : State) (die pa : Nat) : BitVec 16 :=
  BitVec.ofNat 16 (Memory.readNat s.mem ((s.die die).atbase.toNat + 2 * (pa / 4096)) 2)

/-- A physical address lies in the page-attribute table, which no unit reaches (R216). -/
def State.inAttrTable (s : State) (die pa : Nat) : Bool :=
  let b := (s.die die).atbase.toNat
  decide (b ≤ pa) && decide (pa < b + attrBytes)

/-- The descriptor of an ASID for a unit: the one it holds, or the one in memory, which it then holds (R210). The guest of
the address space is the one that reads it (09_memory R198). -/
def State.descriptor (s : State) (u : UnitId) (asid : Nat) : DescEntry × State :=
  match s.descs.find? (fun d => decide (d.unit = u) && d.asid == asid) with
  | some d => (d, s)
  | none =>
    let a := (s.die u.die).asdbase.toNat + 64 * asid
    let d : DescEntry :=
      { unit := u, asid := asid, root := Memory.readNat s.mem a 8
        groups := Memory.readNat s.mem (a + 8) 8
        guest := Memory.readNat s.mem (a + 16) 1 % 64
        valid := (Memory.read s.mem (a + 17)).getLsbD 0 }
    let t := s.requestAs (lineOf a) (some u.die) d.guest false
    (d, { t with descs := d :: t.descs })

/-- An ASID is loaded into a unit, which reads its descriptor (R210). -/
def State.loadAsid (s : State) (u : UnitId) (asid : Nat) : State := (s.descriptor u asid).2

/-- Set a bit of an entry's low byte: an atomic OR at the entry's home slice, made only when the bit is clear (R215). -/
def State.setEntryBit (s : State) (u : UnitId) (guest a bit : Nat) : State :=
  if (Memory.read s.mem a).getLsbD bit then s
  else (s.requestAs (lineOf a) (some u.die) guest false).writeLine (kindOf (s.attrOf u.die a).toNat) (.unit u) (lineOf a)
    [{ addr := a, value := 255, bits := BitVec.twoPow 8 bit }]

/-- The access is allowed by R, W and X (R214). -/
def allowed (acc : Access) (r w x : Bool) : Bool :=
  match acc with
  | .read => r
  | .write => w
  | .atomic => r && w
  | .execute => x

/-- A leaf found by a walk of `n` levels, from level n − 1 down: its address, entry and level. -/
def walkFrom (m : Memory) (va : Nat) : Nat → Nat → Except FaultKind (Nat × Nat × Nat)
  | 0, _ => .error .malformedEntry
  | l + 1, t =>
    let a := t + 16 * natBits va (12 + 8 * l) 8
    let e := Memory.readNat m a 16
    if !e.testBit 0 then .error .unmappedAddress
    else if malformedEntry e l then .error .malformedEntry
    else if e.testBit 1 then .ok (a, e, l)
    else walkFrom m va l (natBits e 12 36 * 4096)

/-- The addresses of the entries that a walk reads. -/
def walkReads (m : Memory) (va : Nat) : Nat → Nat → List Nat
  | 0, _ => []
  | l + 1, t =>
    let a := t + 16 * natBits va (12 + 8 * l) 8
    let e := Memory.readNat m a 16
    if !e.testBit 0 || malformedEntry e l || e.testBit 1 then [a] else a :: walkReads m va l (natBits e 12 36 * 4096)

/-- The line requests of a walk, and of the attribute entry that ends it (09_memory R198, R223). -/
def State.walkRequests (s : State) (u : UnitId) (guest : Nat) (reads : List Nat) : State :=
  reads.foldl (fun t a => t.requestAs (lineOf a) (some u.die) guest false) s

/-- The address a cached translation gives. -/
def TlbEntry.page (t : TlbEntry) (own va : Nat) : Page :=
  { pa := t.pa + (va - t.base), peer := t.peer, remote := t.peer != own, kind := t.kind, fmt := t.fmt, geo := t.geo,
    base := t.base, size := t.size }

/-- `translate(va, access)` of R214 for a unit and an ASID. A page that maps nothing of this module has no attribute entry, and
its accesses raise unmapped-address (24_ports R451). -/
def State.translate (s : State) (u : UnitId) (asid : Nat) (va : W64) (acc : Access) : Except Fail Page × State :=
  if !canonical va then (.error (.fault .unmappedAddress), s)
  else
    let v := vaNat va
    let own := s.ports.devid
    let finish := fun (t : TlbEntry) (s1 : State) =>
      let p := t.page own v
      if !p.remote && decide (spaceOf p.pa = .nothing) then (Except.error (Fail.fault .unmappedAddress), s1)
      else if !p.remote && s1.inAttrTable u.die p.pa then (Except.error (Fail.fault .protection), s1)
      else (Except.ok p, s1)
    match s.tlb.find? (fun t => decide (t.unit = u) && t.asid == asid && decide (t.base ≤ v) && decide (v < t.base + t.size)) with
    | some t =>
      if !allowed acc t.r t.w t.x then (.error (.fault .protection), s)
      else if (acc = .write ∨ acc = .atomic) ∧ !t.dirty then
        let s1 := s.setEntryBit u (s.descriptor u asid).1.guest t.leaf 7
        finish t { s1 with tlb := s1.tlb.map (fun x => if x = t then { t with dirty := true } else x) }
      else finish t s
    | none =>
      let ds := s.descriptor u asid
      if !ds.1.valid then (.error (.fault .unmappedAddress), ds.2)
      else if dramEnd ≤ ds.1.root then (.error (.fault .malformedEntry), ds.2)
      else
      let s1 := ds.2.walkRequests u ds.1.guest (walkReads ds.2.mem v 5 ds.1.root)
      match walkFrom s1.mem v 5 ds.1.root with
        | .error k => (.error (.fault k), s1)
        | .ok (a, e, l) =>
          let base := v / 2 ^ (12 + 8 * l) * 2 ^ (12 + 8 * l)
          let pa := natBits e 12 36 * 4096
          let peer := natBits e 74 10
          if !allowed acc (e.testBit 3) (e.testBit 4) (e.testBit 5) then (.error (.fault .protection), s1)
          else if !e.testBit 2 then (.error (.notPresent a), s1)
          else
            let out := outside pa
            let entry := if peer = own then s1.attrOf u.die pa else Config.remoteEntry s1.free
            if !out && peer != own && !s1.routeValid peer then (.error (.fault .peerLost), s1)
            else if peer == own && decide (spaceOf pa = .nothing) then (.error (.fault .unmappedAddress), s1)
            else if !out && entry.getLsbD 10 then (.error (.transit a), s1)
            else if !out && (entry.extractLsb' 0 10).toNat != natBits e 64 2 + 4 * natBits e 66 5 + 128 * natBits e 71 3 then
              (.error (.fault .kindMismatch), s1)
            else
              let wr := acc = .write ∨ acc = .atomic
              let s0 := if out || peer != own then s1
                else s1.walkRequests u ds.1.guest [(s1.die u.die).atbase.toNat + 2 * (pa / 4096)]
              let s2 := if wr then (s0.setEntryBit u ds.1.guest a 6).setEntryBit u ds.1.guest a 7 else s0.setEntryBit u ds.1.guest a 6
              let t : TlbEntry :=
                { unit := u, asid := asid, base := base, size := 2 ^ (12 + 8 * l), leaf := a, pa := pa
                  peer := peer, r := e.testBit 3, w := e.testBit 4, x := e.testBit 5, dirty := decide wr
                  kind := kindOf (natBits e 64 2), fmt := natBits e 66 5, geo := natBits e 71 3 }
              finish t { s2 with tlb := t :: s2.tlb, free := if peer = own then s2.free else s2.free + 1 }

/-- The worse of two failures of one access: a fault, then in transition, then not present. -/
def Fail.worse : Fail → Fail → Fail
  | .fault k, _ => .fault k
  | _, .fault k => .fault k
  | .transit a, _ => .transit a
  | _, .transit a => .transit a
  | x, _ => x

/-- A run of bytes inside one page: its page, and how many bytes. -/
abbrev Piece := Page × Nat

/-- The bytes from a translated address up to the page-attribute table, where another check decides (R216). -/
def State.tableGap (s : State) (u : UnitId) (p : Page) : Nat :=
  let b := (s.die u.die).atbase.toNat
  if !p.remote && decide (p.pa < b) then b - p.pa else p.size

/-- Translate `n` bytes from an address, page by page (R191): every piece, or the worst failure with the first address
that failed so. -/
def State.translateSpan (s : State) (u : UnitId) (asid : Nat) (va : W64) (n : Nat) (acc : Access) :
    Nat → Except (Fail × W64) (List Piece) × State
  | 0 => (.ok [], s)
  | fuel + 1 =>
    if n = 0 then (.ok [], s)
    else
      let r := s.translate u asid va acc
      match r.1 with
      | .ok p =>
        let len := min (min n (p.base + p.size - vaNat va)) (r.2.tableGap u p)
        let q := r.2.translateSpan u asid (va + BitVec.ofNat 64 len) (n - len) acc fuel
        match q.1 with
        | .ok ps => (.ok ((p, len) :: ps), q.2)
        | .error e => (.error e, q.2)
      | .error f =>
        -- the page's end is that of a 4 KiB page: a larger page fails alike for all its bytes
        let len := min n (4096 - vaNat va % 4096)
        let q := r.2.translateSpan u asid (va + BitVec.ofNat 64 len) (n - len) acc fuel
        match q.1 with
        | .ok _ => (.error (f, va), q.2)
        | .error (g, vb) => (if f.worse g = f then .error (f, va) else .error (g, vb), q.2)

/-- The pages of a range that are not present or in transition, each with an address on it (R221). -/
def State.spanMisses (s : State) (u : UnitId) (asid : Nat) (va : W64) (n : Nat) (acc : Access) : Nat → List (W64 × Fail)
  | 0 => []
  | fuel + 1 =>
    if n = 0 then []
    else
      let len := min n (4096 - vaNat va % 4096)
      let rest := s.spanMisses u asid (va + BitVec.ofNat 64 len) (n - len) acc fuel
      match (s.translate u asid va acc).1 with
      | .ok _ => rest
      | .error (.fault _) => rest
      | .error f => (va, f) :: rest

/-- The physical byte addresses of pieces, each with its page. -/
def pieceBytes : List Piece → List (Page × Nat)
  | [] => []
  | (p, n) :: t => ((List.range n).map (fun i => (p, p.pa + i))) ++ pieceBytes t

end Sys2Proof.Machine
end

