-- ==== Sys2Proof/Machine/Access.lean ====
section
/-!
DEFINITION. Bytes at translated addresses: DRAM of this module, the memory of other modules and the buses behind the
outbound windows (09_memory R187, 14_ordering R296, 24_ports R451), as any unit reads and writes them. The control space
is reached through Machine/Window.lean only.
-/

namespace Sys2Proof.Machine

/-- A page whose bytes are this module's DRAM. -/
def Page.local (p : Page) : Bool := !p.remote && decide (spaceOf p.pa = .dram)

/-- A page of the control space. -/
def Page.control (p : Page) : Bool := !p.remote && decide (spaceOf p.pa = .control)

/-- A page that is reached through a port. -/
def Page.away (p : Page) : Bool := !p.local && !p.control

/-- Where the bytes of a page lie when they are outside this module's DRAM: another module, or a bus. -/
def Page.place (p : Page) : Option (Option Nat) :=
  if p.remote then some (some p.peer) else if p.local || p.control then none else some none

/-- The byte at a physical address of a page, at its home slice. -/
def State.pageByte (s : State) (p : Page) (pa : Nat) : Byte := s.byteNow 0 pa .rc p.place

/-- The bytes of pieces, in order. -/
def State.pieceData (s : State) (ps : List Piece) : List Byte :=
  (pieceBytes ps).map (fun q => s.pageByte q.1 q.2)

/-- A moment at which a read took free values is over. -/
def State.spent (s : State) (ps : List Piece) : State :=
  if ps.all (fun p => p.1.local) then s else s.nextFree

/-- Some line of the pieces is marked as uncorrectable (22_system R424). -/
def State.poisonedIn (s : State) (ps : List Piece) : Bool :=
  !s.poisoned.isEmpty && (pieceBytes ps).any (fun q => q.1.local && s.poisoned.contains (lineOf q.2))

/-- The lines of this module that pieces touch, each with its kind. -/
def linesIn (ps : List Piece) : List (Nat × Kind) :=
  (((pieceBytes ps).filter (fun q => q.1.local)).map (fun q => (lineOf q.2, q.1.kind))).eraseDups

/-- The line requests of a read at the home slices (09_memory R198, 10_pages R223). -/
def State.requestRead (s : State) (ps : List Piece) (w : Writer) : State :=
  (linesIn ps).foldl (fun t l => t.request l.1 w) s

/-- The byte that a part reads: from its core's copy of a PV line, else from the home slice (14_ordering R286, R296). -/
def State.coreByte (s : State) (core : Nat) (p : Page) (pa : Nat) : Byte := s.byteNow core pa p.kind p.place

/-- The bytes of pieces as a part reads them. -/
def State.coreData (s : State) (core : Nat) (ps : List Piece) : List Byte :=
  (pieceBytes ps).map (fun q => s.coreByte core q.1 q.2)

/-- The bytes of pieces as a unit reads them: a core has copies, no other unit does (R291). -/
def State.unitData (s : State) (u : UnitId) (ps : List Piece) : List Byte :=
  match u with
  | .core n => s.coreData n ps
  | _ => s.pieceData ps

/-- What a read of a unit comes to: bytes, or a failure with its address. -/
abbrev Got := Except (Fail × W64) (List Byte)

/-- Read `n` bytes at a virtual address, as a unit does that may not reach the control space; `w` is the agent, when the unit
has several. -/
def State.unitRead (s : State) (u : UnitId) (asid : Nat) (va : W64) (n : Nat) (acc : Access) (w : Writer := .unit u) : Got × State :=
  let r := s.translateSpan u asid va n acc (n / 4096 + 2)
  match r.1 with
  | .error e => (.error e, r.2)
  | .ok ps =>
    if ps.any (fun p => p.1.control) then (.error (.fault .protection, va), r.2)
    else if r.2.poisonedIn ps then (.error (.fault .uncorrectableData, va), r.2)
    else (.ok (r.2.unitData u ps), (r.2.spent ps).requestRead ps w)

/-- Bytes as masked writes at physical addresses. -/
def pieceWrites (ps : List Piece) (bs : List Byte) : List (Page × ByteWrite) :=
  ((pieceBytes ps).zip bs).map (fun q => (q.1.1, { addr := q.1.2, value := q.2, bits := 255 }))

/-- A store of a unit to another module is sent; a failure is reported with origin 5 only (22_system R424). -/
def State.sendAway (s : State) (asid : Nat) (va : W64) (m addr : Nat) : State :=
  match s.sendFails m addr with
  | some k => (s.pushFault 0 { faultRec (causeCode 5 k) 3 0 asid with va := va }).nextFree
  | none => { s.nextFree with ports := { s.ports with written := (m :: s.ports.written).eraseDups } }

/-- Perform writes that a unit makes, for an address space and from a virtual address on: those of this module's DRAM
stand, page kind by page kind; those of other modules and of the buses leave the module. -/
def State.performPages (s : State) (w : Writer) (ws : List (Page × ByteWrite)) (asid : Nat := 0) (va : W64 := 0) : State :=
  let s1 := [Kind.sc, Kind.rc, Kind.ws, Kind.pv].foldl (fun t k =>
    t.performBytes k w ((ws.filter (fun q => q.1.local && decide (q.1.kind = k))).map (·.2))) s
  let away := ws.filter (fun q => q.1.remote)
  ((away.map (fun q => q.1.peer)).eraseDups).foldl (fun t m =>
    match away.find? (fun q => q.1.peer == m) with
    | some q => t.sendAway asid va m q.2.addr
    | none => t) s1

/-- Write bytes at a virtual address, as a unit does that may not reach the control space: none is written unless all
translate. -/
def State.unitWrite (s : State) (u : UnitId) (asid : Nat) (va : W64) (bs : List Byte) (w : Writer := .unit u) :
    Except (Fail × W64) Unit × State :=
  let r := s.translateSpan u asid va bs.length .write (bs.length / 4096 + 2)
  match r.1 with
  | .error e => (.error e, r.2)
  | .ok ps =>
    if ps.any (fun p => p.1.control) then (.error (.fault .protection, va), r.2)
    else (.ok (), r.2.performPages w (pieceWrites ps bs) asid va)

/-! ### The store buffer of a hart (14_ordering R302) -/

/-- The hart as an agent. -/
def hartWriter (n : Nat) : Writer := .unit (.hart n)

/-- A store of the hart is performed at its home slice (R286, R292), or sent to its module; an SC store is a release. -/
def State.hartEntry (s : State) (n : Nat) (e : BufEntry) : State :=
  match e.op with
  | .write .sc bs => (s.performBytes .sc (hartWriter n) bs).releasedBy (hartWriter n)
  | .write k bs => s.performBytes k (hartWriter n) bs
  | .remote (some m) addr va => s.sendAway (bitsAt (s.hart n).satp 44 16) va m addr
  | _ => s

/-- The stores of a hart that are due are performed, with those that they stand behind. -/
def State.hartDue (s : State) (n : Nat) (due : BufEntry → Bool) : State :=
  let h := s.hart n
  let f := flagDue 255 due h.buffer
  let todo := (f.filter (·.2)).map (·.1)
  if todo.isEmpty then s
  else todo.foldl (fun t e => t.hartEntry n e) (s.setHart n { h with buffer := (f.filter (fun p => !p.2)).map (·.1) })

/-- A release of the hart at `.peer`: every store is performed, and WS tags clear (R280, R284). -/
def State.hartRelease (s : State) (n : Nat) : State :=
  let t := (s.hartDue n (fun _ => true)).releasedBy (hartWriter n)
  { t with ports := { t.ports with written := [] } }

end Sys2Proof.Machine
end

