-- ==== Sys2Proof/Machine/Ops.lean ====
section
/-!
DEFINITION. The shared operations of the SIMT cores: the issuing part and its active lanes (00_scope R6, 06_control
R139), waits (05_work R113), taking a precise trap (22_system R426), page requests (10_pages R221), the fault queue
(R427), advancing past a hint group (03_encoding R69), and the frame of a crew (05_work R119, 06_control R144).
-/

namespace Sys2Proof.Machine

/-- What a step answers. -/
abbrev Out := Host.Outcome State Fault Refusal

/-! ### The issuing part -/

/-- The part that issues: its crew and gang, its slices, the word's address, the address of the first hint of its group
and the group's length in bytes, and the pending hints. -/
structure Ctx where
  crew : Nat
  gang : Nat
  low : Nat
  part : List Nat
  c : Crew
  g : Gang
  pc : W64
  start : W64
  len : Nat
  hints : List W32

/-- The slices of the part as a mask. -/
def Ctx.mask (x : Ctx) : BitVec 8 := sliceMask x.part

/-- The context of a part named by one of its slices. -/
def State.ctxOf (s : State) (crew gang slice : Nat) : Option Ctx :=
  match s.crew? crew with
  | none => none
  | some c =>
    match SMap.find c.gangs gang with
    | none => none
    | some g =>
      if (g.slice slice).exited then none
      else
        let part := g.part slice
        let low := part.headD slice
        let sl := g.slice low
        some { crew := crew, gang := gang, low := low, part := part, c := c, g := g, pc := sl.pc,
               start := sl.pc - BitVec.ofNat 64 (4 * sl.hints.length), len := 4 * (sl.hints.length + 1), hints := sl.hints }

/-- The context of the part that `cur` names. -/
def State.ctx? (s : State) : Option Ctx :=
  match s.cur with
  | .gang c g k => s.ctxOf c g k
  | _ => none

/-- `active(lane)` under a guard field (R6, R59, R139). -/
def Ctx.on (x : Ctx) (guard : Nat) (lane : Nat) : Bool :=
  let sl := x.g.slice (lane / 4)
  x.part.contains (lane / 4) && sl.mask.getLsbD (lane % 4) && sl.live.getLsbD (lane % 4) && x.g.regs.getP guard lane

/-- The active lanes under a guard, rising. -/
def Ctx.lanes (x : Ctx) (guard : Nat) : List Nat := (List.range 32).filter (x.on guard)

/-- Lanes a restart still has to perform: all active ones, or those of the replay mask (09_memory R195). -/
def Ctx.replayLanes (x : Ctx) (guard : Nat) : List Nat :=
  match SMap.find x.g.replay x.low with
  | some (m, _) => (x.lanes guard).filter (fun i => m.getLsbD i)
  | none => x.lanes guard

/-- The lowest-numbered slice of the part with an active lane (R147, R190). -/
def Ctx.uslice (x : Ctx) : Option Nat := (x.lanes 7).head?.map (· / 4)

/-- The payload of the pending hint of a kind (R66). -/
def hintOf (hs : List W32) (kind : Nat) : Option Nat :=
  (hs.find? (fun w => bitsAt w 22 4 == kind)).map (fun w => bitsAt w 0 22)

/-- The payload of the part's hint of a kind. -/
def Ctx.hint (x : Ctx) (kind : Nat) : Option Nat := hintOf x.hints kind

/-- Rounding, saturation and flush of a kind-2 hint, or the defaults (R83). -/
def Ctx.rnd (x : Ctx) : Rnd :=
  match x.hint 2 with
  | some p => Rnd.ofPayload p
  | none => {}

/-- The scope of a kind-5 hint, or `.dev` (R196). -/
def Ctx.scope (x : Ctx) : Nat := (x.hint 5).getD 5

/-- The unit that translates for a part: its core. -/
def Ctx.unit (x : Ctx) : UnitId := .core x.c.core

/-- The die of a part's core. -/
def Ctx.die (x : Ctx) : Nat := dieOfCore x.c.core

/-- The part as a reference. -/
def Ctx.ref (x : Ctx) : PartRef := { crew := x.crew, gang := x.gang, slice := x.low }

/-! ### Advancing -/

/-- Every slice of the part goes to the word after the issued one; hints and the replay mask are spent. -/
def Gang.retire (g : Gang) (x : Ctx) : Gang :=
  { g.mapSlices x.part (fun _ sl => { sl with pc := x.pc + 4, hints := [], unchecked := false, remote := 0 }) with
    replay := SMap.erase g.replay x.low }

/-- Store a gang after its part's instruction and advance the part. -/
def State.retire (s : State) (x : Ctx) (g : Gang) : State := s.setGang x.crew x.gang (g.retire x)

/-- Advance the part over the gang as it stands in the state. -/
def State.retireHere (s : State) (x : Ctx) : State :=
  match s.gang? x.crew x.gang with
  | some g => s.retire x g
  | none => s

/-- Change the registers of the gang as it stands in the state, then advance the part. -/
def State.retireRegs (s : State) (x : Ctx) (f : Regs → Regs) : State :=
  match s.gang? x.crew x.gang with
  | some g => s.retire x { g with regs := f g.regs }
  | none => s

/-- The part has been rolled back to a fence since its context was read. -/
def State.moved (s : State) (x : Ctx) : Bool :=
  match s.gang? x.crew x.gang with
  | some g => (g.slice x.low).pc != x.pc || (g.slice x.low).hints != x.hints
  | none => true

/-! ### Waits and traps -/

/-- The slices of the part wait at the first hint of their group (R69, R113). -/
def Gang.waitAt (g : Gang) (x : Ctx) (code num operand clock : Nat) : Gang :=
  g.mapSlices x.part (fun _ sl => { sl with
    pc := x.start
    hints := []
    remote := 0
    wait := some { code := code, num := num, operand := operand, since := clock, len := x.len } })

/-- Make the part wait. An earlier fence of the part completes first; if that rolls the part back, it stands at the
fence and does not wait. -/
def State.waitPart (s : State) (x : Ctx) (code num operand : Nat) : State :=
  let s1 := s.completeFence x.crew x.gang x.mask
  if s1.moved x then s1
  else
    match s1.gang? x.crew x.gang with
    | some g => s1.setGang x.crew x.gang (g.waitAt x code num operand s1.clock)
    | none => s1

/-- End the wait of slices. -/
def Gang.wake (g : Gang) (ks : List Nat) : Gang := g.mapSlices ks (fun _ sl => { sl with wait := none })

/-- TAKE A PRECISE TRAP (22_system R426): the part stops at the first hint of its group, waits with code 10, and its
trap stands with the gang until its record is written; `va` and `lanes` are the faulting address and lanes (R427). -/
def State.takeTrapAt (s : State) (x : Ctx) (t : Trap) (va : W64) (lanes : LaneMask) : State :=
  let s1 := s.completeFence x.crew x.gang x.mask
  if s1.moved x then s1
  else
    match s1.gang? x.crew x.gang with
    | some g =>
      let g1 := g.waitAt x 10 0 (vaNat va) s1.clock
      s1.setGang x.crew x.gang { g1 with
        stops := g1.stops ++ [{ slices := x.mask, trap := t, addr := x.start, va := va, lanes := lanes, tag := none, park := false }] }
    | none => s1

/-- A precise trap that is not a lane's: the record's lane mask holds the part's active lanes. -/
def State.takeTrap (s : State) (x : Ctx) (t : Trap) : State := s.takeTrapAt x t 0 (laneMask (x.lanes 7))

/-- The illegal-encoding trap (R72). -/
def State.illegal (s : State) (x : Ctx) : State := s.takeTrap x { kind := .illegalEncoding }

/-! ### What an instruction waits for before it acts (13_atomics R268, 20_coprocessors R389) -/

/-- How an instruction meets a fence that has not completed: run ahead, or wait (R268). -/
inductive Past where
  | runs | waits
deriving DecidableEq, Repr

/-- What an instruction needs at issue: its `v` registers (base and count, R58) under its guard, how it meets a fence,
whether it waits for every outstanding coprocessor record of the part (R389), whether it reads or replaces `af`,
and its `s` registers where they are told (none: any). -/
structure Need where
  guard : BitVec 3 := 7
  vs : List (BitVec 6 × Nat) := []
  past : Past := .runs
  records : Bool := false
  flags : Bool := false
  ss : Option (List (Nat × Nat)) := none
deriving DecidableEq, Repr

/-- A register of the list lies at or above the crew's registers per lane (R58). Only an access of an active lane reads
or writes a register (notes/assumptions/21). -/
def Ctx.rangeBreach (x : Ctx) (n : Need) : Bool :=
  !(x.lanes n.guard.toNat).isEmpty && n.vs.any (fun r => decide (recRegs x.c.record < r.1.toNat + r.2))

/-- The instruction reads or writes one of some `s` registers. -/
def Need.usesS (n : Need) (reg count : Nat) : Bool :=
  match n.ss with
  | none => true
  | some l => l.any (fun u => decide (u.1 < reg + count) && decide (reg < u.1 + u.2))

/-- An outstanding record holds the instruction (R389); the cursor that a record of `rast` writes holds the instruction that
uses it, as a record register does (R402; notes/assumptions/52). -/
def Ctx.recordHazard (x : Ctx) (n : Need) : Bool :=
  x.g.records.any (fun r => (r.slices &&& x.mask) != 0 &&
    (n.records || n.vs.any (fun u => decide (u.1.toNat < r.reg + r.count) && decide (r.reg < u.1.toNat + u.2))
      || (match r.cursor with | some c => n.usesS c 1 | none => false)))

/-- A load whose data has not arrived holds the instruction: it may still fault or is an acquire, or the instruction uses
its destination, or reads the flags that its conversion raises (05_work R113). -/
def Ctx.loadHazard (x : Ctx) (n : Need) : Bool :=
  let uses := fun (reg count : Nat) => n.vs.any (fun u => decide (u.1.toNat < reg + count) && decide (reg < u.1.toNat + u.2))
  x.g.loads.any (fun f => (f.slices &&& x.mask) != 0 &&
    (f.holds || match f.dest with
      | .plain reg w => uses reg (widthRegs w)
      | .decoded reg ty => n.flags || uses reg (if (memType ty).wide then 2 else 1)
      | .uniform reg w => n.usesS reg (widthRegs w)))

/-- The part waits for data (R113 code 3). -/
def State.waitData (s : State) (x : Ctx) : State :=
  match s.gang? x.crew x.gang with
  | some g => s.setGang x.crew x.gang (g.waitAt x 3 5 0 s.clock)
  | none => s

/-! ### Page requests (10_pages R221) -/

/-- Union bits of a request (R222). -/
def Access.union : Access → BitVec 8
  | .read => 1
  | .write => 2
  | .execute => 4
  | .atomic => 8

/-- A request reaches a cluster's merge stage: it merges, takes an entry, or is held while the stage is full. -/
def State.mergeRequest (s : State) (cluster asid page : Nat) (union : BitVec 8) (leaf : Nat) (ws : List Waiter) : State :=
  let c := s.cluster cluster
  if c.merge.any (fun e => e.asid == asid && e.page == page) then
    s.setCluster cluster { c with merge := c.merge.map (fun e =>
      if e.asid = asid ∧ e.page = page then
        { e with
          union := e.union ||| union
          leaf := if union.getLsbD 5 then leaf else e.leaf
          count := min (e.count + 1) 65535
          waiters := e.waiters ++ ws }
      else e) }
  else
    let e : MergeEntry := { asid := asid, page := page, union := union, count := 1, leaf := leaf, written := false, waiters := ws }
    if c.merge.length < 128 then s.setCluster cluster { c with merge := c.merge ++ [e] }
    else s.setCluster cluster { c with mergeHeld := c.mergeHeld ++ [e] }

/-- The merge stage of a unit that has no fault filter (R221). The Cellarer, which R221 does not list, uses that of cluster 0 of
its die, as the command engine does (notes/assumptions/67). -/
def UnitId.mergeCluster : UnitId → Nat
  | .core n => clusterOfCore n
  | .vintner c => c
  | .decanter c => c
  | .coprocessor c => c
  | .engine d => 16 * d
  | .cellarer d => 16 * d
  | _ => 0

/-- A unit without a fault filter asks for a page. -/
def State.unitRequest (s : State) (u : UnitId) (asid page : Nat) (union : BitVec 8) (leaf : Nat) (w : Waiter) : State :=
  s.mergeRequest u.mergeCluster asid page union leaf [w]

/-- A part, or a crew for its frame, adds itself to its core's filter entry of a page, allocating one on a miss; a full filter
holds it (R221). A newly allocated entry goes to the merge stage. -/
def State.filterRequest (s : State) (core asid page : Nat) (union : BitVec 8) (leaf : Nat) (ws : List Waiter) (p : Waiter) : State :=
  let c := s.core core
  if c.filter.any (fun e => e.asid == asid && e.page == page) then
    s.setCore core { c with filter := c.filter.map (fun e =>
      if e.asid = asid ∧ e.page = page then
        { e with union := e.union ||| union, leaf := if union.getLsbD 5 then leaf else e.leaf, waiters := e.waiters ++ ws }
      else e) }
  else if c.filter.length < 32 then
    let e : FilterEntry := { asid := asid, page := page, union := union, leaf := leaf, waiters := ws }
    (s.setCore core { c with filter := c.filter ++ [e] }).mergeRequest (clusterOfCore core) asid page union leaf []
  else s.setCore core { c with held := c.held ++ [(p, [(asid, page, union, leaf)])] }

/-- A crew files a request for its frame, as for a store fault of its core (05_work R119). -/
def State.frameRequest (s : State) (crew core asid page : Nat) (union : BitVec 8) (leaf : Nat) : State :=
  s.filterRequest core asid page union leaf [.crewFrame crew] (.crewFrame crew)

/-- The request of an access that failed: the page, the access, and whether its attributes are in transition. -/
def Fail.union (f : Fail) (acc : Access) : BitVec 8 :=
  match f with
  | .transit _ => acc.union ||| 32
  | _ => acc.union

/-- The leaf entry's address of a failure. -/
def Fail.leaf : Fail → Nat
  | .notPresent a => a
  | .transit a => a
  | .fault _ => 0

/-- The page number of a virtual address, as the base of its 4 KiB page (R222). -/
def pageOf (va : W64) : Nat := vaNat va / 4096 * 4096

/-- The part files requests for pages and waits with code 10; `fetch` marks a wait for an instruction fetch. -/
def State.requestPages (s : State) (x : Ctx) (fetch : Bool) (reqs : List (W64 × Fail × Access)) : State :=
  let va := (reqs.head?.map (·.1)).getD 0
  let s1 := s.waitPart x 10 (if fetch then 1 else 0) (vaNat va)
  let waits := match s1.gang? x.crew x.gang with
    | some g => (g.slice x.low).wait.isSome
    | none => false
  if !waits then s1
  else
    let pages := (reqs.map (fun r => (pageOf r.1, r.2.1.union r.2.2, r.2.1.leaf)))
    let keys := (pages.map (·.1)).eraseDups
    keys.foldl (fun t k =>
      let mine := pages.filter (fun p => p.1 == k)
      let u := mine.foldl (fun a p => a ||| p.2.1) 0
      let leaf := (mine.head?.map (·.2.2)).getD 0
      t.filterRequest x.c.core x.c.asid k u leaf [.part x.ref] (.part x.ref)) s1

/-- A stop on lanes that did not translate (09_memory R194): a delivered fault of the lowest lane with one, or a page
request when every lane found its page not present or in transition; `more` holds the other such pages of lanes that cross
pages (R221). The replay mask stays with the part. -/
def State.stopLanes (s : State) (x : Ctx) (acc : Access) (bad : List (Nat × Fail × W64)) (more : List (W64 × Fail)) : State :=
  let mask := laneMask (bad.map (·.1))
  let low := (bad.map (fun b => vaNat b.2.2)).foldl min (2 ^ 52)
  let keep := fun (t : State) =>
    match t.gang? x.crew x.gang with
    | some g => t.setGang x.crew x.gang { g with replay := SMap.put g.replay x.low (mask, BitVec.ofNat 64 low) }
    | none => t
  let real := bad.filter (fun b => match b.2.1 with | .fault _ => true | _ => false)
  match real with
  | (_, .fault k, va) :: _ => keep (s.takeTrapAt x { kind := k } va (laneMask (real.map (·.1))))
  | _ => keep (s.requestPages x false (bad.map (fun b => (b.2.2, b.2.1, acc)) ++ more.map (fun m => (m.1, m.2, acc))))

/-! ### The frame of a crew (05_work R119, R120; 06_control R144) -/

/-- Bytes of a gang block of the park image (R120). -/
def gangBlock (regs : Nat) : Nat := 5120 + 128 * regs

/-- Offset of the divergence spill area. -/
def spillOffset (c : Crew) : Nat := 256 + recGangs c.record * gangBlock (recRegs c.record)

/-- Bytes a frame must hold (R100, R144). -/
def frameNeed (gangs regs : Nat) : Nat := 256 + gangs * (gangBlock regs + 32768)

/-- Size in bytes of a die's pool frames (22_system R433). -/
def Die.frameSize (d : Die) : Nat := bitsAt d.fpcfg 16 16 * 4096

/-- The pieces of a run of a crew's frame: translated in its address space, or at the pool frame's physical address. -/
def State.frameSpan (s : State) (c : Crew) (off n : Nat) (acc : Access) : Except (Fail × W64) (List Piece) × State :=
  match c.frame with
  | .pool i =>
    let d := s.die (dieOfCore c.core)
    let pa := d.fpbase.toNat + i * d.frameSize + off
    (.ok [({ pa := pa, peer := s.ports.devid, remote := false, kind := .rc, fmt := 0, geo := 0, base := 0, size := 0 }, n)], s)
  | .named va => s.translateSpan (.core c.core) c.asid (va + BitVec.ofNat 64 off) n acc (n / 4096 + 2)

/-- Write runs of bytes into a crew's frame: none is written unless all translate. -/
def State.frameStore (s : State) (crew : Nat) (c : Crew) :
    List (Nat × List Byte) → List (Page × ByteWrite) → Except (Fail × W64) Unit × State
  | [], acc => (.ok (), s.performPages (.gang crew 0 0) acc c.asid)
  | (off, bs) :: t, acc =>
    let r := s.frameSpan c off bs.length .write
    match r.1 with
    | .error e => (.error e, r.2)
    | .ok ps => r.2.frameStore crew c t (acc ++ pieceWrites ps bs)

/-- Bytes of a crew's frame; a line with an uncorrectable error is a fault (22_system R424). -/
def State.frameLoad (s : State) (crew : Nat) (c : Crew) (off n : Nat) : Got × State :=
  let r := s.frameSpan c off n .read
  match r.1 with
  | .error e => (.error e, r.2)
  | .ok ps =>
    if r.2.poisonedIn ps then
      (.error (.fault .uncorrectableData, match c.frame with | .named va => va + BitVec.ofNat 64 off | .pool _ => 0), r.2)
    else (.ok (r.2.pieceData ps), (r.2.spent ps).requestRead ps (.gang crew 0 0))

/-- Write a value into a crew's frame. -/
def State.frameWrite (s : State) (crew : Nat) (c : Crew) (off n v : Nat) : Except (Fail × W64) Unit × State :=
  s.frameStore crew c [(off, natBytes n v)] []

/-- Read a value of a crew's frame. -/
def State.frameRead (s : State) (crew : Nat) (c : Crew) (off n : Nat) : Except (Fail × W64) Nat × State :=
  let r := s.frameLoad crew c off n
  match r.1 with
  | .error e => (.error e, r.2)
  | .ok bs => (.ok (bytesNat bs), r.2)

/-- The 128-bit value of a divergence-stack entry in memory (R144). -/
def DivEntry.word (e : DivEntry) : Nat :=
  e.pc.toNat + (match e.rpc with | some r => vaNat r | none => 0) * 2 ^ 64 + e.mask.toNat * 2 ^ 116
    + (if e.rpc.isSome then 2 ^ 120 else 0)

/-- Sign extension of a 52-bit address (R14). -/
def sext52 (v : Nat) : W64 := (BitVec.ofNat 52 v).signExtend 64

/-- The entry a 128-bit value holds (R144). -/
def DivEntry.ofWord (w : Nat) : DivEntry :=
  { pc := BitVec.ofNat 64 w, mask := BitVec.ofNat 4 (natBits w 116 4),
    rpc := if w.testBit 120 then some (sext52 (natBits w 64 52)) else none }

/-- Offset of entry k of a slice's stack in the frame (R144). -/
def spillSlot (c : Crew) (gang slice k : Nat) : Nat := spillOffset c + (8 * gang + slice) * 4096 + 16 * k

/-- Depth of a slice's stack (R141). -/
def Slice.depth (x : Slice) : Nat := x.spilled + x.stack.length

/-- Push an entry; above 16 held entries the lowest one is first written to the spill area (R144, R145). After pops the core may
hold fewer than 16 entries of a deeper stack, and a push then writes nothing (notes/assumptions/68). -/
def State.pushEntry (s : State) (crew gang slice : Nat) (c : Crew) (sl : Slice) (e : DivEntry) :
    Except (Fail × W64) Slice × State :=
  if sl.stack.length < 16 then (.ok { sl with stack := e :: sl.stack }, s)
  else
    match sl.stack.getLast? with
    | none => (.ok { sl with stack := e :: sl.stack }, s)
    | some low =>
      let r := s.frameWrite crew c (spillSlot c gang slice sl.spilled) 16 low.word
      match r.1 with
      | .error f => (.error f, r.2)
      | .ok _ => (.ok { sl with stack := e :: sl.stack.dropLast, spilled := sl.spilled + 1 }, r.2)

/-- Push entries in order. -/
def State.pushAll (s : State) (crew gang slice : Nat) (c : Crew) (sl : Slice) :
    List DivEntry → Except (Fail × W64) Slice × State
  | [] => (.ok sl, s)
  | e :: t =>
    let r := s.pushEntry crew gang slice c sl e
    match r.1 with
    | .error f => (.error f, r.2)
    | .ok sl' => r.2.pushAll crew gang slice c sl' t

/-- Read spilled entries back under the held ones, up to `n` of them (R145), without the lanes that have exited (R139). -/
def State.refill (s : State) (crew gang slice : Nat) (c : Crew) (sl : Slice) : Nat → Except (Fail × W64) Slice × State
  | 0 => (.ok sl, s)
  | n + 1 =>
    if sl.spilled = 0 then (.ok sl, s)
    else
      let r := s.frameRead crew c (spillSlot c gang slice (sl.spilled - 1)) 16
      match r.1 with
      | .error f => (.error f, r.2)
      | .ok w =>
        let e := { DivEntry.ofWord w with mask := (DivEntry.ofWord w).mask &&& sl.live }
        r.2.refill crew gang slice c { sl with stack := sl.stack ++ [e], spilled := sl.spilled - 1 } n

/-- What a settled slice may meet: a translation failure of the spill area, or a popped program counter that is not a
multiple of 4 (R145). -/
inductive PopFault where
  | fail (f : Fail) (va : W64)
  | misaligned
deriving DecidableEq, Repr

/-- Before a slice issues, pop entries while pc equals rpc or no live lane remains; a slice with an empty stack and no
live lane exits (R142). -/
def State.settle (s : State) (crew gang slice : Nat) (c : Crew) (sl : Slice) : Nat → Except PopFault Slice × State
  | 0 => (.ok sl, s)
  | fuel + 1 =>
    let none' := (sl.mask &&& sl.live) == 0
    if sl.stack.isEmpty ∧ sl.spilled = 0 then (.ok (if none' then { sl with exited := true } else sl), s)
    else if sl.rpc = some sl.pc ∨ none' then
      let r := if sl.stack.length ≤ 8 then s.refill crew gang slice c sl 8 else (.ok sl, s)
      match r.1 with
      | .error f => (.error (.fail f.1 f.2), r.2)
      | .ok sl1 =>
        match sl1.stack with
        | [] => (.ok sl1, r.2)
        | e :: t =>
          if e.pc.extractLsb' 0 2 ≠ 0 then (.error .misaligned, r.2)
          else r.2.settle crew gang slice c { sl1 with pc := e.pc, mask := e.mask, rpc := e.rpc, stack := t } fuel
    else (.ok sl, s)

end Sys2Proof.Machine
end

