-- ==== Sys2Proof/Machine/Inbound.lean ====
section
/-!
DEFINITION. Requests that arrive through the host port and the storage port, once they have a virtual address (24_ports
R450, R452, 14_ordering R303): performed, held for a page, or refused.
-/

namespace Sys2Proof.Machine

/-- The unit that translates for a held request. -/
def HeldReq.unit (h : HeldReq) : UnitId := if h.storage then .storagePort else .hostPort

/-- The access of a request (10_pages R214). -/
def portAccess : PortOp → Access
  | .read => .read
  | .write => .write
  | _ => .atomic

/-- An answer goes back to a requester. -/
def State.answer (s : State) (requester : Nat) (a : Answer) : State :=
  { s with ports := { s.ports with answers := (requester, a) :: s.ports.answers } }

/-- A request that a translation refuses (R452): a read completes with Unsupported Request, a write is dropped, and a
type-3 record with the cause goes to the fault queue. -/
def State.refuseInbound (s : State) (h : HeldReq) (k : FaultKind) : State :=
  let s1 := if h.q.op = .write then s else s.answer h.q.requester .unsupported
  s1.pushFault 0 { faultRec (causeCode 5 k) 3 0 h.asid with va := h.va }

/-- The bytes of a request's data. -/
def portBytes (q : PortReq) : List Byte := natBytes q.size q.value.toNat

/-- An atomic that a PCI Express port completes (R450): FetchAdd and Swap of 4 and 8 bytes, CAS of 4, 8 and 16, each
naturally aligned. -/
def portCas (op : AtomOp) (addr size : Nat) : Bool :=
  (match op with
    | .add => size == 4 || size == 8
    | .xchg => size == 4 || size == 8
    | .cas => size == 4 || size == 8 || size == 16
    | _ => false) && addr % size == 0

/-- The host port serves a request of this form: data of up to 512 bytes, and the listed AtomicOps (R450). The storage
port lists none. -/
def portListed (q : PortReq) (storage : Bool) : Bool :=
  match q.op with
  | .read => decide (q.size ≤ 512)
  | .write => decide (q.size ≤ 512)
  | .atomic op => !storage && portCas op q.addr q.size
  | .floating _ => false

/-- Atomics are refused on WS and PV pages, as on every path to a home slice (13_atomics R252). -/
def atomicKind (k : Kind) : Bool := decide (k = .sc) || decide (k = .rc)

/-- An atomic of an integer operation on memory of this module: the old value is the answer. -/
def State.portAtomic (s : State) (w : Writer) (k : Kind) (op : HomeOp) (pa : Nat) (q : PortReq) : State :=
  let r := s.atomic k w op pa q.size (q.value.toNat % 2 ^ (8 * q.size)) (q.compare.toNat % 2 ^ (8 * q.size))
  r.2.2.answer q.requester (.data (natBytes q.size r.1))

/-- What an attempt at a request comes to: it is over, or it waits for a page. -/
inductive Tried where
  | ended (s : State)
  | hold (page : Nat) (s : State)

/-- Attempt a request: translate under R214 with origin 5, then perform it at the home slices. -/
def State.tryInbound (s : State) (h : HeldReq) : Tried :=
  let q := h.q
  let acc := portAccess q.op
  let r := s.translateSpan h.unit h.asid h.va q.size acc 3
  match r.1 with
  | .error (.fault k, _) => .ended (r.2.refuseInbound h k)
  | .error (f, va) => .hold (pageOf va) (r.2.unitRequest h.unit h.asid (pageOf va) (f.union acc) f.leaf (.inbound 0))
  | .ok ps =>
    if ps.any (fun p => p.1.control) then .ended (r.2.refuseInbound h .protection)
    else if acc ≠ .write ∧ r.2.poisonedIn ps then .ended (r.2.refuseInbound h .uncorrectableData)
    else match q.op with
      | .read => .ended (((r.2.answer q.requester (.data (r.2.pieceData ps))).spent ps).requestRead ps (.unit h.unit))
      | .write => .ended (r.2.performPages (.unit h.unit) (pieceWrites ps (portBytes q)) h.asid h.va)
      | .atomic op =>
        match ps with
        | [(p, _)] =>
          if p.local && atomicKind p.kind then .ended (r.2.portAtomic (.unit h.unit) p.kind (.int op) p.pa q)
          else .ended (r.2.answer q.requester .unsupported)
        | _ => .ended (r.2.answer q.requester .unsupported)
      | .floating _ => .ended (r.2.answer q.requester .unsupported)

/-- Replace or drop the held request at an index. -/
def State.setHeld (s : State) (n : Nat) (h : Option HeldReq) : State :=
  { s with ports := { s.ports with
      held := match h with
        | some x => s.ports.held.set n x
        | none => s.ports.held.eraseIdx n } }

/-- Attempt, in order, the held requests that wait for no page; a posted write stands behind every held one of its
requester (R303). -/
def State.pumpInbound (s : State) (fuel idx : Nat) : State :=
  match fuel with
  | 0 => s
  | n + 1 =>
    match s.ports.held[idx]? with
    | none => s
    | some h =>
      let behind := h.q.op == .write && (s.ports.held.take idx).any (fun k => k.q.requester == h.q.requester && k.storage == h.storage)
      if h.page.isSome || behind then s.pumpInbound n (idx + 1)
      else match s.tryInbound h with
        | .ended t => (t.setHeld idx none).pumpInbound n idx
        | .hold pg t => (t.setHeld idx (some { h with page := some pg, since := s.clock })).pumpInbound n (idx + 1)

/-- A request arrives: it is attempted, unless it must stand behind a held one. -/
def State.arriveInbound (s : State) (h : HeldReq) : State :=
  let n := s.ports.held.length
  ({ s with ports := { s.ports with held := s.ports.held ++ [h] } } : State).pumpInbound 1 n

end Sys2Proof.Machine
end

