-- ==== Sys2Proof/Machine/Issue.lean ====
section
/-!
DEFINITION. Issue: the one place where an instruction meets its agent. A part of a gang waits for what it must wait for
and checks its registers (03_encoding R58, 13_atomics R268, 20_coprocessors R389); a Vintner's context executes the
forms marked V and no other (03_encoding R64), and a fault there ends its card (17_matrix R331).
-/

namespace Sys2Proof.Machine

/-! ### Vintner contexts (17_matrix R328 to R331) -/

/-- The context a Vintner issues from: cluster, class, the context, the word's address and that of its first hint. -/
structure VRun where
  cluster : Nat
  cls : Nat
  k : VCtx
  pc : W64
  start : W64

/-- The context a cluster's Vintner issues from, when it does not wait. -/
def State.vRun? (s : State) (cl : Nat) : Option VRun :=
  let c := s.cluster cl
  match c.vcur with
  | none => none
  | some cls =>
    match SMap.find c.vctx cls with
    | none => none
    | some k =>
      match k.wait with
      | some _ => none
      | none =>
        some { cluster := cl, cls := cls, k := k, pc := k.pc, start := k.pc - BitVec.ofNat 64 (4 * k.hints.length) }

/-- Store a context. -/
def State.setV (s : State) (x : VRun) (k : VCtx) : State :=
  let c := s.cluster x.cluster
  s.setCluster x.cluster { c with vctx := SMap.put c.vctx x.cls k }

/-- Store a context after its instruction: it goes to the next word and its hints are spent. -/
def State.vRetire (s : State) (x : VRun) (k : VCtx) : State := s.setV x { k with pc := x.pc + 4, hints := [] }

/-- The context waits at the first hint of its group (R329). -/
def State.vWait (s : State) (x : VRun) (w : VWait) : State :=
  s.setV x { x.k with pc := x.start, hints := [], wait := some w }

def VCtx.getS (k : VCtx) (r : Nat) : W32 := SMap.getD k.s r 0
def VCtx.setS (k : VCtx) (r : Nat) (a : W32) : VCtx := { k with s := SMap.setD k.s r a 0 }
def VCtx.getS2 (k : VCtx) (r : Nat) : W64 := pairOf (k.getS r) (k.getS (r + 1))
def VCtx.setS2 (k : VCtx) (r : Nat) (a : W64) : VCtx := (k.setS r (pairLo a)).setS (r + 1) (pairHi a)
def VCtx.getP (k : VCtx) (p : Nat) : Bool := if p = 7 then true else k.p.getLsbD p
def VCtx.setP (k : VCtx) (p : Nat) (b : Bool) : VCtx := if p = 7 then k else { k with p := maskSet k.p p b }

/-- A card's end is known to its merge group: cause code (0 none), address and flags (18_engines R354, R368). -/
def State.endCard (s : State) (die group id cause : Nat) (addr : W64) (flags : BitVec 5) : State :=
  let d := s.die die
  let g : Group := SMap.getD d.groups group {}
  s.setDie die { d with groups := SMap.put d.groups group { g with
    cards := g.cards.map (fun c => if c.id = id then { c with ended := some (cause, addr, flags) } else c) } }

/-- Empty the banks of a cluster's array. -/
def Cluster.emptyBanks (c : Cluster) : Cluster := { c with bank0 := {}, bank1 := {}, active1 := true }

/-- A card leaves its Vintner: the context goes, with the array operations that have not started and its banks
(R331, R341). The completion is a release (14_ordering R281, R284). -/
def State.leaveVintner (s : State) (x : VRun) (cause : Nat) (addr : W64) (flags : BitVec 5) : State :=
  let c := s.cluster x.cluster
  let c1 := if c.vcur = some x.cls then { c.emptyBanks with vcur := none } else c
  ((s.releasedBy (.unit (.vintner x.cluster))).setCluster x.cluster { c1 with vctx := SMap.erase c1.vctx x.cls }).endCard x.k.die x.k.group x.k.card.id cause addr flags

/-- A fault in a Vintner has origin 1 and ends the card, with the instruction's address (R331). -/
def State.vFault (s : State) (x : VRun) (k : FaultKind) : State :=
  s.leaveVintner x (causeCode 1 k) x.start x.k.flags

/-- The payload of a context's hint of a kind. -/
def VRun.hint (x : VRun) (kind : Nat) : Option Nat := hintOf x.k.hints kind

/-- The unit that translates for a Vintner. -/
def VRun.unit (x : VRun) : UnitId := .vintner x.cluster

/-! ### Issue -/

/-- Issue an instruction of a part: its fields must admit an instruction in the part's state (`ok`, R71); it waits for
records, data and fences it may not pass, its registers are checked, and it acts. -/
def State.issueGang (s : State) (x : Ctx) (n : Need) (ok : Ctx → Bool) (body : Ctx → State → Out) : Out :=
  if !ok x then .next (s.illegal x)
  else if x.recordHazard n then .next (s.waitPart x 3 0 0)
  else if x.loadHazard n then .next (s.waitData x)
  else if n.past = .runs ∨ x.g.fences = [] then
    if x.rangeBreach n then .next (s.takeTrap x { kind := .registerRange }) else body x s
  else
    let s1 := s.completeFence x.crew x.gang x.mask
    match s1.ctxOf x.crew x.gang x.low with
    | none => .next s1
    | some y =>
      if s1.moved x then .next s1
      else if y.rangeBreach n then .next (s1.takeTrap y { kind := .registerRange }) else body y s1

/-- Issue an instruction that has no form for a Vintner: there it raises illegal-encoding of origin 1 (R64). -/
def State.issue (s : State) (n : Need) (body : Ctx → State → Out) (ok : Ctx → Bool := fun _ => true) : Out :=
  match s.cur with
  | .gang c g k =>
    match s.ctxOf c g k with
    | some x => s.issueGang x n ok body
    | none => .fault .noIssuer
  | .vintner cl =>
    match s.vRun? cl with
    | some x => .next (s.vFault x .illegalEncoding)
    | none => .fault .noIssuer
  | .none => .fault .noIssuer

/-- Issue an instruction that a Vintner executes as well; `vform` says whether its fields are a Vintner's (R64). -/
def State.issueBoth (s : State) (n : Need) (vform : Bool) (body : Ctx → State → Out) (vbody : VRun → State → Out)
    (ok : Ctx → Bool := fun _ => true) : Out :=
  match s.cur with
  | .gang c g k =>
    match s.ctxOf c g k with
    | some x => s.issueGang x n ok body
    | none => .fault .noIssuer
  | .vintner cl =>
    match s.vRun? cl with
    | some x => if vform then vbody x s else .next (s.vFault x .illegalEncoding)
    | none => .fault .noIssuer
  | .none => .fault .noIssuer

/-- Issue an instruction that only a Vintner executes: on a part it raises illegal-encoding of origin 0 (R64). -/
def State.issueV (s : State) (vbody : VRun → State → Out) : Out :=
  match s.cur with
  | .gang c g k =>
    match s.ctxOf c g k with
    | some x => .next (s.illegal x)
    | none => .fault .noIssuer
  | .vintner cl =>
    match s.vRun? cl with
    | some x => vbody x s
    | none => .fault .noIssuer
  | .none => .fault .noIssuer

/-- A Vintner's context runs an instruction under its guard: a false guard leaves every effect undone (R59). -/
def State.vGuarded (s : State) (x : VRun) (g : BitVec 3) (f : VCtx → VCtx) : Out :=
  .next (s.vRetire x (if x.k.getP g.toNat then f x.k else x.k))

end Sys2Proof.Machine
end

