-- ==== Sys2Proof/Machine/Flags.lean ====
section
/-!
DEFINITION. The sticky flags and the trap enables of a gang (08_floating_point R173 to R175, 04_numbers R87), and the
flag computations that are not an operation's own (the operations of Machine/Numbers.lean return theirs).
-/

namespace Sys2Proof.Machine

/-- The bits of `af` (R173). -/
def flagNV : W32 := 1
def flagDZ : W32 := 2
def flagOF : W32 := 4
def flagUF : W32 := 8
def flagNX : W32 := 16
def flagUD : W32 := 32
def flagAT : W32 := 64

/-- The bits of `af` and `te` that are not reserved (R173, R174). -/
def flagBits : W32 := 0x7F

/-- The part of a slice mask replaces `af`, reserved bits ignored (R175). -/
def Gang.writeAf (g : Gang) (m : BitVec 8) (a : W32) : Gang :=
  { g with
    regs := { g.regs with af := a &&& flagBits }
    fences := g.fences.map (fun f =>
      if (f.slices &&& m) = 0 then { f with others := 0, regs := { f.regs with af := a &&& flagBits } } else f) }

/-- A part replaces `te`, reserved bits ignored (R174, R175). -/
def Gang.writeTe (g : Gang) (a : W32) : Gang := { g with regs := { g.regs with te := a &&& flagBits } }

/-- The enabled flags that are set: `e` of R186. -/
def Regs.enabled (r : Regs) : W32 := r.af &&& r.te &&& flagBits

/-- Bits of a Vintner's flag field: `af` [4:0] (17_matrix R330). -/
def VCtx.raise (k : VCtx) (flags : Nat) : VCtx := { k with flags := k.flags ||| BitVec.ofNat 5 flags }

/-- Signed 32-bit addition with overflow detection (R161): the sum under saturation, and its flags. -/
def addSat (sat : Bool) (a b : W32) : W32 × Nat :=
  let x := a.toInt + b.toInt
  if x < -2147483648 then (if sat then 0x80000000 else a + b, 4)
  else if 2147483647 < x then (if sat then 0x7FFFFFFF else a + b, 4)
  else (a + b, 0)

/-- The saturate bit of a pending kind-2 hint (R161). -/
def satOf (hs : List W32) : Bool := match hintOf hs 2 with | some p => p.testBit 2 | none => false

end Sys2Proof.Machine
end

