-- ==== Sys2Proof/Machine/Operands.lean ====
section
/-!
DEFINITION. The operand forms of the register instructions: reading a source that is `v` or `s` (03_encoding R49, R57,
R147), writing a destination in every active lane (R156, R171), and the shapes the entries of majors 0x05 to 0x1B share.
Every lane reads its sources before any lane writes.
-/

namespace Sys2Proof.Machine

/-! ### Sources and destinations -/

/-- Source b of format A: a `v` register of the lane, or its slice's `s` register (R49, R147). -/
def Regs.srcB (r : Regs) (k : BitVec 1) (b : BitVec 6) (i : Nat) : W32 :=
  if k = 1 then r.getS (i / 4) b.toNat else r.getV b.toNat i

/-- Source b as a pair. -/
def Regs.srcB2 (r : Regs) (k : BitVec 1) (b : BitVec 6) (i : Nat) : W64 :=
  if k = 1 then r.getS2 (i / 4) b.toNat else r.getV2 b.toNat i

/-- Write a `v` register in lanes. -/
def Regs.writeV (r : Regs) (d : Nat) (val : Nat → W32) : List Nat → Regs
  | [] => r
  | i :: t => (r.setV d i (val i)).writeV d val t

/-- Write a `v` pair in lanes. -/
def Regs.writeV2 (r : Regs) (d : Nat) (val : Nat → W64) : List Nat → Regs
  | [] => r
  | i :: t => (r.setV2 d i (val i)).writeV2 d val t

/-- Write a `v` quad in lanes. -/
def Regs.writeV4 (r : Regs) (d : Nat) (val : Nat → BitVec 128) : List Nat → Regs
  | [] => r
  | i :: t => (r.setV4 d i (val i)).writeV4 d val t

/-- Write a predicate in lanes. -/
def Regs.writeP (r : Regs) (d : Nat) (val : Nat → Bool) : List Nat → Regs
  | [] => r
  | i :: t => (r.setP d i (val i)).writeP d val t

/-- Write `lk` in lanes. -/
def Regs.writeLk (r : Regs) (val : Nat → W64) : List Nat → Regs
  | [] => r
  | i :: t => (r.setLk i (val i)).writeLk val t

/-- Write an `s` register in slices (R147). -/
def Regs.writeS (r : Regs) (d : Nat) (val : Nat → W32) : List Nat → Regs
  | [] => r
  | k :: t => (r.setS k d (val k)).writeS d val t

/-- Write an `s` pair in slices. -/
def Regs.writeS2 (r : Regs) (d : Nat) (val : Nat → W64) : List Nat → Regs
  | [] => r
  | k :: t => (r.setS2 k d (val k)).writeS2 d val t

/-- `n` consecutive `s` registers of a slice. -/
def Regs.block (r : Regs) (slice base n : Nat) : List W32 := (List.range n).map (fun j => r.getS slice (base + j))

/-- The `v` register that field b names, if it names one (R58). -/
def needB (k : BitVec 1) (b : BitVec 6) (n : Nat) : List (BitVec 6 × Nat) := if k = 1 then [] else [(b, n)]

/-- The `s` register that field b names, if it names one. -/
def needS (k : BitVec 1) (b : BitVec 6) (n : Nat) : List (Nat × Nat) := if k = 1 then [(b.toNat, n)] else []

/-! ### Shapes -/

/-- Registers of the part change, and it advances; flags go to `af`. -/
def State.finishFlags (s : State) (x : Ctx) (flags : Nat) (f : Regs → Regs) : State :=
  match s.gang? x.crew x.gang with
  | some g => s.retire x ({ g with regs := f g.regs }.raise x.mask (BitVec.ofNat 32 flags))
  | none => s

/-- d := f(A, B, D) on 32 bits (R159, R164). -/
def State.alu (s : State) (o : OpA) (f : W32 → W32 → W32 → W32) : Out :=
  s.issueBoth { guard := o.g, vs := [(o.d, 1), (o.a, 1)] ++ needB o.k o.b 1, ss := some (needS o.k o.b 1) } (o.k == 1)
    (fun x t =>
      let r := x.g.regs
      .next (t.retireRegs x (fun q => q.writeV o.d.toNat
        (fun i => f (r.getV o.a.toNat i) (r.srcB o.k o.b i) (r.getV o.d.toNat i)) (x.lanes o.g.toNat))))
    (fun x t => t.vGuarded x o.g (fun k =>
      k.setS o.d.toNat (f (k.getS o.a.toNat) (k.getS o.b.toNat) (k.getS o.d.toNat))))

/-- d := f(B) on 32 bits. -/
def State.aluUnary (s : State) (o : OpU) (f : W32 → W32) : Out :=
  s.issueBoth { guard := o.g, vs := [(o.d, 1)] ++ needB o.k o.b 1, ss := some (needS o.k o.b 1) } (o.k == 1)
    (fun x t =>
      let r := x.g.regs
      .next (t.retireRegs x (fun q => q.writeV o.d.toNat (fun i => f (r.srcB o.k o.b i)) (x.lanes o.g.toNat))))
    (fun x t => t.vGuarded x o.g (fun k => k.setS o.d.toNat (f (k.getS o.b.toNat))))

/-- d := f(A, B, D) on pairs (R162, minors 0 to 9). -/
def State.wide (s : State) (o : OpA) (f : W64 → W64 → W64 → W64) : Out :=
  s.issueBoth { guard := o.g, vs := [(o.d, 2), (o.a, 2)] ++ needB o.k o.b 2, ss := some (needS o.k o.b 2) } (o.k == 1)
    (fun x t =>
      let r := x.g.regs
      .next (t.retireRegs x (fun q => q.writeV2 o.d.toNat
        (fun i => f (r.getV2 o.a.toNat i) (r.srcB2 o.k o.b i) (r.getV2 o.d.toNat i)) (x.lanes o.g.toNat))))
    (fun x t => t.vGuarded x o.g (fun k =>
      k.setS2 o.d.toNat (f (k.getS2 o.a.toNat) (k.getS2 o.b.toNat) (k.getS2 o.d.toNat))))

/-- d := f(hints, A, B) on a pair and one 32-bit register (R162, minors 10 to 13). -/
def State.wideBy (s : State) (o : OpA) (f : List W32 → W64 → W32 → W64) : Out :=
  s.issueBoth { guard := o.g, vs := [(o.d, 2), (o.a, 2)] ++ needB o.k o.b 1, ss := some (needS o.k o.b 1) } (o.k == 1)
    (fun x t =>
      let r := x.g.regs
      .next (t.retireRegs x (fun q => q.writeV2 o.d.toNat
        (fun i => f x.hints (r.getV2 o.a.toNat i) (r.srcB o.k o.b i)) (x.lanes o.g.toNat))))
    (fun x t => t.vGuarded x o.g (fun k =>
      k.setS2 o.d.toNat (f k.hints (k.getS2 o.a.toNat) (k.getS o.b.toNat))))

/-- p := f(A, B) on 32 bits (R166). -/
def State.compare (s : State) (o : OpCmp) (f : W32 → W32 → Bool) : Out :=
  s.issueBoth { guard := o.g, vs := [(o.a, 1)] ++ needB o.k o.b 1, ss := some (needS o.k o.b 1) } (o.k == 1)
    (fun x t =>
      let r := x.g.regs
      .next (t.retireRegs x (fun q => q.writeP o.p.toNat
        (fun i => f (r.getV o.a.toNat i) (r.srcB o.k o.b i)) (x.lanes o.g.toNat))))
    (fun x t => t.vGuarded x o.g (fun k => k.setP o.p.toNat (f (k.getS o.a.toNat) (k.getS o.b.toNat))))

/-- p := f(A, B) on pairs (R166, minors 10 to 12). -/
def State.compareWide (s : State) (o : OpCmp) (f : W64 → W64 → Bool) : Out :=
  s.issueBoth { guard := o.g, vs := [(o.a, 2)] ++ needB o.k o.b 2, ss := some (needS o.k o.b 2) } (o.k == 1)
    (fun x t =>
      let r := x.g.regs
      .next (t.retireRegs x (fun q => q.writeP o.p.toNat
        (fun i => f (r.getV2 o.a.toNat i) (r.srcB2 o.k o.b i)) (x.lanes o.g.toNat))))
    (fun x t => t.vGuarded x o.g (fun k => k.setP o.p.toNat (f (k.getS2 o.a.toNat) (k.getS2 o.b.toNat))))

/-- p := f(pA, pB) (R167); k is 0 on a part and 1 in a Vintner's stream (R155). -/
def State.predicate (s : State) (o : OpPred) (f : Bool → Bool → Bool) : Out :=
  s.issueBoth { guard := o.g, ss := some [] } (o.k == 1)
    (fun x t =>
      let r := x.g.regs
      .next (t.retireRegs x (fun q => q.writeP o.p.toNat
        (fun i => f (r.getP o.a.toNat i) (r.getP o.b.toNat i)) (x.lanes o.g.toNat))))
    (fun x t => t.vGuarded x o.g (fun k => k.setP o.p.toNat (f (k.getP o.a.toNat) (k.getP o.b.toNat))))
    (fun _ => o.k != 1)

/-- d := f(A) with d an `s` or a `v` register by `vs` (R51, R169): an `s` destination takes one value, from the
lowest-numbered slice with an active lane, in every slice of the part, when some lane is active (R147). -/
def State.immediate (s : State) (g : BitVec 3) (d : BitVec 6) (vs : BitVec 1) (f : List W32 → W32 → W32) : Out :=
  s.issueBoth { guard := g, vs := needB vs d 1, ss := some (needS vs d 1) } (vs == 1)
    (fun x t =>
      let r := x.g.regs
      let ls := x.lanes g.toNat
      if vs = 1 then
        match ls with
        | [] => .next (t.retireHere x)
        | i :: _ => .next (t.retireRegs x (fun q => q.writeS d.toNat (fun _ => f x.hints (r.getS (i / 4) d.toNat)) x.part))
      else .next (t.retireRegs x (fun q => q.writeV d.toNat (fun i => f x.hints (r.getV d.toNat i)) ls)))
    (fun x t => t.vGuarded x g (fun k => k.setS d.toNat (f k.hints (k.getS d.toNat))))

/-- d := f(A, B, D) on 32 bits with flags, on a part only (R171). -/
def State.fp (s : State) (o : OpA) (f : Rnd → Nat → Nat → Nat → Nat × Nat) : Out :=
  s.issue { guard := o.g, vs := [(o.d, 1), (o.a, 1)] ++ needB o.k o.b 1, ss := some (needS o.k o.b 1) } (fun x t =>
    let r := x.g.regs
    let ls := x.lanes o.g.toNat
    let one := fun i => f x.rnd (r.getV o.a.toNat i).toNat (r.srcB o.k o.b i).toNat (r.getV o.d.toNat i).toNat
    .next (t.finishFlags x (orFlags (ls.map (fun i => (one i).2)))
      (fun q => q.writeV o.d.toNat (fun i => BitVec.ofNat 32 (one i).1) ls)))

/-- d := f(B) on 32 bits with flags. -/
def State.fpUnary (s : State) (o : OpU) (f : Rnd → Nat → Nat × Nat) : Out :=
  s.issue { guard := o.g, vs := [(o.d, 1)] ++ needB o.k o.b 1, ss := some (needS o.k o.b 1) } (fun x t =>
    let r := x.g.regs
    let ls := x.lanes o.g.toNat
    let one := fun i => f x.rnd (r.srcB o.k o.b i).toNat
    .next (t.finishFlags x (orFlags (ls.map (fun i => (one i).2)))
      (fun q => q.writeV o.d.toNat (fun i => BitVec.ofNat 32 (one i).1) ls)))

/-- d := f(A, B, D) on pairs with flags. -/
def State.fpWide (s : State) (o : OpA) (f : Rnd → Nat → Nat → Nat → Nat × Nat) : Out :=
  s.issue { guard := o.g, vs := [(o.d, 2), (o.a, 2)] ++ needB o.k o.b 2, ss := some (needS o.k o.b 2) } (fun x t =>
    let r := x.g.regs
    let ls := x.lanes o.g.toNat
    let one := fun i => f x.rnd (r.getV2 o.a.toNat i).toNat (r.srcB2 o.k o.b i).toNat (r.getV2 o.d.toNat i).toNat
    .next (t.finishFlags x (orFlags (ls.map (fun i => (one i).2)))
      (fun q => q.writeV2 o.d.toNat (fun i => BitVec.ofNat 64 (one i).1) ls)))

/-- d := f(B) on pairs with flags. -/
def State.fpWideUnary (s : State) (o : OpU) (f : Rnd → Nat → Nat × Nat) : Out :=
  s.issue { guard := o.g, vs := [(o.d, 2)] ++ needB o.k o.b 2, ss := some (needS o.k o.b 2) } (fun x t =>
    let r := x.g.regs
    let ls := x.lanes o.g.toNat
    let one := fun i => f x.rnd (r.srcB2 o.k o.b i).toNat
    .next (t.finishFlags x (orFlags (ls.map (fun i => (one i).2)))
      (fun q => q.writeV2 o.d.toNat (fun i => BitVec.ofNat 64 (one i).1) ls)))

/-- p := f(A, B) on 32 bits or pairs with flags (R184). -/
def State.fpCmp (s : State) (o : OpCmp) (pairs : Bool) (f : Rnd → Nat → Nat → Bool × Nat) : Out :=
  let n := if pairs then 2 else 1
  s.issue { guard := o.g, vs := [(o.a, n)] ++ needB o.k o.b n, ss := some (needS o.k o.b n) } (fun x t =>
    let r := x.g.regs
    let ls := x.lanes o.g.toNat
    let one := fun i =>
      if pairs then f x.rnd (r.getV2 o.a.toNat i).toNat (r.srcB2 o.k o.b i).toNat
      else f x.rnd (r.getV o.a.toNat i).toNat (r.srcB o.k o.b i).toNat
    .next (t.finishFlags x (orFlags (ls.map (fun i => (one i).2)))
      (fun q => q.writeP o.p.toNat (fun i => (one i).1) ls)))

end Sys2Proof.Machine
end

