-- ==== Sys2Proof/Machine/Modular.lean ====
section
/-!
DEFINITION. Modular arithmetic and the butterfly network (15_modular R304 to R316).
-/

namespace Sys2Proof.Machine

/-- The residue of an integer in [0, q) (R306). -/
def residue (q : W64) (x : Int) : W64 := BitVec.ofInt 64 (x % (q.toNat : Int))

/-- The reduction constant of a modulus: ⌊2^(62 + L) ÷ q⌋ with L the bit length of q (R305). -/
def reductionConst (q : W64) : W64 := BitVec.ofNat 64 (2 ^ (62 + bitLen q.toNat) / q.toNat)

/-- Before any lane writes, every modulus the instruction would use is checked (R307). -/
def State.withModuli (t : State) (x : Ctx) (n : BitVec 2) (users : List Nat) (f : Regs → Regs) : Out :=
  let bad := users.filter (fun i => x.g.regs.getMq n.toNat i == 0)
  if bad.isEmpty then .next (t.retireRegs x f) else .next (t.takeTrapAt x { kind := .modulusUnset } 0 (laneMask bad))

/-- The shape of major 0x18: d := f(A, B, D) mod q on pairs (R309). -/
def State.modular (s : State) (g : BitVec 3) (k : BitVec 1) (n : BitVec 2) (d a b : BitVec 6) (f : Int → Int → Int → Int) : Out :=
  s.issue { guard := g, vs := [(d, 2), (a, 2)] ++ needB k b 2, ss := some (needS k b 2) } (fun x t =>
    let r := x.g.regs
    let ls := x.lanes g.toNat
    let one := fun i => residue (r.getMq n.toNat i)
      (f (r.getV2 a.toNat i).toNat (r.srcB2 k b i).toNat (r.getV2 d.toNat i).toNat)
    t.withModuli x n ls (fun q => q.writeV2 d.toNat one ls))

def execMmul (g : BitVec 3) (k : BitVec 1) (n : BitVec 2) (d a b : BitVec 6) (s : State) : Out :=
  s.modular g k n d a b (fun x y _ => x * y)
def execMadd (g : BitVec 3) (k : BitVec 1) (n : BitVec 2) (d a b : BitVec 6) (s : State) : Out :=
  s.modular g k n d a b (fun x y _ => x + y)
def execMsub (g : BitVec 3) (k : BitVec 1) (n : BitVec 2) (d a b : BitVec 6) (s : State) : Out :=
  s.modular g k n d a b (fun x y _ => x - y)
def execMmac (g : BitVec 3) (k : BitVec 1) (n : BitVec 2) (d a b : BitVec 6) (s : State) : Out :=
  s.modular g k n d a b (fun x y z => x * y + z)

/-- The shape of major 0x19: d := f(A) mod q, A a pair or a quad (R310). -/
def State.modularUnary (s : State) (g : BitVec 3) (n : BitVec 2) (d a : BitVec 6) (quad : Bool) (f : Int → Int) : Out :=
  s.issue { guard := g, vs := [(d, 2), (a, if quad then 4 else 2)], ss := some [] } (fun x t =>
    let r := x.g.regs
    let ls := x.lanes g.toNat
    let src := fun i => if quad then (r.getV4 a.toNat i).toNat else (r.getV2 a.toNat i).toNat
    t.withModuli x n ls (fun q => q.writeV2 d.toNat (fun i => residue (r.getMq n.toNat i) (f (src i))) ls))

def execMred (g : BitVec 3) (n : BitVec 2) (d a : BitVec 6) (s : State) : Out := s.modularUnary g n d a false (fun x => x)
def execMred128 (g : BitVec 3) (n : BitVec 2) (d a : BitVec 6) (s : State) : Out := s.modularUnary g n d a true (fun x => x)
def execMneg (g : BitVec 3) (n : BitVec 2) (d a : BitVec 6) (s : State) : Out := s.modularUnary g n d a false (fun x => -x)

/-- The shape of major 0x1A: f(q, w, x, y) gives the new values of the lower and the upper lane of a pair whose lanes
are both active; twiddle and modulus are the lower lane's (R311). -/
def State.butterfly (s : State) (g : BitVec 3) (n : BitVec 2) (d a : BitVec 6) (stage : BitVec 3)
    (f : W64 → Int → Int → Int → W64 × W64) : Out :=
  s.issue { guard := g, vs := [(d, 2), (a, 2)], ss := some [] } (fun x t =>
    let r := x.g.regs
    let ls := x.lanes g.toNat
    let dist := 2 ^ stage.toNat
    let lower := fun i => if i / dist % 2 = 0 then i else i - dist
    let acts := ls.filter (fun i => ls.contains (lower i) && ls.contains (lower i + dist))
    let one := fun i =>
      let l := lower i
      let v := f (r.getMq n.toNat l) (r.getV2 a.toNat l).toNat (r.getV2 d.toNat l).toNat (r.getV2 d.toNat (l + dist)).toNat
      if i = l then v.1 else v.2
    t.withModuli x n (acts.filter (fun i => lower i == i)) (fun q => q.writeV2 d.toNat one acts))

def execBfly (g : BitVec 3) (n : BitVec 2) (d a : BitVec 6) (x : BitVec 3) (s : State) : Out :=
  s.butterfly g n d a x (fun q w x y => (residue q (x + (w * y) % (q.toNat : Int)), residue q (x - (w * y) % (q.toNat : Int))))
def execIbfly (g : BitVec 3) (n : BitVec 2) (d a : BitVec 6) (x : BitVec 3) (s : State) : Out :=
  s.butterfly g n d a x (fun q w x y => (residue q (x + y), residue q ((x - y) * w)))

/-- A move within the gang: d of lane i := A of lane `src` i when that lane is active, else its own A (R313, R314,
R154). -/
def State.laneMove (t : State) (x : Ctx) (g : BitVec 3) (d a : BitVec 6) (src : Nat → Int) : State :=
  let r := x.g.regs
  let ls := x.lanes g.toNat
  t.retireRegs x (fun q => q.writeV d.toNat (fun i =>
    let j := src i
    if 0 ≤ j ∧ ls.contains j.toNat then r.getV a.toNat j.toNat else r.getV a.toNat i) ls)

/-- The partner that `perm` gives a lane under a control word; the lane itself when it stays (R313). -/
def permSource (c : W32) (i : Nat) : Nat :=
  let st := bitsAt c 16 3
  if st ≤ 4 then
    let p := i / 2 ^ (st + 1) * 2 ^ st + i % 2 ^ st
    if c.getLsbD p then i ^^^ 2 ^ st else i
  else i

/-- `perm` (R313). -/
def execPerm (g : BitVec 3) (d a b : BitVec 6) (s : State) : Out :=
  s.issue { guard := g, vs := [(d, 1), (a, 1)], ss := some [(b.toNat, 1)] } (fun x t =>
    .next (t.laneMove x g d a (fun i => permSource (x.g.regs.getS (i / 4) b.toNat) i)))

/-- `lrot` (R314). -/
def execLrot (g : BitVec 3) (d a b : BitVec 6) (s : State) : Out :=
  s.issue { guard := g, vs := [(d, 1), (a, 1)], ss := some [(b.toNat, 1)] } (fun x t =>
    .next (t.laneMove x g d a (fun i => ((i : Int) - bitsAt (x.g.regs.getS (i / 4) b.toNat) 0 5) % 32)))

/-- Write a modulus and its constant in lanes. -/
def Regs.writeM (r : Regs) (n : Nat) (val : Nat → W64) : List Nat → Regs
  | [] => r
  | i :: t => (r.setM n i (val i) (reductionConst (val i))).writeM n val t

/-- `setm` (R315). -/
def execSetm (g : BitVec 3) (n : BitVec 2) (a : BitVec 6) (s : State) : Out :=
  s.issue { guard := g, vs := [(a, 2)], ss := some [] } (fun x t =>
    let r := x.g.regs
    let ls := x.lanes g.toNat
    let bad := ls.filter (fun i => decide ((r.getV2 a.toNat i).toNat < 3) || decide (2 ^ 62 < (r.getV2 a.toNat i).toNat))
    if bad.isEmpty then .next (t.retireRegs x (fun q => q.writeM n.toNat (fun i => r.getV2 a.toNat i) ls))
    else .next (t.takeTrapAt x { kind := .modulusRange } 0 (laneMask bad)))

/-- `getm` (R316). -/
def execGetm (g : BitVec 3) (n : BitVec 2) (a : BitVec 6) (s : State) : Out :=
  s.issue { guard := g, vs := [(a, 2)], ss := some [] } (fun x t =>
    .next (t.retireRegs x (fun q => q.writeV2 a.toNat (fun i => x.g.regs.getMq n.toNat i) (x.lanes g.toNat))))

/-- `getk` (R316). -/
def execGetk (g : BitVec 3) (n : BitVec 2) (a : BitVec 6) (s : State) : Out :=
  s.issue { guard := g, vs := [(a, 2)], ss := some [] } (fun x t =>
    .next (t.retireRegs x (fun q => q.writeV2 a.toNat (fun i => x.g.regs.getMk n.toNat i) (x.lanes g.toNat))))

end Sys2Proof.Machine
end

