-- ==== Sys2Proof/Machine/Barrier.lean ====
section
/-!
DEFINITION. Barrier-class waits (05_work R113 codes 1, 2 and 12): arrival at `bar`, `gbar` and `regang`, the mismatch
faults of 13_atomics R273 and 06_control R152, and the join of a gang's parts.
-/

namespace Sys2Proof.Machine

/-- A slice waits in the barrier class. -/
def Slice.atBarrier (sl : Slice) : Bool :=
  match sl.wait with
  | some w => w.code == 1 || w.code == 2 || w.code == 12
  | none => false

/-- Code and barrier number or group of a slice's wait. -/
def Slice.waitKey (sl : Slice) : Nat × Nat :=
  match sl.wait with
  | some w => (w.code, w.num)
  | none => (0, 0)

/-- Every live slice of a gang waits with the key: the gang has arrived there. A gang with no live slice has not. -/
def Gang.arrivedAt (g : Gang) (key : Nat × Nat) : Bool :=
  !g.liveSlices.isEmpty && g.liveSlices.all (fun k => (g.slice k).waitKey == key)

/-- Every live slice waits in the barrier class. -/
def Gang.allAtBarrier (g : Gang) : Bool := !g.liveSlices.isEmpty && g.liveSlices.all (fun k => (g.slice k).atBarrier)

/-- The gangs of a crew that have not exited, rising. -/
def Crew.liveGangs (c : Crew) : List (Nat × Gang) := c.gangs.filter (fun p => !p.2.liveSlices.isEmpty)

/-- Raise a precise fault at a part that waits: the wait becomes the trap's (R273, R152). -/
def State.trapWaiting (s : State) (crew gang slice : Nat) (k : FaultKind) : State :=
  match s.ctxOf crew gang slice with
  | none => s
  | some x =>
    let len := match (x.g.slice x.low).wait with | some w => w.len | none => 4
    s.takeTrap { x with len := len } { kind := k }

/-- After an arrival or an exit, the mismatches within a gang (R273, R152). -/
def State.checkMismatch (s : State) (crew gang : Nat) : State :=
  match s.crew? crew with
  | none => s
  | some c =>
    match SMap.find c.gangs gang with
    | none => s
    | some g =>
      if !g.allAtBarrier then s
      else
        let low := g.liveSlices.headD 0
        let key := (g.slice low).waitKey
        if g.liveSlices.any (fun k => (g.slice k).waitKey != key) then s.trapWaiting crew gang low .barrierMismatch
        else if key.1 = 12 then
          if g.liveSlices.any (fun k => (g.slice k).pc != (g.slice low).pc) then s.trapWaiting crew gang low .regangMismatch else s
        else s

/-- The crew or group barrier at which a gang has arrived. -/
def Gang.barrierKey (g : Gang) : Option (Nat × Nat) :=
  let k := (g.slice (g.liveSlices.headD 0)).waitKey
  if g.arrivedAt k && (k.1 == 1 || k.1 == 2) then some k else none

/-- Every gang of a crew that has not exited has arrived at a crew or group barrier, and not all at one: the mismatch is
raised at the lowest-numbered slice (R273). -/
def State.crewMismatch (s : State) (crew : Nat) : State :=
  match s.crew? crew with
  | none => s
  | some c =>
    match c.liveGangs with
    | [] => s
    | (n, h) :: t =>
      if h.barrierKey.isSome && t.all (fun p => p.2.barrierKey.isSome) && t.any (fun p => p.2.barrierKey != h.barrierKey) then
        s.trapWaiting crew n (h.liveSlices.headD 0) .barrierMismatch
      else s

/-- The copies of one slice's `s` registers become those of another. -/
def Regs.copyS (r : Regs) (src dst : Nat) : Regs :=
  if src = dst then r
  else
    let mine := r.s.filter (fun p => decide (p.1 / 64 = src))
    let kept := r.s.filter (fun p => decide (p.1 / 64 ≠ dst))
    { r with s := mine.foldl (fun t p => SMap.put t (64 * dst + p.1 % 64) p.2) kept }

/-- The `s` registers of a slice, by register. -/
def Regs.sFile (r : Regs) (k : Nat) : SMap W32 := SMap.range r.s (64 * k) (64 * k + 64)

/-- What the parts of a gang have issued is of the joined part (14_ordering R275): its slices take their place. -/
def Gang.mergeOrder (g : Gang) (m : BitVec 8) : Gang :=
  let f := fun (k : BitVec 8) => if (k &&& m) = 0 then k else k ||| m
  { g with
    buffer := g.buffer.map (fun e => { e with slices := f e.slices })
    loads := g.loads.map (fun e => { e with slices := f e.slices }) }

/-- The join of R152: copies become the lowest live slice's, a difference sets UD, and the live slices form one part at
`pc`. -/
def Gang.join (g : Gang) (pc : W64) : Gang :=
  let ks := g.liveSlices
  let w := ks.headD 0
  let differs := ks.any (fun k => g.regs.sFile k != g.regs.sFile w)
  let g1 := { g with regs := ks.foldl (fun r k => r.copyS w k) g.regs }.mergeOrder (sliceMask ks)
  let g2 := if differs then g1.raise (sliceMask ks) flagUD else g1
  g2.mapSlices ks (fun _ sl => { sl with pc := pc, part := w, wait := none, hints := [], unchecked := false, remote := 0 })

/-- The part waits in the barrier class at its instruction, and mismatches are looked for. The arrival is a release at a
scope: what it covers of the part's earlier accesses is performed first (14_ordering R281, R288). -/
def State.arrive (s : State) (x : Ctx) (code num operand scope : Nat) : State :=
  (((s.drain x.crew x.gang x.mask scope).waitPart x code num operand).checkMismatch x.crew x.gang).crewMismatch x.crew

/-- A gang that has arrived at a crew barrier is marked in the barrier's mask (R271). -/
def State.barArrive (s : State) (crew gang : Nat) : State :=
  match s.crew? crew with
  | none => s
  | some c =>
    match SMap.find c.gangs gang with
    | none => s
    | some g =>
      let key := (g.slice (g.liveSlices.headD 0)).waitKey
      if key.1 = 1 ∧ g.arrivedAt key then
        let b := SMap.getD c.barriers key.2 (0, false)
        s.setCrew crew { c with barriers := SMap.put c.barriers key.2 (maskSet b.1 gang true, b.2) }
      else s

/-- All live slices wait at one `regang`: they join behind it. -/
def State.regangJoin (s : State) (crew gang : Nat) : State :=
  match s.gang? crew gang with
  | none => s
  | some g =>
    let low := g.liveSlices.headD 0
    let pc := (g.slice low).pc
    let len := match (g.slice low).wait with | some w => w.len | none => 4
    if g.arrivedAt (12, 0) && g.liveSlices.all (fun k => (g.slice k).pc == pc) then
      s.setGang crew gang (g.join (pc + BitVec.ofNat 64 len))
    else s

/-- `regang` (R152): one part completes at once; otherwise the part waits with code 12. -/
def execRegang (s : State) : Out :=
  s.issue { past := .waits } (fun x t =>
    if x.part == x.g.liveSlices then
      let t1 := t.drain x.crew x.gang x.mask 0
      match t1.gang? x.crew x.gang with
      | some g => .next (t1.setGang x.crew x.gang (g.join (x.pc + 4)))
      | none => .next t1
    else .next (t.arrive x 12 0 0 0))

/-- REGANG_JOIN: every live slice of the gang waits at one `regang` (R152). -/
def execRegangJoin (crew gang : Nat) (s : State) : Out := .next (s.regangJoin crew gang)

end Sys2Proof.Machine
end

