-- ==== Sys2Proof/Machine/Crew.lean ====
section
/-!
DEFINITION. The Cellarer (05_work R99 to R112, R123 to R127; 18_engines R364, R365): checks of records, queues,
placement, reservations, the group table, the nested scheduler, pushes, and the end of a crew.
-/

namespace Sys2Proof.Machine

/-! ### Slots, frames, banks -/

/-- A crew in this state occupies gang slots (R104, R116, R134). -/
def Phase.resident : Phase → Bool
  | .running => true
  | .stopping => true
  | .parking => true
  | .exited => true
  | .parked => false
  | .resumable => false

/-- Gang slots of a core that crews occupy. -/
def State.slotsUsed (s : State) (core : Nat) : Nat :=
  s.crews.foldl (fun n p => if p.2.core = core ∧ p.2.phase.resident then n + recGangs p.2.record else n) 0

/-- Free gang slots of a core, out of 48 (R104). -/
def State.freeSlots (s : State) (core : Nat) : Nat := 48 - s.slotsUsed core

/-- The first frame of a die's pool that is free (R119, R433). -/
def Die.freeFrame (d : Die) : Option Nat := (List.range (bitsAt d.fpcfg 0 16)).find? (fun n => !d.frames.contains n)

/-- Banks of a core that tiles hold (12_tiles R231): its crews' core tiles, and its share of its cluster's tiles. -/
def State.banksUsed (s : State) (core : Nat) : Nat :=
  let own := s.crews.foldl (fun n p => if p.2.core = core then p.2.tiles.foldl (fun m q => m + 2 ^ q.2.k) n else n) 0
  (s.cluster (clusterOfCore core)).tiles.foldl (fun m q => m + 2 ^ (q.2.k - 3)) own

/-- Entries of a core's tile table in use (R232). -/
def State.entriesUsed (s : State) (core : Nat) : Nat :=
  s.crews.foldl (fun n p => if p.2.core = core then n + p.2.tiles.length else n) 0

/-! ### The nested scheduler (18_engines R364, R365) -/

/-- SHARE of a guest. -/
def Die.share (d : Die) (g : Nat) : Nat := SMap.getD d.gshare g 0

/-- USE of a guest. -/
def Die.use (d : Die) (g : Nat) : Nat := SMap.getD d.guse g 0

/-- The budget of a guest, SHARE ÷ 1,024 × 7,680 × 2^PER. -/
def Die.budget (d : Die) (g : Nat) : Nat := d.share g * 7680 * 2 ^ d.schper / 1024

/-- USE lies below the budget. -/
def Die.belowBudget (d : Die) (g : Nat) : Bool := decide (d.use g < d.budget g)

/-- Guest g comes before h: less USE ÷ SHARE; a guest without a share comes last. -/
def Die.before (d : Die) (g h : Nat) : Bool :=
  if d.share g = 0 then false
  else if d.share h = 0 then true
  else decide (d.use g * d.share h < d.use h * d.share g)

/-- The first of a list of guests in the scheduler's order; ties go to the lowest. -/
def Die.firstGuest (d : Die) : List Nat → Option Nat
  | [] => none
  | g :: t =>
    match d.firstGuest t with
    | none => some g
    | some h => if d.before h g then some h else some g

/-- The guest the nested scheduler chooses among those with work, given in rising order (R365). -/
def Die.choose (d : Die) (work : List Nat) : Option Nat :=
  match work.filter d.belowBudget with
  | [] => d.firstGuest work
  | l => d.firstGuest l

/-- A crew's slots count for its guest: it is resident, and no service crew, which stands outside every budget
(22_system R434). -/
def Crew.charged (c : Crew) : Bool := c.phase.resident && !recService c.record

/-- Units per clock that a guest uses on a die: gang slots, and 48 for each busy Decanter and Vintner (R364). -/
def State.units (s : State) (die guest : Nat) : Nat :=
  let slots := s.crews.foldl (fun n p =>
    if dieOfCore p.2.core = die ∧ p.2.charged ∧ p.2.guest = guest then n + recGangs p.2.record else n) 0
  s.clusters.foldl (fun n p =>
    if dieOfCluster p.1 ≠ die then n
    else
      let v := match p.2.vcur with
        | some c => match SMap.find p.2.vctx c with | some k => if k.card.guest = guest then 48 else 0 | none => 0
        | none => 0
      let d := match p.2.decCur with
        | some c => match SMap.find p.2.dec c with | some k => if k.card.guest = guest then 48 else 0 | none => 0
        | none => 0
      n + v + d) slots

/-- Guests whose crews or cards are resident on the module. -/
def State.guestsOf (s : State) : List Nat :=
  let cards := s.clusters.flatMap (fun p => p.2.vctx.map (fun q => q.2.card.guest) ++ p.2.dec.map (fun q => q.2.card.guest))
  (s.crews.map (fun p => p.2.guest) ++ cards).eraseDups

/-- Clocks pass: every guest's USE grows (R364). -/
def State.accrue (s : State) (n : Nat) : State :=
  (List.range 4).foldl (fun (t : State) (dn : Nat) =>
    s.guestsOf.foldl (fun (t : State) (g : Nat) =>
      let u := s.units dn g
      if u = 0 then t
      else
        let d := t.die dn
        t.setDie dn { d with guse := SMap.put d.guse g (d.use g + n * u) }) t) s

/-! ### The group table (R108, R109) -/

/-- A group's entry: where it lies and its 16 bytes; none for group 255 and where the walk gives no local page
(notes/assumptions/23). -/
def State.groupEntry (s : State) (u : UnitId) (asid n : Nat) : Option (Page × BitVec 128) × State :=
  if n = 255 then (none, s)
  else
    let d := s.descriptor u asid
    let r := d.2.translate u asid (BitVec.ofNat 64 (d.1.groups + 16 * n)) .read
    match r.1 with
    | .ok p => if p.local then (some (p, BitVec.ofNat 128 (Memory.readNat r.2.mem p.pa 16)), r.2) else (none, r.2)
    | .error _ => (none, r.2)

def grpMembers (e : BitVec 128) : Nat := bitsAt e 0 16
def grpCoresident (e : BitVec 128) : Bool := e.getLsbD 16
def grpValid (e : BitVec 128) : Bool := e.getLsbD 17
def grpPhase (e : BitVec 128) : Nat := bitsAt e 32 32
def grpArrived (e : BitVec 128) : Nat := bitsAt e 64 16
def grpStarted (e : BitVec 128) : Nat := bitsAt e 80 16
def grpExited (e : BitVec 128) : Nat := bitsAt e 96 16

/-- The Cellarer writes the counts of an entry. -/
def State.writeGroup (s : State) (u : UnitId) (p : Page) (phase arrived started exited : Nat) : State :=
  s.performNat p.kind (.unit u) (p.pa + 4) 12 (phase % 2 ^ 32 + arrived * 2 ^ 32 + started * 2 ^ 48 + exited * 2 ^ 64)

/-- A placement is counted in a group (R109). -/
def State.groupStart (s : State) (u : UnitId) (asid n : Nat) : State :=
  let r := s.groupEntry u asid n
  match r.1 with
  | some (p, e) => r.2.writeGroup u p (grpPhase e) (grpArrived e) (grpStarted e + 1) (grpExited e)
  | none => r.2

/-- An exit is counted in a group; the last member's exit clears the entry's counts (R109). -/
def State.groupExit (s : State) (u : UnitId) (asid n : Nat) : State :=
  let r := s.groupEntry u asid n
  match r.1 with
  | some (p, e) =>
    if grpExited e + 1 = grpMembers e then r.2.writeGroup u p 0 0 0 0
    else r.2.writeGroup u p (grpPhase e) (grpArrived e) (grpStarted e) (grpExited e + 1)
  | none => r.2

/-- Placing records together would raise started above members in some group that they name (R109). -/
def State.overflowsGroup (s : State) (u : UnitId) (asid : Nat) (rs : List (BitVec 512)) : Bool :=
  let all := rs.flatMap recGroups
  all.eraseDups.any (fun n =>
    match (s.groupEntry u asid n).1 with
    | some (_, e) => decide (grpMembers e < grpStarted e + (all.filter (· == n)).length)
    | none => false)

/-! ### Checks of a record (R100, R101) -/

/-- The entries of an input tile list agree: cluster handles of one cluster, reserved bits zero (R101). -/
def tilesOk (ts : List Nat) : Bool :=
  ts.all (fun e => natBits e 10 2 == 1 && natBits e 18 14 == 0 && natBits e 12 6 == natBits (ts.headD 0) 12 6)

/-- The conditions of R100 that the record alone decides. -/
def malformedRecord (r : BitVec 512) : Bool :=
  let gs := recGroups r
  recGangs r == 0 || decide (16 < recGangs r) || !([16, 32, 48, 64].contains (recRegs r)) || recField r 180 12 != 0
  || (recFrame r).toNat % 256 != 0 || ((recParent r) != 0 && (recParent r).toNat % 64 != 16)
  || decide (64 < recTilesN r) || (recTilesN r != 0 && (recTiles r).toNat % 4 != 0) || gs.eraseDups.length != gs.length
  || (recCoresident r && (recGroup r 0 == 255 || recTilesN r != 0))

/-- The conditions of R100 that a group's entry decides; `first` marks byte 26. -/
def groupBreach (r : BitVec 512) (first : Bool) : Option (BitVec 128) → Bool
  | none => true
  | some e => !grpValid e || (first && (if recCoresident r then !grpCoresident e || decide (16 < grpMembers e) else grpCoresident e))

/-- Some named group breaks R100. -/
def State.groupsBreach (s : State) (u : UnitId) (asid : Nat) (r : BitVec 512) : Nat → Bool × State
  | 0 => (false, s)
  | n + 1 =>
    let q := s.groupsBreach u asid r n
    let g := recGroup r n
    if g = 255 then q
    else
      let e := q.2.groupEntry u asid g
      (q.1 || groupBreach r (n == 0) (e.1.map (·.2)), e.2)

/-- The check of a record by a die: the fault that the first breach decides (R100). -/
def State.checkRecord (s : State) (die asid : Nat) (service : Bool) (r : BitVec 512) (ts : List Nat) :
    Option FaultKind × State :=
  let q := s.groupsBreach (.cellarer die) asid r 4
  let k :=
    if malformedRecord r || q.1 || !tilesOk ts
      || (recFrame r == 0 && decide ((s.die die).frameSize < frameNeed (recGangs r) (recRegs r))) then some FaultKind.malformedRecord
    else if bitsAt (recCode r) 0 2 ≠ 0 then some .misalignedCode
    else if recService r && !service then some .privilegedInstruction
    else none
  (k, q.2)

/-- Read a record, then its input tile list (R130). A list that cannot be read stops the record before its other conditions are
checked (notes/assumptions/67). -/
def State.readRecord (s : State) (u : UnitId) (asid : Nat) (addr : W64) : Except (Fail × W64) (BitVec 512 × List Nat) × State :=
  let r := s.unitRead u asid addr 64 .read
  match r.1 with
  | .error e => (.error e, r.2)
  | .ok bs =>
    let rec' := BitVec.ofNat 512 (bytesNat bs)
    let n := recTilesN rec'
    if n = 0 ∨ 64 < n ∨ (recTiles rec').toNat % 4 ≠ 0 then (.ok (rec', []), r.2)
    else
      let q := r.2.unitRead u asid (recTiles rec') (4 * n) .read
      match q.1 with
      | .error e => (.error e, q.2)
      | .ok ts => (.ok (rec', (List.range n).map (fun i => bytesNat ((ts.drop (4 * i)).take 4))), q.2)

/-! ### Queues (R102, R103) -/

/-- The queue or list a record enters (R103). -/
inductive Spot where
  | service
  | tiles (cluster cls : Nat)
  | gather (key : Nat)
  | classQ (key : Nat)
  | device (key : Nat)
deriving DecidableEq, Repr

/-- The first rule of R103 that applies; `scope` is that of a kind-5 hint, or `.die`. -/
def spotOf (q : Queued) (scope : Nat) : Spot :=
  let key := 4 * q.guest + recClass q.record
  if recService q.record then .service
  else if recTilesN q.record ≠ 0 then .tiles (natBits (q.tiles.headD 0) 12 6) (recClass q.record)
  else if recCoresident q.record then .gather (256 * q.asid + recGroup q.record 0)
  else if scope = 5 then .device key
  else .classQ key

/-- The queue of a spot, as the Cellarer of a die finds it. -/
def State.spotQueue (s : State) (die : Nat) : Spot → List Queued
  | .service => (s.die die).service
  | .tiles c k => SMap.getD (s.die (dieOfCluster c)).tileLists (4 * (c % 16) + k) []
  | .gather k => SMap.getD (s.die die).gather k []
  | .classQ k => SMap.getD (s.die die).queues k []
  | .device k => SMap.getD (s.die 0).device k []

/-- log2 of the entries of a spot's queue (R433). -/
def State.spotSize (s : State) (die : Nat) : Spot → Nat
  | .service => (s.die die).svc2
  | .tiles c _ => (s.die (dieOfCluster c)).tile2
  | .gather _ => (s.die die).tile2
  | .classQ _ => (s.die die).cls2
  | .device _ => (s.die 0).dev2

/-- The queue of a spot has room for n records; parked crews that wait to resume are no records. -/
def State.roomFor (s : State) (die : Nat) (p : Spot) (n : Nat) : Bool :=
  decide (((s.spotQueue die p).filter (fun q => q.crew.isNone)).length + n ≤ 2 ^ s.spotSize die p)

/-- Members of the group that a gather list serves. -/
def State.gatherMembers (s : State) (die : Nat) (q : Queued) : Nat :=
  match (s.groupEntry (.cellarer die) q.asid (recGroup q.record 0)).1 with
  | some (_, e) => grpMembers e
  | none => 0

/-- A record enters a gather list; the last member moves the group to the tail of its class queue (R103, R242). -/
def State.gatherIn (s : State) (die key : Nat) (q : Queued) : State :=
  let d := s.die die
  let l := SMap.getD d.gather key []
  let l' := l ++ [{ q with rank := some (recGroup q.record 0, l.length) }]
  if l'.length = s.gatherMembers die q then
    let head := l'.headD q
    let ck := 4 * head.guest + recClass head.record
    s.setDie die { d with
      gather := SMap.erase d.gather key
      groupsReady := d.groupsReady ++ [(key, l')]
      queues := SMap.put d.queues ck (SMap.getD d.queues ck [] ++ [head]) }
  else s.setDie die { d with gather := SMap.put d.gather key l' }

/-- A record enters the queue of its spot at the tail. -/
def State.enqueue (s : State) (die : Nat) (q : Queued) (p : Spot) : State :=
  match p with
  | .service => let d := s.die die; s.setDie die { d with service := d.service ++ [q] }
  | .tiles c k =>
    let n := dieOfCluster c
    let d := s.die n
    let key := 4 * (c % 16) + k
    s.setDie n { d with tileLists := SMap.put d.tileLists key (SMap.getD d.tileLists key [] ++ [q]) }
  | .gather k => s.gatherIn die k q
  | .classQ k => let d := s.die die; s.setDie die { d with queues := SMap.put d.queues k (SMap.getD d.queues k [] ++ [q]) }
  | .device k => let d := s.die 0; s.setDie 0 { d with device := SMap.put d.device k (SMap.getD d.device k [] ++ [q]) }

/-- A record that a die's Cellarer drops, reported as a type-1 record (R109, R133, R134). -/
def State.dropRecord (s : State) (die : Nat) (k : FaultKind) (addr : W64) (asid : Nat) : State :=
  s.pushFault die (faultRec (causeCode 0 k) 1 addr asid)

/-! ### Placement (R104 to R107) -/

/-- A queue that R105 looks at. -/
inductive Queue where
  | service
  | arrivals (cls : Nat)
  | classQ (cls : Nat)
  | device (cls : Nat)
deriving DecidableEq, Repr

/-- A source's number in a reservation. -/
def Queue.code : Queue → Nat
  | .service => 0
  | .arrivals c => 1 + 3 * c
  | .classQ c => 2 + 3 * c
  | .device c => 3 + 3 * c

/-- The sources in the order of R105. -/
def sources : List Queue :=
  .service :: [3, 2, 1, 0].flatMap (fun c => [Queue.arrivals c, Queue.classQ c, Queue.device c])

/-- The records of a source for a guest. -/
def State.sourceList (s : State) (die guest : Nat) : Queue → List Queued
  | .service => (s.die die).service
  | .arrivals c => SMap.getD (s.die die).arrivals (4 * guest + c) []
  | .classQ c => SMap.getD (s.die die).queues (4 * guest + c) []
  | .device c => SMap.getD (s.die 0).device (4 * guest + c) []

/-- Replace the records of a source. -/
def State.setSource (s : State) (die guest : Nat) (l : List Queued) : Queue → State
  | .service => let d := s.die die; s.setDie die { d with service := l }
  | .arrivals c => let d := s.die die; s.setDie die { d with arrivals := SMap.put d.arrivals (4 * guest + c) l }
  | .classQ c => let d := s.die die; s.setDie die { d with queues := SMap.put d.queues (4 * guest + c) l }
  | .device c => let d := s.die 0; s.setDie 0 { d with device := SMap.put d.device (4 * guest + c) l }

/-- Guests with a record in some queue of a die's Cellarer, rising. -/
def State.guestsWithWork (s : State) (die : Nat) : List Nat :=
  (List.range 64).filter (fun g => sources.any (fun q =>
    match q with
    | .service => false
    | q => !(s.sourceList die g q).isEmpty))

/-- The guest of a queue's reservation: the service queue has none, which 64 stands for (R102). -/
def Queue.owner (src : Queue) (guest : Nat) : Nat := match src with | .service => 64 | _ => guest

/-- A reservation is that of a queue. -/
def Reservation.of (r : Reservation) (src : Queue) (guest : Nat) : Bool := r.source == src.code && r.guest == src.owner guest

/-- A core is reserved for a class at or above `cls` by another queue (R106). -/
def Die.heldBack (d : Die) (src : Queue) (guest core cls : Nat) : Bool :=
  d.reserved.any (fun r => r.cores.contains core && decide (cls ≤ r.cls) && !r.of src guest)

/-- The tiles that a parked crew brings. -/
def State.bringsTiles (s : State) (q : Queued) : Option Crew :=
  match q.crew with
  | some c => match s.crew? c with | some k => if k.tiles.isEmpty then none else some k | none => none
  | none => none

/-- A core may receive the tiles of a parked crew (12_tiles R241), beside tiles of so many banks and entries. -/
def State.tilesFit (s : State) (core : Nat) (k : Crew) (banks entries : Nat) : Bool :=
  k.core == core ||
    (clusterOfCore k.core == clusterOfCore core
      && decide (s.banksUsed core + banks + k.tiles.foldl (fun m q => m + 2 ^ q.2.k) 0 ≤ 512)
      && decide (s.entriesUsed core + entries + k.tiles.length ≤ 1024))

/-- A record may stand on a core by its scope and by where its tiles are (R103, R131, 12_tiles R241). -/
def State.mayStand (s : State) (core : Nat) (q : Queued) : Bool :=
  (match q.onCore with | some c => c == core | none => true)
  && (match q.onCluster with | some c => c == clusterOfCore core | none => true)
  && (match s.bringsTiles q with | some k => clusterOfCore k.core == clusterOfCore core | none => true)

/-- A record may stand on a core now, but for its slots: its frame and its tiles have room (R104). -/
def State.allows (s : State) (core : Nat) (q : Queued) : Bool :=
  s.mayStand core q
  && (q.crew.isSome || recFrame q.record != 0 || (s.die (dieOfCore core)).freeFrame.isSome)
  && (match s.bringsTiles q with | some k => s.tilesFit core k 0 0 | none => true)

/-- A core can hold a record now (R104, R106). -/
def State.holds (s : State) (src : Queue) (core : Nat) (q : Queued) : Bool :=
  s.allows core q && decide (recGangs q.record ≤ s.freeSlots core)
  && !(s.die (dieOfCore core)).heldBack src q.guest core (recClass q.record)

/-- The cores of a die, of a cluster. -/
def coresOfDie (die : Nat) : List Nat := (List.range 128).map (fun i => 128 * die + i)
def coresOfCluster (cl : Nat) : List Nat := (List.range 8).map (fun i => 8 * cl + i)

/-- A member of a group fits on a core beside the members that already have a place (R104, 12_tiles R241). -/
def State.memberFits (s : State) (placed : List (Queued × Nat)) (m : Queued) (core : Nat) : Bool :=
  let here := (placed.filter (fun p => p.2 == core)).map (·.1)
  let moving := (here.filterMap s.bringsTiles).filter (fun k => k.core != core)
  let banks := moving.foldl (fun n k => k.tiles.foldl (fun m q => m + 2 ^ q.2.k) n) 0
  decide (recGangs m.record + here.foldl (fun n q => n + recGangs q.record) 0 ≤ s.freeSlots core)
  && s.mayStand core m
  && (match s.bringsTiles m with
      | some k => s.tilesFit core k banks (moving.foldl (fun n k => n + k.tiles.length) 0)
      | none => true)

/-- Places for members in order, each on the first core from which the rest can still be placed (R107;
notes/assumptions/24). -/
def State.fitGroup (s : State) (cores : List Nat) (placed : List (Queued × Nat)) : List Queued → Option (List (Queued × Nat))
  | [] => some placed
  | m :: t => cores.findSome? (fun c => if s.memberFits placed m c then s.fitGroup cores (placed ++ [(m, c)]) t else none)

/-- The members of a group unit. -/
def Die.unitMembers (d : Die) (q : Queued) : List Queued :=
  match q.rank with
  | some (g, _) => match d.groupsReady.find? (fun p => p.1 == 256 * q.asid + g) with | some p => p.2 | none => [q]
  | none => [q]

/-- Free slots of a list of cores. -/
def State.freeOf (s : State) (cs : List Nat) : Nat := cs.foldl (fun n c => n + s.freeSlots c) 0

/-- A place for a group on a cluster, or on it and the next of its die (R106, R107). -/
def State.groupPlace (s : State) (src : Queue) (cl : Nat) (q : Queued) (ms : List Queued) : Option (List (Queued × Nat)) :=
  let d := s.die (dieOfCluster cl)
  let pool := (ms.filter (fun m => m.crew.isNone && recFrame m.record == 0)).length
  let need := ms.foldl (fun n m => n + recGangs m.record) 0
  let open' := fun (cs : List Nat) => cs.filter (fun c => !d.heldBack src q.guest c (recClass q.record))
  let try' := fun (cs : List Nat) => if s.freeOf cs < need then none else s.fitGroup cs [] ms
  if bitsAt d.fpcfg 0 16 < d.frames.length + pool then none
  else
    match try' (open' (coresOfCluster cl)) with
    | some l => some l
    | none => if cl % 16 = 15 then none else try' (open' (coresOfCluster cl ++ coresOfCluster (cl + 1)))

/-- A new crew on a core (R118, 03_encoding R60). -/
def newCrew (q : Queued) (core : Nat) (f : Frame) : Crew :=
  { record := q.record, recptr := q.recptr, asid := q.asid, guest := q.guest, core := core, frame := f, phase := .running
    gangs := (List.range (recGangs q.record)).map (fun n => (n, Gang.start (recCode q.record)))
    barriers := [], tiles := [], deadline := none, noticed := false, overrun := 0, reason := 0, faulted := false
    framePage := none, rank := q.rank }

/-- Place one new record on a core: it is counted in its groups (R109), takes a frame (R119) and the next `crewid`, and
its ASID is loaded into the core (10_pages R210). -/
def State.placeNew (s : State) (q : Queued) (core : Nat) : State :=
  let dn := dieOfCore core
  let s1 := (recGroups q.record).foldl (fun t n => t.groupStart (.cellarer dn) q.asid n) s
  let d := s1.die dn
  let f : Frame × State :=
    if recFrame q.record ≠ 0 then (.named (recFrame q.record), s1)
    else match d.freeFrame with
      | some n => (.pool n, s1.setDie dn { d with frames := n :: d.frames })
      | none => (.pool 0, s1)
  ({ f.2.setCrew f.2.nextCrew (newCrew q core f.1) with nextCrew := f.2.nextCrew + 1 } : State).loadAsid (.core core) q.asid

/-- Place new records together, each on its core; none when one of their groups would overflow: their records are dropped
(R107, R109; notes/assumptions/24). -/
def State.placeAll (s : State) (die : Nat) (l : List (Queued × Nat)) : State :=
  let asid := match l with | p :: _ => p.1.asid | [] => 0
  if s.overflowsGroup (.cellarer die) asid (l.map (fun p => p.1.record)) then
    l.foldl (fun t p => t.dropRecord die .groupOverflow p.1.recptr p.1.asid) s
  else l.foldl (fun t p => t.placeNew p.1 p.2) s

/-- The head's reservation is over when it is placed (R106); a device head's stands on the die it was launched on. -/
def State.unreserveHead (s : State) (die guest : Nat) (src : Queue) : State :=
  let dies := match src with | .device _ => List.range 4 | _ => [die]
  dies.foldl (fun t n =>
    let d := t.die n
    if d.reserved.any (fun r => r.of src guest) then t.setDie n { d with reserved := d.reserved.filter (fun r => !r.of src guest) }
    else t) s

/-- The candidate for a crew: of the cores where it may stand, the one with the most free slots, the lowest among equals
(R106). -/
def State.candidateCore (s : State) (q : Queued) : List Nat → Option Nat
  | [] => none
  | c :: t =>
    match s.candidateCore q t with
    | none => if s.mayStand c q then some c else none
    | some b => if s.mayStand c q && decide (s.freeSlots b ≤ s.freeSlots c) then some c else some b

/-- Sizes of candidate sets for a group: single clusters, and pairs of one die (R106). -/
def groupSets (die : Nat) : List (List Nat) :=
  (List.range 16).map (fun c => coresOfCluster (16 * die + c))
    ++ (List.range 15).map (fun c => coresOfCluster (16 * die + c) ++ coresOfCluster (16 * die + c + 1))

/-- The set with the most free slots, the first among equals. -/
def State.bestSet (s : State) : List (List Nat) → List Nat
  | [] => []
  | c :: t => let b := s.bestSet t; if s.freeOf b ≤ s.freeOf c then c else b

/-- Reserve for a head that cannot be placed (R106): a device queue's head only on the die it was launched on. -/
def State.reserve (s : State) (die guest : Nat) (src : Queue) (q : Queued) : State :=
  let d := s.die die
  let foreign := match src with | .device _ => q.die != die | _ => false
  if foreign || d.reserved.any (fun r => r.of src guest) then s
  else
    let ms := d.unitMembers q
    let need := ms.foldl (fun n m => n + recGangs m.record) 0
    let cores :=
      if q.rank.isSome then s.bestSet (groupSets die)
      else match s.candidateCore q (coresOfDie die) with | some c => [c] | none => []
    if cores.isEmpty then s
    else s.setDie die { d with reserved := d.reserved ++
      [{ source := src.code, guest := src.owner guest, cores := cores, cls := recClass q.record, need := need }] }

/-- What a turn of placement comes to at the first head that can be placed on the die: its source, the head, and for each
core named by the Cellarer's choice where it would stand. -/
inductive Found where
  | nothing
  | crew (src : Queue) (q : Queued)
  | group (src : Queue) (q : Queued)

/-- A parked crew's resumption is held for a page of its frame, or that of a member of its group (R118). -/
def State.frameAwaited (s : State) (q : Queued) : Bool :=
  match q.crew with
  | some c => match s.crew? c with | some k => k.framePage.isSome | none => false
  | none => false

/-- The members that a head places together. -/
def State.headUnit (s : State) (die : Nat) (q : Queued) : List Queued := (s.die die).unitMembers q

/-- Go through the sources in order (R105): reserve for heads that cannot be placed, and stop at the first that can. A head
whose resumption is held for a page is passed over; it needs no slots yet (notes/assumptions/24). The tile arrivals of a class
go before its queue, a resumable crew at the head of that queue included (notes/assumptions/66). -/
def State.scan (s : State) (die guest : Nat) : List Queue → Found × State
  | [] => (.nothing, s)
  | src :: rest =>
    match s.sourceList die guest src with
    | [] => s.scan die guest rest
    | q :: _ =>
      if (s.headUnit die q).any s.frameAwaited then s.scan die guest rest
      else if q.rank.isSome then
        if (List.range 16).any (fun c => (s.groupPlace src (16 * die + c) q (s.headUnit die q)).isSome) then (.group src q, s)
        else (s.reserve die guest src q).scan die guest rest
      else if (coresOfDie die).any (fun c => s.holds src c q) then (.crew src q, s)
      else (s.reserve die guest src q).scan die guest rest

/-- The guest whose queues a die's Cellarer looks at (R365). -/
def State.cellarerGuest (s : State) (die : Nat) : Nat := ((s.die die).choose (s.guestsWithWork die)).getD 0

/-- Take the head out of a source. -/
def State.dropHead (s : State) (die guest : Nat) (src : Queue) : State :=
  (s.setSource die guest ((s.sourceList die guest src).drop 1) src).unreserveHead die guest src

/-- Take a group unit out of its source. -/
def State.dropUnit (s : State) (die guest : Nat) (src : Queue) (q : Queued) : State :=
  let s1 := s.dropHead die guest src
  let d := s1.die die
  let key := match q.rank with | some (g, _) => 256 * q.asid + g | none => 0
  s1.setDie die { d with groupsReady := d.groupsReady.eraseP (fun p => p.1 == key) }

/-- PLACEMENT (R105, R107): the Cellarer of a die places the first head that can be placed, on the core it chooses. -/
def execPlacement (die core : Nat) (s : State) : Out :=
  let dn := die % 4
  let c := 128 * dn + core % 128
  let guest := s.cellarerGuest dn
  let f := s.scan dn guest sources
  match f.1 with
  | .nothing => .next f.2
  | .crew src q =>
    if q.crew.isNone && f.2.holds src c q then .next ((f.2.dropHead dn guest src).placeAll dn [(q, c)]) else .next f.2
  | .group src q =>
    match f.2.groupPlace src (clusterOfCore c) q (f.2.headUnit dn q) with
    | some l => if q.crew.isSome then .next f.2 else .next ((f.2.dropUnit dn guest src q).placeAll dn l)
    | none => .next f.2

/-- Every tile that a record lists is resident (12_tiles R240). -/
def State.tilesResident (s : State) (q : Queued) : Bool :=
  q.tiles.all (fun e =>
    match SMap.find (s.cluster (natBits e 12 6)).tiles (1024 * q.asid + natBits e 0 10) with
    | some t => t.filled && t.pending == 0
    | none => false)

/-- TILE_LIST_RELEASE (R103, 12_tiles R240): the first record of a tile list leaves it once its tiles are resident, and
enters placement ahead of the class queue of that die. -/
def execTileListRelease (cluster cls : Nat) (s : State) : Out :=
  let cl := cluster % 64
  let dn := dieOfCluster cl
  let d := s.die dn
  let key := 4 * (cl % 16) + cls % 4
  match SMap.getD d.tileLists key [] with
  | [] => .next s
  | q :: t =>
    if s.tilesResident q then
      let ck := 4 * q.guest + recClass q.record
      .next (s.setDie dn { d with
        tileLists := SMap.put d.tileLists key t
        arrivals := SMap.put d.arrivals ck (SMap.getD d.arrivals ck [] ++ [{ q with onCluster := some cl }]) })
    else .next s

/-! ### Stop requests (R123, R124) -/

/-- A reservation needs the slots of a crew: the crew is of the lowest class on the candidate cores, below the
reservation's, and the slots that are free or on their way are too few (R106). -/
def State.reservationStops (s : State) (c : Crew) : Bool :=
  (s.die (dieOfCore c.core)).reserved.any (fun r =>
    let on := (s.crews.map (·.2)).filter (fun k => r.cores.contains k.core && k.phase.resident)
    let coming := on.foldl (fun n k => if decide (k.phase ≠ .running) then n + recGangs k.record else n) 0
    r.cores.contains c.core && decide (recClass c.record < r.cls)
      && decide (s.freeOf r.cores + coming < r.need)
      && on.all (fun k => recService k.record || decide (k.phase ≠ .running) || decide (recClass c.record ≤ recClass k.record)))

/-- A record at the head of one of a guest's queues cannot be placed, and could be with the slots that another guest's crews
occupy (18_engines R365). -/
def State.queueNeeds (s : State) (die guest other : Nat) : Bool :=
  let freed : State := { s with crews := s.crews.map (fun p =>
    (p.1, if p.2.charged && p.2.guest == other then { p.2 with phase := .parked } else p.2)) }
  sources.any (fun src =>
    match src, s.sourceList die guest src with
    | .service, _ => false
    | _, [] => false
    | src, q :: _ =>
      let fits := fun (t : State) =>
        if q.rank.isSome then (List.range 16).any (fun c => (t.groupPlace src (16 * die + c) q (t.headUnit die q)).isSome)
        else (coresOfDie die).any (fun c => t.holds src c q)
      !fits s && fits freed)

/-- A card of a guest waits for a Vintner or a Decanter that works for another guest (18_engines R365). -/
def State.cardNeeds (s : State) (die guest other : Nat) : Bool :=
  (s.die die).groups.any (fun g => g.2.cards.any (fun k =>
    let c := s.cluster k.cluster
    let holder := if k.vintner then c.vcur.bind (fun n => (SMap.find c.vctx n).map (·.card))
      else c.decCur.bind (fun n => (SMap.find c.dec n).map (·.card))
    k.guest == guest && k.edges.isEmpty && k.ended.isNone && match holder with | some h => h.id != k.id && h.guest == other | none => false))

/-- Some guest below its budget has work that needs what a guest holds (18_engines R365). -/
def State.othersNeed (s : State) (die guest : Nat) : Bool :=
  (List.range 64).any (fun h => h != guest && (s.die die).belowBudget h && (s.queueNeeds die h guest || s.cardNeeds die h guest))

/-- The time slice of a crew's guest ends within the crew's drain time: at its use of units, USE reaches the budget before
256 × drain clocks have passed, and another guest has work (R123). -/
def State.sliceEnding (s : State) (c : Crew) : Bool :=
  let dn := dieOfCore c.core
  let d := s.die dn
  let rate := s.units dn c.guest + if c.charged then 0 else recGangs c.record
  decide (d.budget c.guest ≤ d.use c.guest + rate * (256 * recDrain c.record)) && s.othersNeed dn c.guest

/-- The reason for a stop of a crew stands: a reservation, or the end of its guest's time slice (R123). -/
def State.stopReason (s : State) (c : Crew) : Bool :=
  !recService c.record
    && (s.reservationStops c || (s.die (dieOfCore c.core)).ended.contains c.guest || s.sliceEnding c)

/-- STOP_REQUEST (R123): `stoppend` reads 1, and the deadline is 256 × drain clocks away. -/
def execStopRequest (crew : Nat) (s : State) : Out :=
  match s.crew? crew with
  | none => .next s
  | some c =>
    if c.phase = .running ∧ s.stopReason c then
      .next (s.setCrew crew { c with phase := .stopping, deadline := some (s.clock + 256 * recDrain c.record), noticed := false })
    else .next s

/-- OVERRUN_NOTICE (R124, 22_system R443): the deadline passed; a full ring counts the notice and does not hold it. -/
def execOverrunNotice (crew : Nat) (s : State) : Out :=
  match s.crew? crew with
  | none => .next s
  | some c =>
    match c.deadline with
    | none => .next s
    | some dl =>
      if c.phase = .stopping ∧ dl ≤ s.clock ∧ !c.noticed then
        let dn := dieOfCore c.core
        let s1 := s.setCrew crew { c with noticed := true }
        let d := s1.die dn
        if d.overruns.length < 256 then
          .next (s1.setDie dn { d with overruns := d.overruns ++ [{ crew := crew, guest := c.guest, deadline := dl, clock := s.clock }] })
        else .next (s1.setDie dn { d with lostNotices := d.lostNotices + 1 })
      else .next s

/-- Overrun of a stop whose slots are freed now (R126). -/
def State.overrunOf (s : State) (c : Crew) : Nat := match c.deadline with | some d => s.clock - d | none => 0

/-! ### The end of a crew (R134) -/

/-- Perform everything that a crew's parts have issued: fences complete, reads are bound, buffers drain. -/
def State.performCrew (s : State) (crew : Nat) : State :=
  match s.crew? crew with
  | none => s
  | some c => c.gangs.foldl (fun (t : State) (p : Nat × Gang) =>
      (List.range 9).foldl (fun (u : State) (_ : Nat) => u.drain crew p.1 255 7) t) s

/-- Everything of a crew is performed, and released at `.dev`: WS tags clear (R284). -/
def State.drainCrew (s : State) (crew : Nat) : State :=
  match s.crew? crew with
  | none => s
  | some c => c.gangs.foldl (fun (t : State) (p : Nat × Gang) => t.released crew p.1 255 5) (s.performCrew crew)

/-- Give the tokens of a crew back to the array (17_matrix R327). -/
def State.returnTokens (s : State) (crew : Nat) : State :=
  { s with clusters := s.clusters.map (fun p => (p.1, { p.2 with
      accs := p.2.accs.map (fun a => (a.1, if a.2.token = some crew then { a.2 with token := none } else a.2)) })) }

/-- Take a crew out of every queue it waits in to resume. -/
def State.unqueueCrew (s : State) (crew : Nat) : State :=
  { s with dies := s.dies.map (fun p => (p.1, { p.2 with
      service := p.2.service.filter (fun q => q.crew != some crew)
      queues := p.2.queues.map (fun e => (e.1, e.2.filter (fun q => q.crew != some crew))) })) }

/-- The crew ends (R134): its accesses are performed, its PV lines published (14_ordering R286), the decrement of its
parent is handed to the Cellarer, its groups count it, and frame, tokens, tiles, watches and slots go. -/
def State.exitCrew (s : State) (crew : Nat) : State :=
  let s1 := s.drainCrew crew
  match s1.crew? crew with
  | none => s1
  | some c =>
    let dn := dieOfCore c.core
    let u : UnitId := .cellarer dn
    let s2 := (s1.pvPublishCrew c.core crew).pvDropCrew c.core crew
    let s3 := (recGroups c.record).foldl (fun t n => t.groupExit u c.asid n) s2
    let d := s3.die dn
    let late := s3.overrunOf c + c.overrun
    let d1 := { d with
      frames := match c.frame with | .pool n => d.frames.filter (· != n) | .named _ => d.frames
      decrements := if recParent c.record = 0 then d.decrements
        else d.decrements ++ [{ addr := recParent c.record, asid := c.asid, service := recService c.record, crew := crew, page := none }]
      charges := if late = 0 then d.charges
        else SMap.put d.charges c.guest (SMap.getD d.charges c.guest 0 + recGangs c.record * late) }
    let s4 := ((s3.setDie dn d1).returnTokens crew).unqueueCrew crew
    { s4 with crews := SMap.erase s4.crews crew, fills := s4.fills.filter (fun f => f.crew != some crew) }

/-- A crew arrives at a group barrier when every live slice of every live gang waits there: its entry counts it
(13_atomics R272). -/
def State.crewArrive (s : State) (crew : Nat) : State :=
  match s.crew? crew with
  | none => s
  | some c =>
    match c.liveGangs with
    | [] => s
    | (_, g) :: _ =>
      let key := (g.slice (g.liveSlices.headD 0)).waitKey
      if key.1 = 2 ∧ c.liveGangs.all (fun p => p.2.arrivedAt key) then
        let u : UnitId := .core c.core
        let r := s.groupEntry u c.asid key.2
        match r.1 with
        | some (p, e) => r.2.writeGroup u p (grpPhase e) (grpArrived e + 1) (grpStarted e) (grpExited e)
        | none => r.2
      else s

/-- After slices of a gang have exited: barrier mismatches are looked for, the crew may have arrived at a group barrier,
and the last gang's exit ends the crew (R127, R134). -/
def State.afterExit (s : State) (crew gang : Nat) : State :=
  let s1 := (((s.checkMismatch crew gang).crewMismatch crew).barArrive crew gang).crewArrive crew
  match s1.crew? crew with
  | none => s1
  | some c =>
    if c.gangs.all (fun p => p.2.liveSlices.isEmpty) ∧ (c.phase = .running ∨ c.phase = .stopping) then
      s1.setCrew crew { c with phase := .exited }
    else s1

/-- CREW_EXIT_COMPLETE (R134). -/
def execCrewExitComplete (crew : Nat) (s : State) : Out :=
  match s.crew? crew with
  | some c => if c.phase = .exited then .next (s.exitCrew crew) else .next s
  | none => .next s

/-- The crew ends at once, wherever its parts stand; its parent is decremented only on demand (22_system R428). -/
def State.terminate (s : State) (crew : Nat) (decrement : Bool) : State :=
  match s.crew? crew with
  | none => s
  | some c =>
    let r := if decrement then c.record else c.record &&& ~~~ (((BitVec.allOnes 64).setWidth 512) <<< 320)
    (s.setCrew crew { c with record := r }).exitCrew crew

/-! ### Pushes and implied decrements (R133, R134) -/

/-- Change the entry of a list at an index. -/
def modifyAt {α : Type} (f : α → α) : List α → Nat → List α
  | [], _ => []
  | a :: t, 0 => f a :: t
  | a :: t, n + 1 => a :: modifyAt f t n

/-- A push to be made. -/
def State.addPush (s : State) (die : Nat) (p : Push) : State :=
  let d := s.die die
  s.setDie die { d with pushes := d.pushes ++ [p] }

/-- IMPLIED_DECREMENT (R134): the Cellarer decrements the first parent counter that does not wait for a page. The old value of
a counter of another module is a free value, as for `jcnt` (notes/assumptions/11). -/
def execImpliedDecrement (die : Nat) (s : State) : Out :=
  let dn := die % 4
  let u : UnitId := .cellarer dn
  let d := s.die dn
  match d.decrements.findIdx? (fun p => p.page.isNone) with
  | none => .next s
  | some n =>
    match d.decrements[n]? with
    | none => .next s
    | some p =>
      let r := s.translate u p.asid p.addr .write
      let d1 := r.2.die dn
      let done := r.2.setDie dn { d1 with decrements := d1.decrements.eraseIdx n }
      match r.1 with
      | .error (.fault k) => .next (done.dropRecord dn k (p.addr - 16) p.asid)
      | .error f =>
        let pg := pageOf p.addr
        .next ((r.2.setDie dn { d1 with decrements := modifyAt (fun q => { q with page := some pg }) d1.decrements n }).unitRequest
          u p.asid pg (f.union .write) f.leaf (.push dn 1))
      | .ok a =>
        if a.control then .next (done.dropRecord dn .protection (p.addr - 16) p.asid)
        else if done.poisonedIn [(a, 4)] then .next (done.dropRecord dn .uncorrectableData (p.addr - 16) p.asid)
        else
          let old := bytesNat (done.pieceData [(a, 4)])
          if old = 0 then .next ((done.spent [(a, 4)]).dropRecord dn .joinUnderflow (p.addr - 16) p.asid)
          else
            let t := (done.spent [(a, 4)]).performPages (.unit u) (pieceWrites [(a, 4)] (natBytes 4 (old - 1))) p.asid p.addr
            if old = 1 then .next (t.addPush dn { p with addr := p.addr - 16, page := none }) else .next t

/-- The first push that was read and checked, whose queue has room, and before which no other waits for that queue. -/
def State.readyPush (s : State) (die : Nat) (before : List Spot) : List Push → Nat → Option (Nat × Queued)
  | [], _ => none
  | p :: t, n =>
    match p.held with
    | none => s.readyPush die before t (n + 1)
    | some q =>
      let spot := spotOf q 4
      if s.roomFor die spot 1 && !before.contains spot then some (n, q) else s.readyPush die (spot :: before) t (n + 1)

/-- JOIN_PUSH (R130, R133): the Cellarer enqueues a pushed record that it held for room; else it reads and checks the first one
that it has not read, and enqueues it, holds it for room, or drops it. A page that is not present holds it before it is
read. A held push keeps the record that was read (notes/assumptions/67). -/
def execJoinPush (die : Nat) (s : State) : Out :=
  let dn := die % 4
  let u : UnitId := .cellarer dn
  let d := s.die dn
  match s.readyPush dn [] d.pushes 0 with
  | some (n, q) => .next ((s.setDie dn { d with pushes := d.pushes.eraseIdx n }).enqueue dn q (spotOf q 4))
  | none =>
    match d.pushes.findIdx? (fun p => p.page.isNone && p.held.isNone) with
    | none => .next s
    | some n =>
      match d.pushes[n]? with
      | none => .next s
      | some p =>
        let r := s.readRecord u p.asid p.addr
        let d1 := r.2.die dn
        let drop := fun (t : State) (k : FaultKind) =>
          let e := t.die dn
          (t.setDie dn { e with pushes := e.pushes.eraseIdx n }).dropRecord dn k p.addr p.asid
        match r.1 with
        | .error (.fault k, _) => .next (drop r.2 k)
        | .error (f, va) =>
          let pg := pageOf va
          .next ((r.2.setDie dn { d1 with pushes := modifyAt (fun q => { q with page := some pg }) d1.pushes n }).unitRequest
            u p.asid pg (f.union .read) f.leaf (.push dn 0))
        | .ok (rec', ts) =>
          let k := r.2.checkRecord dn p.asid p.service rec' ts
          match k.1 with
          | some k' => .next (drop k.2 k')
          | none =>
            let q : Queued := { record := rec', recptr := p.addr, asid := p.asid, guest := (k.2.descriptor u p.asid).1.guest
                                onCore := none, onCluster := none, crew := none, rank := none, tiles := ts, die := dn }
            let d2 := k.2.die dn
            let t := k.2.setDie dn { d2 with pushes := modifyAt (fun e => { e with held := some q }) d2.pushes n }
            match t.readyPush dn [] (t.die dn).pushes 0 with
            | some (m, q') => .next ((t.setDie dn { t.die dn with pushes := (t.die dn).pushes.eraseIdx m }).enqueue dn q' (spotOf q' 4))
            | none => .next t

/-! ### Periods (18_engines R365) -/

/-- Charge to a guest's slice what it can still take of a crew's overrun, in whole clocks, with what stays uncharged
(R126). -/
def Die.chargeCrew (d : Die) (c : Crew) : Die × Nat :=
  let g := recGangs c.record
  let n := min c.overrun ((d.budget c.guest - d.use c.guest) / g)
  (if n = 0 then d else { d with guse := SMap.put d.guse c.guest (d.use c.guest + g * n) }, c.overrun - n)

/-- A crew on its die is charged its overrun as far as its guest's slice goes; the field of its image follows (R126). -/
def State.chargeOverrun (s : State) (crew : Nat) : State :=
  match s.crew? crew with
  | none => s
  | some c =>
    if c.overrun = 0 then s
    else
      let dn := dieOfCore c.core
      let q := (s.die dn).chargeCrew c
      let s1 := (s.setDie dn q.1).setCrew crew { c with overrun := q.2 }
      let w := s1.frameWrite crew c 0x48 8 q.2
      match w.1 with
      | .ok _ => w.2
      | .error _ => s1

/-- SCHEDULE_PERIOD: every USE becomes zero, then the uncharged overruns are added, as far as the period's budget goes; the
rest stays for the next (R126). -/
def execSchedulePeriod (die : Nat) (s : State) : Out :=
  let dn := die % 4
  let d := s.die dn
  let take := fun (p : Nat × Nat) => min p.2 (d.budget p.1)
  let s1 := s.setDie dn { d with
    guse := (d.charges.map (fun p => (p.1, take p))).filter (fun p => p.2 != 0)
    charges := (d.charges.map (fun p => (p.1, p.2 - take p))).filter (fun p => p.2 != 0)
    ended := [] }
  .next ((s1.crews.filter (fun p => dieOfCore p.2.core == dn && p.2.charged)).foldl (fun t p => t.chargeOverrun p.1) s1)

/-- GUEST_SLICE_END: the guest has used its budget, and a guest below its budget has work that needs slots or an engine that it
holds (R365). -/
def execGuestSliceEnd (die guest : Nat) (s : State) : Out :=
  let dn := die % 4
  let d := s.die dn
  let g := guest % 64
  if !d.belowBudget g && s.othersNeed dn g && !d.ended.contains g then .next (s.setDie dn { d with ended := g :: d.ended }) else .next s

end Sys2Proof.Machine
end

