-- ==== Sys2Proof/Machine/Rings.lean ====
section
/-!
DEFINITION. Rings, command blocks and the command engine (18_engines R346 to R363, R366 to R368): descriptors, appending
an entry, registration, turns and walks, completion of entries, and the pending sets of job cards.
-/

namespace Sys2Proof.Machine

/-! ### Descriptors (R356) -/

/-- A ring descriptor. -/
structure Desc where
  base : Nat
  tail : Nat
  head : Nat
  status : Nat
  free : Nat
  ctl : Nat
  seg : Nat
deriving DecidableEq, Repr

/-- The descriptor that 64 bytes hold. -/
def Desc.ofBytes (bs : List Byte) : Desc :=
  let f := fun (o n : Nat) => bytesNat ((bs.drop o).take n)
  { base := f 0 8, tail := f 8 8, head := f 16 8, status := f 32 8, free := f 40 8, ctl := f 48 4, seg := f 56 8 }

/-- The descriptor at a physical address. -/
def Memory.desc (m : Memory) (a : Nat) : Desc := Desc.ofBytes (Memory.readBytes m a 64)

/-- The descriptor at a translated address: of another module, what its memory holds. -/
def State.descAt (s : State) (p : Page) : Desc := Desc.ofBytes (s.pieceData [(p, 64)])

/-- A control word breaks R356. -/
def ctlBad (c : Nat) : Bool :=
  natBits c 25 7 != 0 || natBits c 8 16 != 0 || decide (2 ≤ natBits c 6 2) || decide (natBits c 0 5 < 5) || decide (16 < natBits c 0 5)

def Desc.grow (d : Desc) : Bool := d.ctl.testBit 5
def Desc.cons (d : Desc) : Nat := natBits d.ctl 6 2
def Desc.size (d : Desc) : Nat := 2 ^ natBits d.ctl 0 5

/-- A push would have to wait (R376). -/
def Desc.full (d : Desc) : Bool :=
  if d.grow then d.tail % d.size == d.size - 1 && d.free == 0 else decide (d.size ≤ d.tail - d.head)

/-- Write an `n`-byte value at a translated address: this module's bytes stand, others leave the module. -/
def State.putAt (s : State) (w : Writer) (p : Page) (n v : Nat) : State :=
  s.performPages w (pieceWrites [(p, n)] (natBytes n v))

/-- The page at an offset from a translated address of the same page. -/
def Page.plus (p : Page) (n : Nat) : Page := { p with pa := p.pa + n }

/-- What a push to a ring comes to. -/
inductive Pushed where
  | done
  | full
  | fail (f : Fail) (va : W64)

/-- Append an entry at a descriptor's home slice, as one atomic (R376). -/
def State.pushRing (s : State) (u : UnitId) (asid : Nat) (w : Writer) (p : Page) (entry : W64) : Pushed × State :=
  if !p.local then (.done, s)
  else
    let d := Memory.desc s.mem p.pa
    if d.full then (.full, s)
    else if d.grow && d.tail % d.size == d.size - 1 then
      let slot := BitVec.ofNat 64 (d.seg + 8 * (d.size - 1))
      let new := BitVec.ofNat 64 d.free
      let r := s.translate u asid slot .write
      match r.1 with
      | .error f => (.fail f slot, r.2)
      | .ok a =>
        let q := r.2.translate u asid new .atomic
        match q.1 with
        | .error f => (.fail f new, q.2)
        | .ok b =>
          let next := Memory.readNat q.2.mem b.pa 8
          let s1 := q.2.putAt w a 8 (d.free + 1)
          let s2 := s1.putAt w (p.plus 40) 8 next
          let s3 := s2.putAt w (p.plus 56) 8 d.free
          let s4 := s3.putAt w b 8 entry.toNat
          (.done, s4.putAt w (p.plus 8) 8 (d.tail + 2))
    else
      let at' := if d.grow then d.seg else d.base
      let slot := BitVec.ofNat 64 (at' + 8 * (d.tail % d.size))
      let r := s.translate u asid slot .write
      match r.1 with
      | .error f => (.fail f slot, r.2)
      | .ok a => (.done, (r.2.putAt w a 8 entry.toNat).putAt w (p.plus 8) 8 (d.tail + 1))

/-! ### Command blocks (R346 to R349) -/

def blkOp (b : BitVec 512) : Nat := bitsAt b 0 8
def blkAction (b : BitVec 512) : Nat := bitsAt b 8 2
def blkDrain (b : BitVec 512) : Bool := b.getLsbD 10
def blkTest (b : BitVec 512) : Nat := bitsAt b 16 4
def blkPrints (b : BitVec 512) : Nat := bitsAt b 20 4
def blkOperand (b : BitVec 512) : Nat := bitsAt b 24 40
def blkNext (b : BitVec 512) : W64 := b.extractLsb' 64 64
def blkAlt (b : BitVec 512) : W64 := b.extractLsb' 128 64
/-- Bytes of the payload, by byte offset. -/
def blkWord (b : BitVec 512) (off : Nat) : W64 := b.extractLsb' (8 * off) 64

/-- A job card's block. -/
def blkCard (b : BitVec 512) : Bool := blkOp b == 2 || blkOp b == 3

/-- A block is malformed (R349): the reserved payload bits of a Decanter card are those of R369 and R370. -/
def blkBad (b : BitVec 512) : Bool :=
  let op := blkOp b
  let zero := fun off => blkWord b off != 0
  decide (5 < op) || bitsAt b 11 5 != 0 || blkAction b == 3 || decide (6 < blkTest b) || (blkCard b && blkTest b != 0)
  || decide (4 < blkPrints b) || (!blkCard b && blkPrints b != 0)
  || bitsAt (blkNext b) 0 6 != 0 || bitsAt (blkAlt b) 0 6 != 0
  || (!blkCard b && bitsAt (blkWord b 48) 0 3 != 0)
  || (match op with
      | 0 => blkOperand b != 0 || zero 24 || zero 32 || zero 40
      | 1 => decide (1 < blkOperand b) || zero 32 || zero 40
      | 2 => decide (63 < blkOperand b) || bitsAt (blkWord b 56) 20 12 != 0 || bitsAt (blkWord b 56) 48 16 != 0
        || ((bitsAt (blkWord b 56) 11 2 == 1 || bitsAt (blkWord b 56) 11 2 == 2) && bitsAt (blkWord b 32) 12 52 != 0)
      | 3 => decide (63 < blkOperand b)
      | 4 => decide (1 < blkOperand b) || bitsAt (blkWord b 24) 0 3 != 0 || zero 40
      | _ => blkOperand b != 0 || blkWord b 24 == 0 || bitsAt (blkWord b 24) 0 6 != 0 || zero 32 || zero 40)

/-- A test passes (R348). -/
def testPasses (kind : Nat) (w v : W64) : Bool :=
  match kind with
  | 0 => true
  | 1 => w == v
  | 2 => w != v
  | 3 => decide (v.toNat ≤ w.toNat)
  | 4 => decide (w.toNat < v.toNat)
  | 5 => w != 0
  | _ => (w &&& v) != 0

/-- The footprints of a card's extension block; none when they break R366. -/
def footprints (n : Nat) (ext : BitVec 512) : Option (List Footprint) :=
  let slot := fun i => ext.extractLsb' (128 * i) 128
  if (List.range 4).any (fun i => decide (n ≤ i) && slot i != 0) then none
  else if (List.range n).any (fun i => bitsAt (slot i) 52 11 != 0 || bitsAt (slot i) 104 24 != 0 || bitsAt (slot i) 64 40 == 0) then none
  else some ((List.range n).map (fun i =>
    { base := bitsAt (slot i) 0 52, length := bitsAt (slot i) 64 40, write := (slot i).getLsbD 63 }))

/-- Two footprints share a byte, and one of them is written (R367). -/
def Footprint.clash (a b : Footprint) : Bool :=
  (a.write || b.write) && decide (a.base < b.base + b.length) && decide (b.base < a.base + a.length)

/-! ### Access to rings -/

def State.group (s : State) (die m : Nat) : Group := SMap.getD (s.die die).groups m {}
def State.setGroup (s : State) (die m : Nat) (g : Group) : State :=
  let d := s.die die
  s.setDie die { d with groups := SMap.put d.groups m g }
def State.ring (s : State) (r : RingRef) : Ring := SMap.getD (s.group r.die r.group).rings r.ring {}
def State.setRing (s : State) (r : RingRef) (x : Ring) : State :=
  let g := s.group r.die r.group
  s.setGroup r.die r.group { g with rings := SMap.put g.rings r.ring x }
def Group.cls (g : Group) : Nat := bitsAt g.ctl 1 2
def Group.guest (g : Group) : Nat := bitsAt g.ctl 8 6
def Group.enabled (g : Group) : Bool := g.ctl.getLsbD 0

/-- An address that the command engine translates for an access of its own: it reaches no control window (22_system R431),
and a marked line faults (R424). -/
def State.enginePage (s : State) (die asid : Nat) (va : W64) (n : Nat) (acc : Access) : Except Fail Page × State :=
  let q := s.translate (.engine die) asid va acc
  match q.1 with
  | .error f => (.error f, q.2)
  | .ok p =>
    if p.control then (.error (.fault .protection), q.2)
    else if acc ≠ .write ∧ q.2.poisonedIn [(p, n)] then (.error (.fault .uncorrectableData), q.2)
    else (.ok p, q.2)

/-- The ring's descriptor, translated. -/
def State.ringDesc (s : State) (r : RingRef) (acc : Access) : Except Fail Page × State :=
  let x := s.ring r
  s.enginePage r.die x.asid x.desc 64 acc

/-- Number a ring within its die, for a page request's waiter. -/
def ringCode (r : RingRef) : Nat := 64 * r.group + r.ring

/-- The engine files a page request for a ring, which takes no turn until it is woken (R355). -/
def State.ringPage (s : State) (r : RingRef) (f : Fail) (va : W64) (acc : Access) : State :=
  let x := s.ring r
  let u : UnitId := .engine r.die
  (s.setRing r { x with page := some (pageOf va) }).unitRequest u x.asid (pageOf va) (f.union acc) f.leaf (.unit u (ringCode r))

/-- The engine files a page request for the completion of a ring's entry, which waits for its wake (R353). -/
def State.donePage (s : State) (r : RingRef) (f : Fail) (va : W64) (acc : Access) : State :=
  let x := s.ring r
  let u : UnitId := .engine r.die
  (s.setRing r { x with donePage := some (pageOf va) }).unitRequest u x.asid (pageOf va) (f.union acc) f.leaf (.unit u (ringCode r))

/-! ### Status, stop, completion (R353 to R355) -/

/-- An entry's status record (R354). -/
def EntryState.bytes (e : EntryState) (state : Nat) : List Byte :=
  natBytes 8 e.n ++ natBytes 8 e.last.toNat ++ natBytes 8 e.faultAddr.toNat
    ++ natBytes 2 (if e.cause = 0 then 0 else e.cause + 32768) ++ natBytes 1 e.flags.toNat ++ natBytes 1 state
    ++ natBytes 4 e.cards ++ natBytes 32 0

/-- Write an entry's status record, if the ring has a status area. -/
def State.putStatus (s : State) (r : RingRef) (p : Page) (e : EntryState) (state : Nat) : Except (Fail × W64) Unit × State :=
  let d := s.descAt p
  if d.status = 0 then (.ok (), s)
  else s.unitWrite (.engine r.die) (s.ring r).asid (BitVec.ofNat 64 (d.status + 64 * (e.n % d.size))) (e.bytes state)

/-- Replace the entry with a number. -/
def Ring.setEntry (x : Ring) (e : EntryState) : Ring :=
  { x with entries := x.entries.map (fun f => if f.n = e.n then e else f) }

/-- Steps 1 and 2 of a stop (R355): the status record with state 4, STOP, and the fault record. A page that is missing holds
them until its wake; what faults, or lies on the page `gone` that was answered as unmapped, leaves the ring held in the
engine's own state. -/
def State.writeStop (s : State) (r : RingRef) (rec' : FaultRec) (n : Option Nat) (gone : Option Nat := none) : State :=
  let u : UnitId := .engine r.die
  let finish := fun (t : State) (ok : Bool) =>
    let y := t.ring r
    (t.setRing r { y with unwritten := none, fault := if ok then y.fault else none }).pushFault r.die rec'
  let hold := fun (t : State) (f : Fail) (va : W64) =>
    (t.setRing r { t.ring r with unwritten := some (rec', n) }).ringPage r f va .write
  let q := s.ringDesc r .write
  match q.1 with
  | .error (.fault _) => finish q.2 false
  | .error f => if gone = some (pageOf (s.ring r).desc) then finish q.2 false else hold q.2 f (s.ring r).desc
  | .ok p =>
    let e : Option EntryState := n.bind (fun m => (s.ring r).entries.find? (fun (e : EntryState) => e.n == m))
    let st : Except (Fail × W64) Unit × State := match e with
      | some e => q.2.putStatus r p e 4
      | none => (.ok (), q.2)
    let stop := fun (t : State) => t.putAt (.unit u) (p.plus 48) 4 ((t.descAt p).ctl ||| 2 ^ 24)
    match st.1 with
    | .ok _ => finish (stop st.2) true
    | .error (.fault _, _) => finish (stop st.2) false
    | .error (f, va) => if gone = some (pageOf va) then finish (stop st.2) false else hold st.2 f va

/-- A fault of a walk, or of a completion, stops the ring (R355); `n` is the entry, `gone` the page that was answered as
unmapped. -/
def State.stopRing (s : State) (r : RingRef) (k : FaultKind) (block va : W64) (n : Option Nat) (gone : Option Nat := none) : State :=
  let cause := causeCode 4 k
  let x := s.ring r
  let x1 := match n with
    | some m => match x.entries.find? (fun (e : EntryState) => e.n == m) with
      | some e => x.setEntry { e with cause := (if e.cause = 0 then cause else e.cause), faultAddr := (if e.cause = 0 then va else e.faultAddr), last := block }
      | none => x
    | none => x
  (s.setRing r { x1 with stopped := true, fault := some (cause, block), faultEntry := n }).writeStop r
    { faultRec cause 2 block x.asid with va := va, ptr := x.desc } n gone

/-- ENTRY_COMPLETE (R353): the first entry's walk has ended and no card of it is pending; its status record, then the
sequence word, with release at `.dev`. A stop for a later entry does not hold it. -/
def execEntryComplete (r : RingRef) (s : State) : Out :=
  let x := s.ring r
  match x.entries with
  | [] => .next s
  | e :: rest =>
    let waits := (s.group r.die r.group).cards.any (fun c => decide (c.entry = some (r.ring, e.n)))
    if !x.valid || x.donePage.isSome || (x.stopped && x.faultEntry == some e.n) || !e.walked || waits then .next s
    else
      let u : UnitId := .engine r.die
      let q := s.ringDesc r .atomic
      let fail := fun (t : State) (f : Fail) (va : W64) (acc : Access) =>
        match f with
        | .fault k => t.stopRing r k e.last va (some e.n)
        | f => t.donePage r f va acc
      match q.1 with
      | .error f => .next (fail q.2 f x.desc .atomic)
      | .ok p =>
        let st := q.2.putStatus r p e 3
        match st.1 with
        | .error (f, va) => .next (fail st.2 f va .write)
        | .ok _ =>
          let s0 := st.2.releasedBy (.unit u)
          let seq := bytesNat (s0.pieceData [(p.plus 24, 8)])
          let s1 := s0.putAt (.unit u) (p.plus 24) 8 (seq + 1)
          .next (s1.setRing r { s1.ring r with entries := rest, next := e.n + 1 })

/-- RING_RESUME (R355): software has written STOP as 0, so the faulted entry completes and service goes on behind it; a walk of
another entry goes on. -/
def execRingResume (r : RingRef) (s : State) : Out :=
  let x := s.ring r
  if !x.valid || !x.stopped || x.fault.isNone || x.unwritten.isSome then .next s
  else
    match s.ringDesc r .read with
    | (.error _, _) => .next s
    | (.ok p, t) =>
      if (t.descAt p).ctl.testBit 24 then .next s
      else
        let mine := match x.walk with | some w => x.faultEntry == some w.entry | none => false
        let ended := x.entries.map (fun e => if x.faultEntry = some e.n then { e with walked := true } else e)
        .next (t.setRing r { x with
          stopped := false
          fault := none
          faultEntry := none
          walk := if mine then none else x.walk
          testLine := if mine then none else x.testLine
          entries := ended })

/-! ### Cards (R366 to R368) -/

/-- Accept a card into the pending set of a group, with its edges (R366, R367); the acceptance is a release of the engine
(R351). -/
def State.acceptCard (s : State) (die group : Nat) (asid : Nat) (b : BitVec 512) (addr : W64) (prints : List Footprint) (cls : Nat)
    (entry : Option (Nat × Nat)) (free : Option Nat) : State :=
  let d := s.die die
  let g := s.group die group
  let edges := (g.cards.filter (fun y => decide (some y.id ≠ free) && y.prints.any (fun a => prints.any (fun c => Footprint.clash a c)))).map (·.id)
  let c : Card :=
    { id := d.nextCard, vintner := blkOp b == 3, addr := addr, block := b, cluster := natBits (blkOperand b) 0 6, cls := cls
      guest := g.guest, asid := asid, prints := prints, edges := edges, entry := entry, state := .pending, ended := none
      met := s.serial }
  let s1 := s.setDie die { d with nextCard := d.nextCard + 1 }
  (({ s1 with serial := s1.serial + 1 } : State).releasedBy (.unit (.engine die))).setGroup die group { g with cards := g.cards ++ [c] }

/-- The engine of a card has no card of its class (R368). -/
def State.engineFree (s : State) (vintner : Bool) (cluster cls : Nat) : Bool :=
  let c := s.cluster cluster
  let taken := s.dies.any (fun p => p.2.groups.any (fun q => q.2.cards.any (fun k =>
    k.vintner == vintner && k.cluster == cluster && k.cls == cls && k.ended.isNone && decide (k.state ≠ .pending))))
  !taken && (if vintner then (SMap.find c.vctx cls).isNone else (SMap.find c.dec cls).isNone)

/-- Pending cards whose edges are met, for one engine and class. -/
def State.readyCards (s : State) (vintner : Bool) (cluster cls : Nat) : List Card :=
  s.dies.flatMap (fun p => p.2.groups.flatMap (fun q => q.2.cards.filter (fun k =>
    k.vintner == vintner && k.cluster == cluster && k.cls == cls && decide (k.state = .pending) && k.edges.isEmpty)))

/-- A card is the next to start on its engine (R365, R368): its guest is the nested scheduler's choice, and among the
guest's cards its edges were met first, or were met together and it was accepted first. -/
def State.nextCardIs (s : State) (c : Card) : Bool :=
  let l := s.readyCards c.vintner c.cluster c.cls
  let guests := (List.range 64).filter (fun g => l.any (fun k => k.guest == g))
  (s.die (dieOfCluster c.cluster)).choose guests == some c.guest
    && l.all (fun k => k.guest != c.guest || decide (c.met < k.met) || (c.met == k.met && decide (c.id ≤ k.id)))

/-- Replace a card of a group. -/
def Group.setCard (g : Group) (c : Card) : Group := { g with cards := g.cards.map (fun k => if k.id = c.id then c else k) }

/-- A tile destination of a Decanter card is fill-pending from its dispatch (R372). -/
def State.pendTile (s : State) (cluster asid h : Nat) : State :=
  let c := s.cluster cluster
  let key := 1024 * asid + h % 1024
  match SMap.find c.tiles key with
  | some t => s.setCluster cluster { c with tiles := SMap.put c.tiles key { t with pending := t.pending + 1 } }
  | none => s

/-- CARD_DISPATCH (R368): a card whose edges are met goes to its engine; a Decanter reads the descriptor of its ASID
(10_pages R210). -/
def execCardDispatch (die group idx : Nat) (s : State) : Out :=
  let dn := die % 4
  let g := s.group dn (group % 64)
  match g.cards.drop idx with
  | [] => .next s
  | c :: _ =>
    if c.state = .pending ∧ c.edges = [] ∧ s.engineFree c.vintner c.cluster c.cls ∧ s.nextCardIs c then
      let s1 := s.setGroup dn (group % 64) (g.setCard { c with state := .dispatched })
      if c.vintner then .next s1
      else
        let cl := s1.cluster c.cluster
        let ahead := (s1.fills.filter (fun f => f.crew.isNone && f.cluster == c.cluster
          && f.key == 1024 * c.asid + bitsAt (blkWord c.block 32) 0 10)).length
        let slot : DecSlot :=
          { die := dn, group := group % 64, card := c, row := 0, col := 0, flags := 0, state := 2, page := none, ahead := ahead }
        let s2 := s1.setCluster c.cluster { cl with dec := SMap.put cl.dec c.cls slot }
        let dk := bitsAt c.block (8 * 56 + 11) 2
        let s3 := s2.loadAsid (.decanter c.cluster) c.asid
        .next (if dk = 1 ∨ dk = 2 then s3.pendTile c.cluster c.asid (bitsAt (blkWord c.block 32) 0 12) else s3)
    else .next s

/-- CARD_COMPLETE (R368): a card that its engine has ended leaves the pending set; its flags and first cause go to its
entry, and the edges from it are met. -/
def execCardComplete (die group idx : Nat) (s : State) : Out :=
  let dn := die % 4
  let m := group % 64
  let g := s.group dn m
  match g.cards.drop idx with
  | [] => .next s
  | c :: _ =>
    match c.ended with
    | none => .next s
    | some (cause, addr, flags) =>
      let left := (g.cards.filter (fun k => k.id != c.id)).map (fun k =>
        if k.edges.contains c.id then { k with edges := k.edges.filter (· != c.id), met := s.serial } else k)
      let s1 := ({ s with serial := s.serial + 1 } : State).setGroup dn m { g with cards := left }
      match c.entry with
      | none => .next s1
      | some (rn, n) =>
        let r : RingRef := { die := dn, group := m, ring := rn }
        let x := s1.ring r
        match x.entries.find? (fun (e : EntryState) => e.n == n) with
        | none => .next s1
        | some e =>
          let e1 := { e with flags := e.flags ||| flags }
          let e2 := if cause ≠ 0 ∧ e.cause = 0 then { e1 with cause := cause, faultAddr := addr, last := c.addr } else e1
          .next (s1.setRing r (x.setEntry e2))

/-! ### Turns and walks (R350 to R352, R357 to R363) -/

/-- A ring holds an entry as its descriptor stands; one whose descriptor does not translate takes its turn to stop (R358,
R361). -/
def State.hasEntry (s : State) (r : RingRef) : Bool :=
  match (s.ringDesc r .read).1 with
  | .ok p => let d := s.descAt p; d.head != d.tail
  | .error _ => true

/-- A ring may take a turn: it is valid, not stopped, does not wait, and holds a walk in progress or an entry that the engine
has learned of (R352, R355, R358, R362). -/
def State.ringOpen (s : State) (r : RingRef) : Bool :=
  let x := s.ring r
  x.valid && !x.stopped && x.page.isNone && x.testLine.isNone && (x.walk.isSome || (x.awake && s.hasEntry r))

/-- The end of a walk: the entry waits for its cards, or completes. -/
def Ring.endWalk (x : Ring) (n : Nat) : Ring :=
  { x with walk := none, entries := x.entries.map (fun e => if e.n = n then { e with walked := true } else e) }

/-- Save a walk's cursor. -/
def State.saveWalk (s : State) (r : RingRef) (w : Walk) : State :=
  let x := s.ring r
  let last := x.entries.map (fun e => if e.n = w.entry ∧ e.cause = 0 then { e with last := w.last } else e)
  s.setRing r { x with walk := some w, entries := last }

/-- What a block's operation comes to before the test takes effect: nothing stands in its way, a page is missing, a fault,
or a queue or pending set is full (R352). -/
inductive Gate where
  | clear
  | page (f : Fail) (va : W64) (acc : Access)
  | fault (k : FaultKind) (va : W64)
  | full

/-- A failure of one of a block's accesses as a gate. -/
def Gate.ofFail (f : Fail) (va : W64) (acc : Access) : Gate :=
  match f with
  | .fault k => .fault k va
  | f => .page f va acc

/-- The record that a launch block names, read and checked (R131, R347). A misaligned code field is a malformed record
here: R424 lists misaligned-code under no origin 4 (notes/assumptions/25). -/
def State.launchGate (s : State) (r : RingRef) (b : BitVec 512) : Gate × Option (Queued × Spot) × State :=
  let x := s.ring r
  let addr := blkWord b 24
  if bitsAt addr 0 6 ≠ 0 then (.fault .malformedRecord 0, none, s)
  else
    let q := s.readRecord (.engine r.die) x.asid addr
    match q.1 with
    | .error (f, va) => (Gate.ofFail f va .read, none, q.2)
    | .ok (rec', ts) =>
      let k := q.2.checkRecord r.die x.asid (x.asid == 0) rec' ts
      match k.1 with
      | some .privilegedInstruction => (.fault .privilegedInstruction 0, none, k.2)
      | some _ => (.fault .malformedRecord 0, none, k.2)
      | none =>
        let qd : Queued := { record := rec', recptr := addr, asid := x.asid, guest := (s.group r.die r.group).guest
                             onCore := none, onCluster := none, crew := none, rank := none, tiles := ts, die := r.die }
        let spot := spotOf qd (if blkOperand b = 1 then 5 else 4)
        if k.2.roomFor r.die spot 1 then (.clear, some (qd, spot), k.2) else (.full, none, k.2)

/-- The card that a card block is, with its footprints (R366). -/
def State.cardGate (s : State) (r : RingRef) (b : BitVec 512) (c : W64) : Gate × List Footprint × State :=
  let x := s.ring r
  let n := blkPrints b
  let room := decide ((s.group r.die r.group).cards.length < 256)
  if n = 0 then (if room then .clear else .full, [], s)
  else
    let q := s.unitRead (.engine r.die) x.asid (c + 64) 64 .read
    match q.1 with
    | .error (f, va) => (Gate.ofFail f va .read, [], q.2)
    | .ok bs =>
      match footprints n (BitVec.ofNat 512 (bytesNat bs)) with
      | none => (.fault .malformedCommand 0, [], q.2)
      | some l => (if room then .clear else .full, l, q.2)

/-- What walking one block does to the turn: the walk goes on, or the turn ends here. -/
inductive Walked where
  | on (s : State) (w : Walk)
  | stop (s : State)

/-- A gate that is not clear ends the turn; a fault stops the ring (R352, R355). -/
def State.atGate (s : State) (r : RingRef) (w : Walk) (g : Gate) : State :=
  match g with
  | .clear => s
  | .full => s.saveWalk r w
  | .page f va acc => (s.saveWalk r w).ringPage r f va acc
  | .fault k va => (s.saveWalk r w).stopRing r k w.cur va (some w.entry)

/-- The access of a signal: a write, or an atomic when it adds (R347). -/
def sigAccess (b : BitVec 512) : Access := if blkOperand b = 1 then .atomic else .write

/-- Perform a block whose test has passed (R347, R350). -/
def State.performBlock (s : State) (r : RingRef) (w : Walk) (b : BitVec 512) (c : W64)
    (launch : Option (Queued × Spot)) (prints : List Footprint) : Walked :=
  let x := s.ring r
  let u : UnitId := .engine r.die
  let go := { w with cur := blkNext b, last := c, turn := w.turn + 1, since := w.since + 1 }
  match blkOp b with
  | 1 =>
    match launch with
    | some (q, spot) => .on ((s.releasedBy (.unit u)).enqueue r.die q spot) { go with since := 0 }
    | none => .on s go
  | 4 =>
    let va := blkWord b 24
    let acc := sigAccess b
    let t := s.enginePage r.die x.asid va 8 acc
    match t.1 with
    | .error f => .stop (t.2.atGate r w (Gate.ofFail f va acc))
    | .ok p =>
      let v := blkWord b 32
      let old := BitVec.ofNat 64 (bytesNat (t.2.pieceData [(p, 8)]))
      .on ((t.2.releasedBy (.unit u)).putAt (.unit u) p 8 (if blkOperand b = 1 then old + v else v).toNat) go
  | 5 =>
    if w.stack.length = 8 then .stop ((s.saveWalk r w).stopRing r .linkDepth c 0 (some w.entry))
    else .on s { go with cur := blkWord b 24, stack := blkNext b :: w.stack }
  | 0 => .on s go
  | _ =>
    let s1 := s.acceptCard r.die r.group x.asid b c prints w.cls (some (r.ring, w.entry)) none
    let y := s1.ring r
    .on (s1.setRing r { y with entries := y.entries.map (fun e => if e.n = w.entry then { e with cards := e.cards + 1 } else e) }) go

/-- Test and perform a block that has been read and checked (R348, R350). What could make the block wait is looked at before
its test takes effect, so that a wait repeats nothing; a fault comes after the test (notes/assumptions/26). -/
def State.runBlock (s1 : State) (r : RingRef) (w : Walk) (b : BitVec 512) : Walked :=
  let x := s1.ring r
  let u : UnitId := .engine r.die
  let c := w.cur
  let kind := blkTest b
  let tva := blkWord b 48
  let tacc : Access := if kind = 5 then .atomic else .read
  let tt : Except Fail Page × State :=
    if kind = 0 then (.ok { pa := 0, peer := 0, remote := false, kind := .rc, fmt := 0, geo := 0, base := 0, size := 0 }, s1)
    else s1.enginePage r.die x.asid tva 8 tacc
  match tt.1 with
  | .error f => .stop (tt.2.atGate r w (Gate.ofFail f tva tacc))
  | .ok p =>
    if kind = 5 ∧ (p.kind = .ws ∨ p.kind = .pv) then .stop (tt.2.atGate r w (.fault .illegalKind 0))
    else
      let word := BitVec.ofNat 64 (bytesNat (tt.2.pieceData [(p, 8)]))
      let fail := { w with last := c, turn := w.turn + 1, since := w.since + 1 }
      if kind ≠ 0 ∧ !testPasses kind word (blkWord b 56) then
        match blkAction b with
        | 0 => .on tt.2 { fail with cur := blkAlt b }
        | 1 => .on tt.2 { fail with cur := blkNext b }
        | _ =>
          let s2 := tt.2.saveWalk r { w with last := c }
          .stop (s2.setRing r { s2.ring r with testLine := some (lineOf p.pa, false) })
      else
        let l : Gate × Option (Queued × Spot) × State :=
          if blkOp b = 1 then tt.2.launchGate r b else (.clear, none, tt.2)
        let k : Gate × List Footprint × State :=
          if blkCard b then l.2.2.cardGate r b c else (.clear, [], l.2.2)
        let sig : Gate × State :=
          if blkOp b = 4 then
            let t := k.2.2.enginePage r.die x.asid (blkWord b 24) 8 (sigAccess b)
            (match t.1 with | .error f => Gate.ofFail f (blkWord b 24) (sigAccess b) | .ok _ => .clear, t.2)
          else (.clear, k.2.2)
        let taken := if kind = 5 then sig.2.putAt (.unit u) p 8 (word - 1).toNat else sig.2
        let g := match l.1, k.1 with
          | .clear, .clear => sig.1
          | .clear, g => g
          | g, _ => g
        match g with
        | .clear => taken.performBlock r w b c l.2.1 k.2.1
        | .fault f va => .stop (taken.atGate r w (.fault f va))
        | g => .stop (sig.2.atGate r w g)

/-- Walk the block at the cursor (R350): it is read and checked, and waits for the entry's cards if it drains; then it is
tested and performed. -/
def State.walkBlock (s : State) (r : RingRef) (w : Walk) : Walked :=
  match w.block with
  | some b => s.runBlock r { w with block := none } b
  | none =>
    let q := s.unitRead (.engine r.die) (s.ring r).asid w.cur 64 .read
    match q.1 with
    | .error (f, va) => .stop (q.2.atGate r w (Gate.ofFail f va .read))
    | .ok bs =>
      let b := BitVec.ofNat 512 (bytesNat bs)
      if blkBad b then .stop (q.2.atGate r w (.fault .malformedCommand 0))
      else if blkDrain b && (q.2.group r.die r.group).cards.any (fun k => decide (k.entry = some (r.ring, w.entry))) then
        let d := q.2.die r.die
        .stop ((q.2.setDie r.die { d with inTurn := some (r.group, r.ring) }).saveWalk r { w with block := some b })
      else q.2.runBlock r w b

/-- Walk until the turn ends (R350, R352). -/
def State.walkTurn (s : State) (r : RingRef) (w : Walk) : Nat → State
  | 0 => s.saveWalk r w
  | fuel + 1 =>
    if w.cur = 0 then
      match w.stack with
      | [] => let t := s.saveWalk r w; t.setRing r ((t.ring r).endWalk w.entry)
      | c :: rest => s.walkTurn r { w with cur := c, stack := rest } fuel
    else if 256 ≤ w.turn ∨ 64 ≤ w.since then s.saveWalk r w
    else
      match s.walkBlock r w with
      | .on t v => t.walkTurn r v fuel
      | .stop t => t

/-- An entry is taken (R357): head advances at the descriptor's home slice. With the last one the engine has none left until
its watch tells of more (R358). -/
def State.takeEntry (s : State) (r : RingRef) (p : Page) (d : Desc) : State :=
  (s.setRing r { s.ring r with awake := decide (d.head + 1 ≠ d.tail) }).putAt (.unit (.engine r.die)) (p.plus 16) 8 (d.head + 1)

/-- A new entry's state. -/
def newEntry (n : Nat) (link : Bool) : EntryState :=
  { n := n, walked := link, cards := 0, cause := 0, faultAddr := 0, last := 0, flags := 0, link := link }

/-- Follow a link packet of a growing ring (R359): base moves, and the drained segment goes to the free list. -/
def State.followLink (s : State) (r : RingRef) (p : Page) (d : Desc) (entry : W64) : State :=
  let x := s.ring r
  let u : UnitId := .engine r.die
  let w : Writer := .unit u
  let q := s.enginePage r.die x.asid (BitVec.ofNat 64 d.base) 8 .write
  match q.1 with
  | .error (.fault k) => q.2.stopRing r k (BitVec.ofNat 64 d.base) (BitVec.ofNat 64 d.base) none
  | .error f => q.2.ringPage r f (BitVec.ofNat 64 d.base) .write
  | .ok a =>
    let s1 := q.2.takeEntry r p d
    let s2 := s1.putAt w p 8 (entry.toNat / 64 * 64)
    let s3 := (s2.putAt w a 8 d.free).putAt w (p.plus 40) 8 d.base
    let y := s3.ring r
    s3.setRing r { y with entries := y.entries ++ [newEntry d.head true] }

/-- A turn with no walk in progress: the next entry is taken and its walk begins (R357 to R359, R362). -/
def State.beginTurn (s : State) (r : RingRef) : State :=
  let x := s.ring r
  let u : UnitId := .engine r.die
  let q := s.ringDesc r .atomic
  match q.1 with
  | .error (.fault k) => q.2.stopRing r k x.desc x.desc none
  | .error f => q.2.ringPage r f x.desc .atomic
  | .ok p =>
    let d := q.2.descAt p
    if d.head = d.tail then q.2.setRing r { x with awake := false }
    else
      let slot := BitVec.ofNat 64 (d.base + 8 * (d.head % d.size))
      let e := q.2.unitRead u x.asid slot 8 .read
      match e.1 with
      | .error (.fault k, va) => e.2.stopRing r k slot va none
      | .error (f, va) => e.2.ringPage r f va .read
      | .ok bs =>
        let w := BitVec.ofNat 64 (bytesNat bs)
        let isLast := d.grow && d.head % d.size == d.size - 1
        let kind := bitsAt w 0 2
        if isLast != (kind == 1) || decide (1 < kind) || w.getLsbD 5 then
          let t := e.2.takeEntry r p d
          let y := t.ring r
          (t.setRing r { y with
              entries := y.entries ++ [newEntry d.head false]
              walk := some { entry := d.head, cls := 0, cur := 0, stack := [], last := 0, turn := 0, since := 0 } }).stopRing
            r .malformedCommand 0 0 (some d.head)
        else if isLast then e.2.followLink r p d w
        else
          let t := e.2.takeEntry r p d
          let y := t.ring r
          let cls := if w.getLsbD 4 then bitsAt w 2 2 else (t.group r.die r.group).cls
          let wk : Walk := { entry := d.head, cls := cls, cur := BitVec.ofNat 64 (w.toNat / 64 * 64), stack := [], last := 0, turn := 0, since := 0 }
          (t.setRing r { y with entries := y.entries ++ [newEntry d.head false] }).walkTurn r wk 3000

/-- One turn of a ring. -/
def State.ringTurn (s : State) (r : RingRef) : State :=
  match (s.ring r).walk with
  | some w => s.walkTurn r { w with turn := 0, since := 0 } 3000
  | none => s.beginTurn r

/-- The element of a cyclic order of 64 that follows `last` and satisfies a test. -/
def afterLast (last : Nat) (p : Nat → Bool) : Option Nat :=
  ((List.range 64).map (fun i => (last + 1 + i) % 64)).find? p

/-- A group is served and has a ring ready to take a turn (R363). -/
def State.groupReady (s : State) (die m : Nat) : Bool :=
  let g := s.group die m
  g.enabled && g.rings.any (fun p => s.ringOpen { die := die, group := m, ring := p.1 })

/-- ENGINE_TURN (R350, R362, R363): the command engine serves one turn. A turn that waits for its entry's cards is taken
up again before any other (notes/assumptions/26). -/
def execEngineTurn (die : Nat) (s : State) : Out :=
  let dn := die % 4
  let d := s.die dn
  match d.inTurn with
  | some (m, n) =>
    let r : RingRef := { die := dn, group := m, ring := n }
    match (s.ring r).walk with
    | none => .next (s.setDie dn { d with inTurn := none })
    | some w =>
      if (s.group dn m).cards.any (fun k => decide (k.entry = some (n, w.entry))) then .next s
      else .next ((s.setDie dn { d with inTurn := none }).walkTurn r w 3000)
  | none =>
    let grp := fun m => SMap.getD d.groups m ({} : Group)
    let ready := (List.range 64).filter (fun m => s.groupReady dn m)
    let guests := (List.range 64).filter (fun g => ready.any (fun m => (grp m).guest == g))
    match d.choose guests with
    | none => .next s
    | some g =>
      let mine := ready.filter (fun m => (grp m).guest == g)
      let top := mine.foldl (fun a m => max a (grp m).cls) 0
      match afterLast d.lastGroup (fun m => mine.contains m && (grp m).cls == top) with
      | none => .next s
      | some m =>
        match afterLast (grp m).last (fun n => s.ringOpen { die := dn, group := m, ring := n }) with
        | none => .next s
        | some n =>
          let s1 := s.setDie dn { d with lastGroup := m }
          let s2 := s1.setGroup dn m { s1.group dn m with last := n }
          .next (s2.ringTurn { die := dn, group := m, ring := n })

/-- TEST_WAIT_WAKE (R352): the watch on the test word's line has fired. -/
def execTestWaitWake (r : RingRef) (s : State) : Out :=
  let x := s.ring r
  match x.testLine with
  | some (_, true) => .next (s.setRing r { x with testLine := none })
  | _ => .next s

/-- RING_WAKE (R358): a write to the tail line wakes the ring. -/
def execRingWake (r : RingRef) (s : State) : Out :=
  let x := s.ring r
  if x.valid && x.tailFired then .next (s.setRing r { x with tailFired := false, awake := true }) else .next s

/-! ### Registration (R361) -/

/-- A registration that fails: VALID stays 0, and a type-2 record is written. -/
def State.refuseRing (s : State) (r : RingRef) (k : FaultKind) (asid : Nat) (desc : W64) : State :=
  (s.setRing r { valid := false, asid := asid, desc := desc }).pushFault r.die
    { faultRec (causeCode 4 k) 2 0 asid with va := desc, ptr := desc }

/-- A write of `MGRING`: the descriptor is translated and its control word read. -/
def State.registerRing (s : State) (r : RingRef) (asid : Nat) (desc : W64) (valid : Bool) : State :=
  if !valid then s.setRing r { valid := false, asid := asid, desc := desc }
  else
    let u : UnitId := .engine r.die
    let ds := s.descriptor u asid
    if ds.1.guest ≠ (s.group r.die r.group).guest then ds.2.setRing r { valid := false, asid := asid, desc := desc }
    else
      let q := ds.2.enginePage r.die asid desc 64 .atomic
      match q.1 with
      | .error (.fault k) => q.2.refuseRing r k asid desc
      | .error _ => q.2.refuseRing r .unmappedAddress asid desc
      | .ok p =>
        if p.kind = .ws ∨ p.kind = .pv then q.2.refuseRing r .illegalKind asid desc
        else
          let d := q.2.descAt p
          if bitsAt desc 0 6 ≠ 0 then q.2.refuseRing r .misalignedData asid desc
          else if ctlBad d.ctl || d.cons != 1 then q.2.refuseRing r .malformedCommand asid desc
          else q.2.setRing r { valid := true, asid := asid, desc := desc, tailLine := lineOf p.pa }

/-- MGRING_WRITE (R360, R361). -/
def execMgringWrite (r : RingRef) (asid : Nat) (desc : BitVec 64) (valid : Bool) (s : State) : Out :=
  .next (s.registerRing { die := r.die % 4, group := r.group % 64, ring := r.ring % 64 } (asid % 65536) desc valid)

end Sys2Proof.Machine
end

