-- ==== Sys2Proof/Machine/Park.lean ====
section
/-!
DEFINITION. Waits and parking (05_work R113 to R122): when a wait ends, when a crew is parked, the park image, and
resumption.
-/

namespace Sys2Proof.Machine

/-! ### Wake conditions (R113) -/

/-- Number of a coprocessor unit. -/
def copCode : CopUnit → Nat
  | .raster => 0 | .depth => 1 | .blend => 2 | .texture => 3 | .traversal => 4

/-- Calls of a unit of a cluster that wait in its queue (20_coprocessors R386). -/
def Cluster.queued (c : Cluster) (u : CopUnit) : Nat := (c.calls.filter (fun k => decide (k.unit = u))).length

/-- Live tokens of a render target at its owner (20_coprocessors R394). -/
def Cluster.liveCount (c : Cluster) (key : Nat) : Nat := match SMap.find c.targets key with | some t => t.live.length | none => 0

/-- The lanes of takes of tokens of a render target that wait in its owner's queue (20_coprocessors R395). -/
def Cluster.takesQueued (c : Cluster) (key : Nat) : Nat :=
  (c.calls.filter (fun k => k.major == 0x35 && k.minor == 0 && k.target == key && !(k.sregs.getD 0 0).getLsbD 0)).foldl
    (fun n k => n + ((List.range 32).filter (fun i => k.lanes.getLsbD i)).length) 0

/-- The accumulator a handle names under an ASID (17_matrix R326). -/
def State.acc? (s : State) (cluster asid h : Nat) : Option Acc :=
  if natBits h 10 2 = 3 ∧ natBits h 0 10 < 32 then
    match SMap.find (s.cluster cluster).accs (natBits h 0 10) with
    | some a => if a.asid = asid then some a else none
    | none => none
  else none

/-- The tile a core or cluster handle names for a crew (12_tiles R231, R232). -/
def State.tile? (s : State) (crew : Nat) (c : Crew) (h : Nat) : Option Tile :=
  match natBits h 10 2 with
  | 0 => match s.crew? crew with | some k => SMap.find k.tiles (natBits h 0 10) | none => none
  | 1 => SMap.find (s.cluster (clusterOfCore c.core)).tiles (1024 * c.asid + natBits h 0 10)
  | _ => none

/-- The condition that ends a wait holds. What a wait waits for stands in its number and operand: a record and its scope,
a ring, a word and its value, a handle with the allocation it names, a unit, a render target and how many tokens are to be taken. Waits that an event of their own ends (barriers, replies, records, pages,
traps) have none here. -/
def State.waitHolds (s : State) (crew : Nat) (c : Crew) (g : Gang) (k : Nat) : Bool :=
  let u : UnitId := .core c.core
  match (g.slice k).wait with
  | none => false
  | some w =>
    match w.code with
    | 3 =>
      if w.num = 1 then (g.slice k).remote != 0
      else if w.num = 2 then
        let who := if w.operand / 4096 = 0 then crew else w.operand / 4096 - 1
        match s.tile? who c (w.operand % 4096) with | some t => t.pending == 0 | none => true
      else if w.num = 5 then g.loads.all (fun f => (f.slices &&& sliceMask (g.part k)) == 0 || f.failed.isSome || !f.holds)
      else false
    | 4 =>
      match (s.translate u c.asid (BitVec.ofNat 64 w.operand) .read).1 with
      | .ok p => let d := s.descAt p; if w.num = 1 then d.head != d.tail else !d.full
      | .error _ => true
    | 5 =>
      match (s.translate u c.asid (BitVec.ofNat 64 w.operand) .read).1 with
      | .ok p => p.local && decide (w.num ≤ Memory.readNat s.mem p.pa 8)
      | .error _ => true
    | 6 => (g.part k).any (fun j => g.overflow.getLsbD j || g.watches.any (fun x => x.slice == j && x.fired))
    | 8 =>
      let c := s.cluster (w.num % 1024 / 8 - 1)
      if w.num = 0 then false
      else if 1024 ≤ w.num then decide (c.liveCount w.operand + c.takesQueued w.operand + w.num / 1024 ≤ 4096)
      else [CopUnit.raster, .depth, .blend, .texture, .traversal].any (fun q => copCode q == w.num % 8 && decide (c.queued q < 16))
    | 9 =>
      match (s.readRecord u c.asid (BitVec.ofNat 64 w.operand)).1 with
      | .ok (r, ts) =>
        let q : Queued := { record := r, recptr := 0, asid := c.asid, guest := c.guest, onCore := none, onCluster := none
                            crew := none, rank := none, tiles := ts }
        s.roomFor (dieOfCore c.core) (spotOf q (w.num / 64)) (w.num % 64)
      | .error _ => true
    | 13 =>
      match s.acc? (clusterOfCore c.core) c.asid w.operand with
      | some a => a.id != w.num || a.token.isNone
      | none => true
    | _ => false

/-- End the wait of a part, with a code, when its condition holds; the instruction is then issued again. -/
def State.wakeIf (s : State) (p : PartRef) (codes : List Nat) : State :=
  match s.ctxOf p.crew p.gang p.slice with
  | none => s
  | some x =>
    match (x.g.slice x.low).wait with
    | none => s
    | some w =>
      if x.c.phase.resident && codes.contains w.code && s.waitHolds p.crew x.c x.g x.low then
        s.setGang p.crew p.gang (x.g.wake x.part)
      else s

/-- MWAIT_WAKE (13_atomics R265): a watch has fired. -/
def execMwaitWake (p : PartRef) (s : State) : Out := .next (s.wakeIf p [6])
/-- SEQWAIT_WAKE (18_engines R378): the word has reached the value. -/
def execSeqwaitWake (p : PartRef) (s : State) : Out := .next (s.wakeIf p [5])
/-- RING_ROOM_WAKE (R113): room in the ring, or an entry. -/
def execRingRoomWake (p : PartRef) (s : State) : Out := .next (s.wakeIf p [4])
/-- TASK_QUEUE_ROOM_WAKE (R131): room for the record or records. -/
def execTaskQueueRoomWake (p : PartRef) (s : State) : Out := .next (s.wakeIf p [9])
/-- COPROCESSOR_QUEUE_ROOM (20_coprocessors R389): room in the unit's queue. -/
def execCoprocessorQueueRoom (p : PartRef) (s : State) : Out := .next (s.wakeIf p [8])

/-- TOKEN_ACQUIRE (17_matrix R327, R342): the array holds the token and runs no operation on the tile, so the crew takes
it; a tile that has been freed ends the wait without one. -/
def execTokenAcquire (p : PartRef) (s : State) : Out :=
  match s.ctxOf p.crew p.gang p.slice with
  | none => .next s
  | some x =>
    match (x.g.slice x.low).wait with
    | none => .next s
    | some w =>
      if w.code = 13 ∧ s.waitHolds p.crew x.c x.g x.low then
        let cl := clusterOfCore x.c.core
        let c := s.cluster cl
        let s1 := match s.acc? cl x.c.asid w.operand with
          | some a =>
            if a.id = w.num then s.setCluster cl { c with accs := SMap.put c.accs (natBits w.operand 0 10) { a with token := some p.crew } }
            else s
          | none => s
        .next (s1.wakeIf p [13] |>.setGang p.crew p.gang (x.g.wake x.part))
      else .next s

/-! ### Data that arrive (R113, R116) -/

/-- Offset of a slice block in a crew's frame (R120 to R122). -/
def sliceOffset (c : Crew) (gang k : Nat) : Nat := 256 + gang * gangBlock (recRegs c.record) + 0xA00 + 320 * k

/-- Store runs of bytes in the image of a parked crew. -/
def State.imageStore (s : State) (crew : Nat) (c : Crew) (l : List (Nat × List Byte)) : State :=
  match c.phase with
  | .parked => (s.frameStore crew c l []).2
  | .resumable => (s.frameStore crew c l []).2
  | _ => s

/-- Where the data of a load stand in the image of a parked crew: its destination's registers and `af` (R116, R121). -/
def Flight.imageRuns (f : Flight) (c : Crew) (gang : Nat) (r : Regs) : List (Nat × List Byte) :=
  let o := 256 + gang * gangBlock (recRegs c.record)
  let vs := fun (reg n : Nat) => f.lanes.flatMap (fun l => (List.range n).map (fun j =>
    (o + 0x1400 + 128 * (reg + j) + 4 * l.lane, natBytes 4 (r.getV (reg + j) l.lane).toNat)))
  (o, natBytes 4 r.af.toNat) :: match f.dest with
    | .plain reg w => vs reg (widthRegs w)
    | .decoded reg ty => vs reg (if (memType ty).wide then 2 else 1)
    | .uniform reg w => (slicesOf f.slices).flatMap (fun k => (List.range (widthRegs w)).map (fun j =>
        (sliceOffset c gang k + 64 + 4 * (reg + j), natBytes 4 (r.getS k (reg + j)).toNat)))

/-- A load of a gang goes on as another: when its data have arrived it ends, and a parked crew's image receives them. -/
def State.landFlight (s : State) (crew gang : Nat) (c : Crew) (g : Gang) (f : Flight) : State :=
  let g1 : Gang := { g with loads := g.loads.map (fun h => if h.id = f.id then f else h) }
  if f.done then
    let g2 := g1.land f
    (s.setGang crew gang g2).imageStore crew c (f.imageRuns c gang g2.regs)
  else s.setGang crew gang g1

/-- A load fails: the parts that wait for its data go on, and the next issue of its part raises the fault at the load. -/
def State.failFlight (s : State) (crew gang : Nat) (g : Gang) (f : Flight) (k : FaultKind) : State :=
  s.setGang crew gang { g with
    loads := g.loads.map (fun h => if h.id = f.id then { h with failed := some k } else h)
    slices := g.slices.map (fun x => match x.wait with
      | some w => if w.code = 3 ∧ w.num = 5 then { x with wait := none } else x
      | none => x) }

/-- The pending events of a part's loads, oldest load first. -/
def Gang.arrivals (g : Gang) (m : BitVec 8) : List (Flight × (Nat × Option Nat)) :=
  (g.loads.filter (fun f => (f.slices &&& m) != 0 && f.failed.isNone)).flatMap (fun f => f.chunks.map (fun c => (f, c)))

/-- An event of a load may happen: SC accesses of the instruction keep their lane order, and no earlier load of the part has
still to read one of its bytes (14_ordering R282, R283). -/
def Gang.mayArrive (g : Gang) (f : Flight) (c : Nat × Option Nat) : Bool :=
  let after := f.bindChunk (fun _ => 0) c
  let mine := f.unread.filter (fun a => !after.unread.contains a)
  f.chunkMay c && (g.loads.takeWhile (fun h => h.id != f.id)).all (fun h =>
    (h.slices &&& f.slices) == 0 || mine.all (fun a => !h.unread.contains a))

/-- A fill of the part that was accepted before a load has still to read a byte of one of its events (12_tiles R244). -/
def State.fillBefore (s : State) (crew gang : Nat) (f : Flight) (c : Nat × Option Nat) : Bool :=
  let after := f.bindChunk (fun _ => 0) c
  let mine := f.unread.filter (fun a => !after.unread.contains a)
  s.fills.any (fun q => q.ofPart crew gang f.slices && decide (q.stamp < f.id) && mine.any q.unread)

/-- LOAD_DATA_ARRIVAL (R113): the event of a number among those that the part's loads wait for takes its value, or, of a
remote access, is refused by the owning module (notes/assumptions/11). A part that waits for a remote access of another
kind goes on to make it; so does one at the fill of a tile that has completed. -/
def execLoadDataArrival (a : Arrival) (s : State) : Out :=
  let p := a.part
  match s.ctxOf p.crew p.gang p.slice with
  | none => .next s
  | some x =>
    match (x.g.arrivals x.mask)[a.n]? with
    | some (f, c) =>
      if !x.g.mayArrive f c || s.fillBefore p.crew p.gang f c then .next s
      else
        let away := match f.lanes[c.1]? with | some l => l.bytes.any (fun b => b.away.isSome && b.value.isNone) | none => false
        if away && Config.remoteRefuses s.free then .next (s.nextFree.failFlight p.crew p.gang x.g f .unsupportedRequest)
        else
          let h := f.bindChunk (fun b => s.byteNow x.c.core b.addr b.kind b.away) c
          .next ((if away then s.nextFree else s).landFlight p.crew p.gang x.c x.g h)
    | none =>
      match (x.g.slice x.low).wait with
      | none => .next s
      | some w =>
        if w.code = 3 ∧ w.num = 1 ∧ (x.g.slice x.low).remote = 0 then
          let r := if Config.remoteRefuses s.free then 3 else 1
          .next (s.nextFree.setGang p.crew p.gang ((x.g.mapSlices x.part (fun _ sl => { sl with remote := r })).wake x.part))
        else .next (s.wakeIf p [3])

/-- A part's first store to another module that no earlier access of the part stands before. -/
def Gang.firstRemote (g : Gang) (m : BitVec 8) : List BufEntry → List BufEntry → Option (BufEntry × W64)
  | _, [] => none
  | before, e :: t =>
    match e.op with
    | .remote (some _) _ va =>
      if (e.slices &&& m) != 0 && before.all (fun q => !e.behind q) then some (e, va) else g.firstRemote m (before ++ [e]) t
    | _ => g.firstRemote m (before ++ [e]) t

/-- COMPLETION_TIMEOUT (24_ports R455): no completion of a remote access of the part came within TOUT: a load in flight fails,
an access that the part waits for fails, or a store is lost and reported (22_system R424). -/
def execCompletionTimeout (p : PartRef) (s : State) : Out :=
  match s.ctxOf p.crew p.gang p.slice with
  | none => .next s
  | some x =>
    match x.g.loads.find? (fun f => (f.slices &&& x.mask) != 0 && f.failed.isNone && f.away) with
    | some f => .next (s.failFlight p.crew p.gang x.g f .completionTimeout)
    | none =>
      let waits := match (x.g.slice x.low).wait with
        | some w => w.code == 3 && w.num == 1 && (x.g.slice x.low).remote == 0
        | none => false
      if waits then .next (s.setGang p.crew p.gang ((x.g.mapSlices x.part (fun _ sl => { sl with remote := 2 })).wake x.part))
      else
        match x.g.firstRemote x.mask [] x.g.buffer with
        | some (e, va) =>
          .next ((s.setGang p.crew p.gang { x.g with buffer := x.g.buffer.erase e }).reportStore p.crew va .completionTimeout)
        | none => .next s

/-! ### The park image (R119 to R122) -/

/-- Bytes of 32-bit values. -/
def words32 (n : Nat) (f : Nat → W32) : List Byte := (List.range n).flatMap (fun i => natBytes 4 (f i).toNat)

/-- Bytes of 64-bit values. -/
def words64 (n : Nat) (f : Nat → W64) : List Byte := (List.range n).flatMap (fun i => natBytes 8 (f i).toNat)

/-- Zero bytes. -/
def zeros (n : Nat) : List Byte := List.replicate n 0

/-- The wait operand of a slice block (R122, 10_pages R220; notes/assumptions/27). -/
def Gang.waitOperand (g : Gang) (k : Nat) (w : Wait) : Nat :=
  match w.code with
  | 4 => w.operand
  | 5 => w.num
  | 9 => w.operand
  | 10 =>
    match SMap.find g.replay (g.slice k).part with
    | some (m, va) => va.toNat % 2 ^ 52 + 2 ^ 52 * bitsAt m (4 * k) 4
    | none => w.operand % 2 ^ 52
  | _ => 0

/-- A slice block (R122). -/
def Gang.sliceBlock (g : Gang) (k : Nat) : List Byte :=
  let x := g.slice k
  if x.exited then zeros 8 ++ natBytes 8 8 ++ zeros 304
  else
    let w := match x.wait with
      | some w => (w.code + (if w.code = 1 ∨ w.code = 2 then 256 * w.num else 0), g.waitOperand k w, 16)
      | none => (0, 0, 0)
    natBytes 8 x.pc.toNat ++ natBytes 8 (x.part + w.2.2 + 256 * x.depth) ++ natBytes 8 w.1 ++ natBytes 8 w.2.1 ++ zeros 32
      ++ words32 64 (fun r => g.regs.getS k r)

/-- A gang block (R121). -/
def Gang.block (g : Gang) (regs : Nat) : List Byte :=
  let r := g.regs
  let sl := (List.range 8).flatMap g.sliceBlock
  if g.liveSlices.isEmpty then zeros 0xA00 ++ sl ++ zeros (128 * regs)
  else
    natBytes 4 r.af.toNat ++ natBytes 4 r.te.toNat ++ words32 7 (fun p => r.getPs p) ++ zeros 220
      ++ words64 32 r.getLk ++ words64 128 (fun i => r.getMq (i / 32) (i % 32)) ++ words64 128 (fun i => r.getMk (i / 32) (i % 32))
      ++ sl ++ words32 (32 * regs) (fun i => r.getV (i / 32) (i % 32))

/-- The header (R120). -/
def Crew.header (c : Crew) : List Byte :=
  let exited := c.gangs.foldl (fun n p => if p.2.liveSlices.isEmpty then n + 2 ^ p.1 else n) 0
  natBytes 64 c.record.toNat ++ natBytes 1 c.reason ++ natBytes 1 (recGangs c.record) ++ natBytes 1 (recRegs c.record)
    ++ natBytes 2 exited ++ zeros 3 ++ natBytes 8 c.overrun
    ++ words32 16 (fun n => let b := SMap.getD c.barriers n (0, false); b.1.setWidth 32 + (if b.2 then 65536 else 0)) ++ zeros 112

/-- What a park writes: runs of bytes by offset in the frame — header, gang blocks, and the entries of the divergence
stacks that the core still holds (R116 step 3). -/
def Crew.image (c : Crew) : List (Nat × List Byte) :=
  let n := recRegs c.record
  let spill := c.gangs.flatMap (fun p => (List.range 8).flatMap (fun k =>
    let x := p.2.slice k
    x.stack.reverse.mapIdx (fun i e => (spillSlot c p.1 k (x.spilled + i), natBytes 16 e.word))))
  (0, c.header) :: c.gangs.map (fun p => (256 + p.1 * gangBlock n, p.2.block n)) ++ spill

/-! ### Parking (R114 to R117) -/

/-- Every live slice of every gang waits (R114); a crew that has exited has no blocking point. -/
def Crew.blocked (c : Crew) : Bool :=
  c.gangs.all (fun p => p.2.liveSlices.all (fun k => (p.2.slice k).wait.isSome)) && c.gangs.any (fun p => !p.2.liveSlices.isEmpty)

/-- Some long wait has lasted the core's threshold (R115). -/
def State.longWait (s : State) (c : Crew) : Bool :=
  c.gangs.any (fun p => p.2.liveSlices.any (fun k =>
    match (p.2.slice k).wait with
    | some w => w.code != 1 && w.code != 2 && w.code != 12 && decide ((s.core c.core).parkthr.toNat ≤ s.clock - w.since)
    | none => false))

/-- The crews that are parked and resumed together with a crew: itself, or the members of its co-resident group (R111,
R115). -/
def State.together (s : State) (crew : Nat) (c : Crew) : List (Nat × Crew) :=
  if recCoresident c.record then
    s.crews.filter (fun p => recCoresident p.2.record && p.2.asid == c.asid && recGroup p.2.record 0 == recGroup c.record 0)
  else [(crew, c)]

/-- The Cellarer would place some record, group or crew in the slots that the crew would free, with those of its co-resident
group (R115). -/
def State.wouldPlace (s : State) (crew : Nat) (c : Crew) : Bool :=
  let dn := dieOfCore c.core
  let guest := s.cellarerGuest dn
  let ms := s.together crew c
  let freed : State := { s with crews := s.crews.map (fun p =>
    if ms.any (fun m => m.1 == p.1) then (p.1, { p.2 with phase := .parked }) else p) }
  sources.any (fun src =>
    match s.sourceList dn guest src with
    | [] => false
    | q :: _ =>
      let unit := s.headUnit dn q
      if unit.any s.frameAwaited then false
      else if q.rank.isSome then
        (List.range 16).any (fun i =>
          (s.groupPlace src (16 * dn + i) q unit).isNone
            && match freed.groupPlace src (16 * dn + i) q unit with
              | some l => l.any (fun p => ms.any (fun m => m.2.core == p.2))
              | none => false)
      else ms.any (fun m => freed.holds src m.2.core q))

/-- The reason for which a crew may be parked now (R115, 22_system R428): 1 a long wait, 2 a stop request, 3 a trap that
the resident kernel parks; 0 none. -/
def State.parkReason (s : State) (crew : Nat) (c : Crew) : Nat :=
  let trap := c.gangs.any (fun p => p.2.stops.any (·.park))
  if !c.blocked || c.framePage.isSome || !(decide (c.phase = .running) || decide (c.phase = .stopping)) then 0
  else if trap then 3
  else if c.phase = .stopping then 2
  else if s.longWait c && s.wouldPlace crew c then 1
  else 0

/-- A barrier that every live gang of the crew has reached, or a `regang` that every live slice of a gang has: it
completes before the crew can be parked in it. -/
def Crew.barrierDone (c : Crew) : Bool :=
  (List.range 16).any (fun n => !c.liveGangs.isEmpty && c.liveGangs.all (fun p => p.2.arrivedAt (1, n)))
  || c.gangs.any (fun p => p.2.arrivedAt (12, 0))

/-- Every store, atomic and reduction of a crew is performed, with the loads that must come before; other loads stay in flight
(R116). -/
def State.parkDrain (s : State) (crew : Nat) : State :=
  match s.crew? crew with
  | none => s
  | some c => c.gangs.foldl (fun (t : State) (p : Nat × Gang) =>
      (((List.range 9).foldl (fun (u : State) (_ : Nat) => u.completeFence crew p.1 255) t).performDue crew p.1 255 (fun _ => true)).released
        crew p.1 255 5) s

/-- PARK (R115, R116 steps 1 and 2): the crew stops issuing, and every store of it is performed; dirty PV lines are
published (14_ordering R286). -/
def execPark (crew : Nat) (s : State) : Out :=
  match s.crew? crew with
  | none => .next s
  | some c =>
    let ms := s.together crew c
    if ms.isEmpty || ms.any (fun m => s.parkReason m.1 m.2 == 0 || m.2.barrierDone) then .next s
    else .next (ms.foldl (fun (t : State) (m : Nat × Crew) =>
      let why := s.parkReason m.1 m.2
      let t1 := (t.parkDrain m.1).pvPublishCrew m.2.core m.1
      match t1.crew? m.1 with
      | some k => t1.setCrew m.1 { k with phase := .parking, reason := why }
      | none => t1) s)

/-- After its park, the core holds no stack entry, buffer, fence or reservation of a gang (R116, 13_atomics R260). -/
def Gang.parked (g : Gang) : Gang :=
  { g with
    slices := g.slices.map (fun x => { x with spilled := x.depth, stack := [] })
    buffer := []
    fences := []
    resv := [] }

/-- A crew whose park is abandoned stays resident in its waits (R119). -/
def State.unpark (s : State) (crew : Nat) : State :=
  match s.crew? crew with
  | none => s
  | some c => s.setCrew crew { c with phase := if c.deadline.isSome then .stopping else .running, reason := 0 }

/-- A park that met a fault is abandoned (R119): a missing page is requested as for a store of the core; another fault is
reported once. -/
def State.abandonPark (s : State) (crew : Nat) (f : Fail) (va : W64) : State :=
  let s0 := s.unpark crew
  match s0.crew? crew with
  | none => s0
  | some c =>
    match f with
    | .fault k =>
      let s1 := s0.setCrew crew { c with faulted := true }
      if c.faulted then s1
      else s1.pushFault (dieOfCore c.core)
        { faultRec (causeCode 0 k) 5 0 c.asid with crew := crew, va := va, cluster := clusterOfCore c.core, ptr := c.recptr }
    | f =>
      let pg := pageOf va
      (s0.setCrew crew { c with framePage := some pg }).frameRequest crew c.core c.asid pg (f.union .write) f.leaf

/-- The images of crews that park together are written in turn; the first that fails ends it. -/
def State.writeImages (s : State) : List (Nat × Crew) → Option (Nat × Fail × W64) × State
  | [] => (none, s)
  | (n, c) :: t =>
    let r := s.frameStore n c c.image []
    match r.1 with
    | .error (f, va) => (some (n, f, va), r.2)
    | .ok _ => r.2.writeImages t

/-- PARK_IMAGE_PERFORMED (R111, R116 steps 3 to 5, R119): the image of the crew, or of every member of its group, stands in its
frame, and the slots are free; when one fails, none is parked. -/
def execParkImagePerformed (crew : Nat) (s : State) : Out :=
  match s.crew? crew with
  | none => .next s
  | some c =>
    let ms := (s.together crew c).map (fun m => (m.1, { m.2 with overrun := m.2.overrun + s.overrunOf m.2 }))
    if c.phase ≠ .parking ∨ ms.any (fun m => decide (m.2.phase ≠ .parking)) then .next s
    else
      let r := s.writeImages ms
      match r.1 with
      | some (n, f, va) =>
        .next ((ms.foldl (fun t m => t.unpark m.1) r.2).abandonPark n f va)
      | none => .next (ms.foldl (fun (t : State) (m : Nat × Crew) => t.setCrew m.1 { m.2 with
          phase := .parked
          deadline := none
          noticed := false
          faulted := false
          gangs := m.2.gangs.map (fun p => (p.1, p.2.parked)) }) r.2)

/-! ### Resumption (R117, R118) -/

/-- A parked crew enters its class queue ahead of every record of its class (R118). -/
def State.enqueueCrew (s : State) (crew : Nat) (c : Crew) (rank : Option (Nat × Nat)) : State :=
  let dn := dieOfCore c.core
  let d := s.die dn
  let q : Queued := { record := c.record, recptr := c.recptr, asid := c.asid, guest := c.guest, onCore := none
                      onCluster := none, crew := some crew, rank := rank, die := dn }
  let ins := fun (l : List Queued) => l.takeWhile (fun e => e.crew.isSome) ++ q :: l.dropWhile (fun e => e.crew.isSome)
  if recService c.record then s.setDie dn { d with service := ins d.service }
  else
    let key := 4 * c.guest + recClass c.record
    s.setDie dn { d with queues := SMap.put d.queues key (ins (SMap.getD d.queues key [])) }

/-- The crew becomes resumable, with the members of its co-resident group (R111, R118). -/
def State.makeResumable (s : State) (crew : Nat) (c : Crew) : State :=
  let ms := s.together crew c
  let s1 := ms.foldl (fun (t : State) (m : Nat × Crew) => t.setCrew m.1 { m.2 with phase := .resumable }) s
  if recCoresident c.record then
    let dn := dieOfCore c.core
    let g := recGroup c.record 0
    let unit := ms.map (fun m => ({ record := m.2.record, recptr := m.2.recptr, asid := m.2.asid, guest := m.2.guest
                                    onCore := none, onCluster := none, crew := some m.1, rank := m.2.rank, die := dn } : Queued))
    let d := s1.die dn
    (s1.setDie dn { d with groupsReady := (256 * c.asid + g, unit) :: d.groupsReady }).enqueueCrew crew c (some (g, 0))
  else s1.enqueueCrew crew c none

/-- Some waiting slice's wait has ended, or its condition holds (R118). -/
def State.someWakes (s : State) (crew : Nat) (c : Crew) : Bool :=
  c.gangs.any (fun p => p.2.liveSlices.any (fun k => (p.2.slice k).wait.isNone || s.waitHolds crew c p.2 k))

/-- Data of a load of the crew have not arrived: its image is not whole yet (R116). -/
def Crew.loadsPending (c : Crew) : Bool := c.gangs.any (fun p => p.2.loads.any (fun f => f.failed.isNone))

/-- CREW_WAKE (R118): a wake condition of a parked crew holds, or the reason for its stop has passed. A crew that the
resident kernel parked for a trap waits for its resolution (22_system R429). -/
def execCrewWake (crew : Nat) (s : State) : Out :=
  match s.crew? crew with
  | none => .next s
  | some c =>
    let ms := s.together crew c
    let wakes := ms.any (fun m => s.someWakes m.1 m.2 || (m.2.reason == 2 && !s.stopReason m.2))
    let held := c.reason == 3 && c.gangs.any (fun p => p.2.stops.any (·.park))
    if c.phase = .parked ∧ !held ∧ ms.all (fun m => decide (m.2.phase = .parked) && !m.2.loadsPending) ∧ wakes then .next (s.makeResumable crew c)
    else .next s

/-- A value in an image. -/
def imgNat (b : List Byte) (off n : Nat) : Nat := bytesNat ((b.drop off).take n)

/-- A run of an image is not all zero. -/
def imgSet (b : List Byte) (off n : Nat) : Bool := ((b.drop off).take n).any (· != 0)

/-- A slice block breaks the fields that R122 marks as zero. -/
def sliceBad (b : List Byte) (o : Nat) : Bool :=
  let st := imgNat b (o + 8) 8
  if st.testBit 3 then imgSet b o 8 || st != 8 || imgSet b (o + 16) 304
  else natBits st 5 3 != 0 || natBits st 16 48 != 0 || imgSet b (o + 18) 6 || imgSet b (o + 32) 32

/-- Some field of an image that R120 to R122 mark as zero is not (22_system R429). -/
def imageBad (b : List Byte) (gangs regs : Nat) : Bool :=
  imgSet b 0x45 3 || imgSet b 0x90 112 || (List.range 16).any (fun n => natBits (imgNat b (0x50 + 4 * n) 4) 17 15 != 0)
  || (List.range gangs).any (fun g =>
      let o := 256 + g * gangBlock regs
      let gone := (List.range 8).all (fun k => (imgNat b (o + 0xA00 + 320 * k + 8) 8).testBit 3)
      imgSet b (o + 0x24) 220 || (List.range 8).any (fun k => sliceBad b (o + 0xA00 + 320 * k))
        || (gone && (imgSet b o 0xA00 || imgSet b (o + 0x1400) (128 * regs))))

/-- A table of 32-bit values of an image. -/
def imgTable32 (b : List Byte) (off n : Nat) : SMap W32 :=
  (List.range n).filterMap (fun k => let v := imgNat b (off + 4 * k) 4; if v = 0 then none else some (k, BitVec.ofNat 32 v))

/-- A table of 64-bit values of an image. -/
def imgTable64 (b : List Byte) (off n : Nat) : SMap W64 :=
  (List.range n).filterMap (fun k => let v := imgNat b (off + 8 * k) 8; if v = 0 then none else some (k, BitVec.ofNat 64 v))

/-- A slice as the image and what the core has kept give it: the lane mask and the reconvergence address have no place in
the image (notes/assumptions/28). A wait that has ended is over; the others are entered again. -/
def resumeSlice (b : List Byte) (o : Nat) (x : Slice) (clock : Nat) : Slice :=
  let st := imgNat b (o + 8) 8
  if x.exited then x
  else
    let pc := BitVec.ofNat 64 (imgNat b o 8)
    let base : Slice := { x with pc := pc, part := natBits st 0 3, stack := [], spilled := natBits st 8 8, hints := [] }
    if !st.testBit 4 then { base with wait := none }
    else match x.wait with
      | none => { base with pc := if imgNat b (o + 16) 1 = 2 then x.pc else pc }
      | some w =>
        if w.code = 11 then { base with wait := none, pc := pc + BitVec.ofNat 64 w.len }
        else { base with wait := some { w with since := clock } }

/-- The replay masks that an image holds (10_pages R220). -/
def imgReplay (b : List Byte) (o : Nat) (slices : List Slice) : SMap (LaneMask × W64) :=
  (List.range 8).foldl (fun m k =>
    let q := o + 0xA00 + 320 * k
    let x := slices.getD k { exited := true }
    let opd := imgNat b (q + 24) 8
    let bits := natBits opd 52 4
    if x.exited ∨ imgNat b (q + 16) 1 ≠ 10 ∨ bits = 0 then m
    else
      let old := SMap.getD m x.part (0, BitVec.ofNat 64 (opd % 2 ^ 52))
      SMap.put m x.part (old.1 ||| BitVec.ofNat 32 (bits * 2 ^ (4 * k)), old.2)) []

/-- A gang read back from its block; reserved bits of `af` and `te` read as zero (00_scope R5). -/
def resumeGang (b : List Byte) (o regs : Nat) (g : Gang) (clock : Nat) : Gang :=
  if g.liveSlices.isEmpty then g
  else
    let slices := g.slices.mapIdx (fun k x => resumeSlice b (o + 0xA00 + 320 * k) x clock)
    { g with
      regs := {
        v := imgTable32 b (o + 0x1400) (32 * regs)
        s := (List.range 8).flatMap (fun k => (imgTable32 b (o + 0xA00 + 320 * k + 64) 64).map (fun p => (64 * k + p.1, p.2)))
        p := imgTable32 b (o + 8) 7
        lk := imgTable64 b (o + 0x100) 32
        mq := imgTable64 b (o + 0x200) 128
        mkr := imgTable64 b (o + 0x600) 128
        af := BitVec.ofNat 32 (imgNat b o 4 % 128)
        te := BitVec.ofNat 32 (imgNat b (o + 4) 4 % 128) }
      slices := slices
      replay := imgReplay b o slices }

/-- A crew read back from its image, on a core. -/
def resumeCrew (b : List Byte) (c : Crew) (core clock : Nat) : Crew :=
  let regs := recRegs c.record
  { c with
    core := core
    phase := .running
    reason := 0
    overrun := imgNat b 0x48 8
    barriers := (List.range 16).filterMap (fun n =>
      let v := imgNat b (0x50 + 4 * n) 4
      if v = 0 then none else some (n, (BitVec.ofNat 16 v, v.testBit 16)))
    gangs := c.gangs.map (fun p => (p.1, resumeGang b (256 + p.1 * gangBlock regs) regs p.2 clock)) }

/-- What reading a crew's image back comes to: a page that is missing holds the resumption, a fault ends the crew (R118), and
so does a broken field (22_system R429). -/
inductive Image where
  | whole (b : List Byte)
  | missing (f : Fail) (va : W64)
  | fault (k : FaultKind) (va : W64)
  | broken
deriving DecidableEq, Repr

/-- Read a crew's image. -/
def State.readImage (s : State) (crew : Nat) (c : Crew) : Image × State :=
  let n := recGangs c.record
  let regs := recRegs c.record
  let r := s.frameLoad crew c 0 (256 + n * gangBlock regs)
  (match r.1 with
    | .error (.fault k, va) => .fault k va
    | .error (f, va) => .missing f va
    | .ok b => if imageBad b n regs then .broken else .whole b, r.2)

/-- Read the images of crews that are resumed together. -/
def State.readImages (s : State) : List (Nat × Nat) → List (Nat × Nat × Image) × State
  | [] => ([], s)
  | (crew, core) :: t =>
    match s.crew? crew with
    | none => s.readImages t
    | some c =>
      let r := s.readImage crew c
      let q := r.2.readImages t
      ((crew, core, r.1) :: q.1, q.2)

/-- A crew runs on a core from its image, or ends. Its recorded overrun is charged to its guest's slices (R126). -/
def State.resumeOn (s : State) (crew core : Nat) (i : Image) : State :=
  match s.crew? crew with
  | none => s
  | some c =>
    let dn := dieOfCore c.core
    match i with
    | .fault k va => (s.terminate crew false).pushFault dn
        { faultRec (causeCode 0 k) 5 0 c.asid with mask := 1, crew := crew, va := va, cluster := clusterOfCore c.core, ptr := c.recptr }
    | .broken => (s.terminate crew false).pushFault dn
        { faultRec (causeCode 0 .malformedRecord) 0 0 c.asid with crew := crew, cluster := clusterOfCore c.core, ptr := c.recptr }
    | .missing _ _ => s
    | .whole b =>
      (((s.setCrew crew (resumeCrew b c core s.clock)).pvDropCrew core crew).loadAsid (.core core) c.asid).chargeOverrun crew

/-- A crew's resumption is held for a page of its frame, which is requested (R118). -/
def State.awaitFrame (s : State) (crew core : Nat) (f : Fail) (va : W64) : State :=
  match s.crew? crew with
  | none => s
  | some c =>
    let pg := pageOf va
    (s.setCrew crew { c with framePage := some pg }).frameRequest crew core c.asid pg (f.union .read) f.leaf

/-- Resume crews together, each on its core: while a page of one's frame is missing none is resumed, and they stay at the head
of their queue (R111, R118); `drop` takes them from it. -/
def State.resumeAll (s : State) (l : List (Nat × Nat)) (drop : State → State) : State :=
  let r := s.readImages l
  let missing := r.1.filterMap (fun p => match p.2.2 with | .missing f va => some (p.1, p.2.1, f, va) | _ => none)
  if missing.isEmpty then r.1.foldl (fun t p => t.resumeOn p.1 p.2.1 p.2.2) (drop r.2)
  else missing.foldl (fun t p => t.awaitFrame p.1 p.2.1 p.2.2.1 p.2.2.2) r.2

/-- RESUME (R111, R118): the first head that can be placed is the parked crew, or its group. -/
def execResume (crew core : Nat) (s : State) : Out :=
  match s.crew? crew with
  | none => .next s
  | some c =>
    if c.phase ≠ .resumable ∨ c.framePage.isSome then .next s
    else
      let dn := dieOfCore c.core
      let n := 128 * dn + core % 128
      let guest := s.cellarerGuest dn
      let f := s.scan dn guest sources
      match f.1 with
      | .nothing => .next f.2
      | .crew src q =>
        if q.crew = some crew ∧ f.2.holds src n q then .next (f.2.resumeAll [(crew, n)] (·.dropHead dn guest src)) else .next f.2
      | .group src q =>
        match f.2.groupPlace src (clusterOfCore n) q (f.2.headUnit dn q) with
        | none => .next f.2
        | some l =>
          let ms := l.filterMap (fun m => m.1.crew.map (fun k => (k, m.2)))
          if ms.any (fun m => m.1 == crew) then .next (f.2.resumeAll ms (·.dropUnit dn guest src q)) else .next f.2

end Sys2Proof.Machine
end

