-- ==== Sys2Proof/Machine/Kernel.lean ====
section
/-!
DEFINITION. The gang side of traps and upcalls as the resident kernel meets it (22_system R426 to R429, R437, R438):
writing a trap's record, its resolutions, the mailbox and its replies. Taking a trap is `State.takeTrapAt` of
Machine/Ops.lean.
-/

namespace Sys2Proof.Machine

/-! ### Finding and ending -/

/-- The slices leave their wait behind the group they wait at. -/
def Gang.passWait (g : Gang) (m : BitVec 8) : Gang :=
  g.mapSlices (slicesOf m) (fun _ x =>
    let len := match x.wait with | some w => w.len | none => 4
    { x with pc := x.pc + BitVec.ofNat 64 len, wait := none, hints := [], unchecked := false, remote := 0 })

/-- The slice block of a slice whose wait has ended, in a parked crew's image: its program counter, no wait (05_work R122). -/
def endedWait (c : Crew) (gang k : Nat) (x : Slice) : List (Nat × List Byte) :=
  let o := sliceOffset c gang k
  [(o, natBytes 8 x.pc.toNat), (o + 8, natBytes 8 (x.part + 256 * x.depth)), (o + 16, zeros 16)]

/-- The crews of a die, with their gangs. -/
def State.gangsOfDie (s : State) (die : Nat) : List (Nat × Crew × Nat × Gang) :=
  (s.crews.filter (fun p => dieOfCore p.2.core == die)).flatMap (fun p => p.2.gangs.map (fun q => (p.1, p.2, q.1, q.2)))

/-- The trap with a tag of a die's fault queue. -/
def State.findStop (s : State) (die tag : Nat) : Option (Nat × Crew × Nat × Gang × Stop) :=
  (s.gangsOfDie die).findSome? (fun x =>
    (x.2.2.2.stops.find? (fun t => t.tag.map (· % 2 ^ 48) == some (tag % 2 ^ 48))).map (fun t => (x.1, x.2.1, x.2.2.1, x.2.2.2, t)))

/-- The upcall with a tag of a die's mailbox. -/
def State.findUpcall (s : State) (die tag : Nat) : Option (Nat × Crew × Nat × Gang × Upcall) :=
  (s.gangsOfDie die).findSome? (fun x =>
    (x.2.2.2.upcalls.find? (fun t => t.tag.map (· % 2 ^ 48) == some (tag % 2 ^ 48))).map (fun t => (x.1, x.2.1, x.2.2.1, x.2.2.2, t)))

/-! ### Traps (R426 to R429) -/

/-- TRAP_RECORD_WRITE (R426, R427): the part files its record once the fault queue has room. -/
def execTrapRecordWrite (p : PartRef) (s : State) : Out :=
  match s.ctxOf p.crew p.gang p.slice with
  | none => .next s
  | some x =>
    let d := s.die x.die
    match x.g.stops.find? (fun t => t.tag.isNone && (t.slices &&& x.mask) != 0) with
    | none => .next s
    | some t =>
      if !d.faults.isEmpty || ringFull d.fqhead d.fqtail 1024 then .next s
      else
        let g1 := { x.g with stops := x.g.stops.map (fun u => if u = t then { u with tag := some d.fqseq } else u) }
        .next ((s.setGang p.crew p.gang g1).writeFault x.die
          { cause := causeCode 0 t.trap.kind, type := 0, mask := t.slices.toNat + 256 * t.lanes.toNat, crew := p.crew, addr := t.addr
            va := t.va, asid := x.c.asid, gang := p.gang, cluster := clusterOfCore x.c.core, detail := t.trap.detail
            ptr := x.c.recptr })

/-- A tag is resolved: the trap is forgotten. -/
def Gang.dropStop (g : Gang) (t : Stop) : Gang := { g with stops := g.stops.filter (fun u => u != t) }

/-- TRES action 0, retry (R428): the part restarts at the stop address. -/
def execTresRetry (die tag : Nat) (s : State) : Out :=
  match s.findStop (die % 4) tag with
  | none => .next s
  | some (crew, _, gang, g, t) =>
    .next (s.setGang crew gang
      ((g.dropStop t).mapSlices (slicesOf t.slices) (fun _ x => { x with wait := none, unchecked := true })))

/-- TRES action 1, skip: the part goes on behind the group; what was not performed does not act. -/
def execTresSkip (die tag : Nat) (s : State) : Out :=
  match s.findStop (die % 4) tag with
  | none => .next s
  | some (crew, c, gang, g, t) =>
    let g1 := (g.dropStop t).passWait t.slices
    let g2 := { g1 with replay := (slicesOf t.slices).foldl (fun m k => SMap.erase m k) g1.replay }
    let img := (slicesOf t.slices).flatMap (fun k => endedWait c gang k (g2.slice k))
    .next ((s.setGang crew gang g2).imageStore crew c img)

/-- A redirect address is canonical and a multiple of 4 (R428). -/
def redirectOk (a : W64) : Bool := canonical a && bitsAt a 0 2 == 0

/-- TRES action 2, redirect: every slice of the part goes to the address, and `lk` of each active lane receives the stop
address. -/
def execTresRedirect (die tag addr : Nat) (s : State) : Out :=
  let a := BitVec.ofNat 64 addr
  if !redirectOk a then .next s
  else match s.findStop (die % 4) tag with
    | none => .next s
    | some (crew, c, gang, g, t) =>
      let ks := slicesOf t.slices
      let lanes := (List.range 32).filter (fun i =>
        ks.contains (i / 4) && ((g.slice (i / 4)).mask &&& (g.slice (i / 4)).live).getLsbD (i % 4))
      let g1 := (g.dropStop t).mapSlices ks (fun _ x => { x with pc := a, wait := none, hints := [], remote := 0 })
      let g2 := { g1 with
        regs := lanes.foldl (fun r i => r.setLk i t.addr) g1.regs
        replay := ks.foldl (fun m k => SMap.erase m k) g1.replay }
      let img := ks.flatMap (fun k => endedWait c gang k (g2.slice k))
        ++ lanes.map (fun i => (256 + gang * gangBlock (recRegs c.record) + 0x100 + 8 * i, natBytes 8 t.addr.toNat))
      .next ((s.setGang crew gang g2).imageStore crew c img)

/-- TRES action 3, terminate. -/
def execTresTerminate (die tag : Nat) (decrement : Bool) (s : State) : Out :=
  match s.findStop (die % 4) tag with
  | none => .next s
  | some (crew, _, _, _, _) => .next (s.terminate crew decrement)

/-- TRES action 4, park: the crew is parked at its next blocking point, and the tag stays outstanding. -/
def execTresPark (die tag : Nat) (s : State) : Out :=
  match s.findStop (die % 4) tag with
  | none => .next s
  | some (crew, _, gang, g, t) =>
    .next (s.setGang crew gang { g with stops := g.stops.map (fun u => if u = t then { u with park := true } else u) })

/-! ### Upcalls (R437, R438) -/

/-- Write a mailbox record (R438). -/
def State.writeMail (s : State) (dn crew : Nat) (c : Crew) (gang : Nat) (t : Upcall) : State :=
  let d := s.die dn
  let bs := (t.msg.flatMap (fun w => natBytes 4 w.toNat)) ++ natBytes 4 crew ++ natBytes 1 gang ++ natBytes 1 t.slices.toNat
    ++ natBytes 1 t.channel ++ natBytes 1 (clusterOfCore c.core) ++ natBytes 2 c.asid ++ zeros 6 ++ natBytes 8 t.addr.toNat
    ++ natBytes 8 d.mbseq
  let a := d.mbbase.toNat + 64 * d.mbtail
  let s1 := s.performBytes .rc (.unit (.cellarer dn)) (bs.mapIdx (fun i b => { addr := a + i, value := b, bits := 255 }))
  let d1 := s1.die dn
  s1.setDie dn { d1 with mbtail := (d.mbtail + 1) % 512, mbseq := d.mbseq + 1 }

/-- MAILBOX_RECORD_WRITE (R437): the first upcall without a record, once the mailbox has room. -/
def execMailboxRecordWrite (die : Nat) (s : State) : Out :=
  let dn := die % 4
  let d := s.die dn
  if ringFull d.mbhead d.mbtail 512 then .next s
  else match (s.gangsOfDie dn).findSome? (fun x => (x.2.2.2.upcalls.find? (·.tag.isNone)).map (fun t => (x, t))) with
    | none => .next s
    | some ((crew, c, gang, g), t) =>
      let g1 := { g with upcalls := g.upcalls.map (fun u => if u = t then { u with tag := some d.mbseq } else u) }
      .next ((s.setGang crew gang g1).writeMail dn crew c gang t)

/-- UREPLY (R437, R438): the value goes to the pair in every slice of the part, and the part goes on; a parked crew's
image receives it. -/
def execUreply (die tag : Nat) (value : BitVec 64) (s : State) : Out :=
  match s.findUpcall (die % 4) tag with
  | none => .next s
  | some (crew, c, gang, g, t) =>
    let ks := slicesOf t.slices
    let g1 := { g with
      upcalls := g.upcalls.filter (fun u => u != t)
      regs := ks.foldl (fun r k => r.setS2 k t.dest value) g.regs }
    let g2 := g1.passWait t.slices
    let img := ks.flatMap (fun k =>
      endedWait c gang k (g2.slice k) ++ [(sliceOffset c gang k + 64 + 4 * t.dest, natBytes 8 value.toNat)])
    .next ((s.setGang crew gang g2).imageStore crew c img)

/-- UREPLY with terminate (R437): the crew ends without the decrement. -/
def execUreplyTerminate (die tag : Nat) (s : State) : Out :=
  match s.findUpcall (die % 4) tag with
  | none => .next s
  | some (crew, _, _, _, _) => .next (s.terminate crew false)

end Sys2Proof.Machine
end

