-- ==== Sys2Proof/Machine/Pages.lean ====
section
/-!
DEFINITION. Page requests and their service (10_pages R218, R221, R222, R227): the records of the page request queue,
`PGRES`, `tlbi`, `pkset`, `preq`; access counters and migration notices (R223, R224); scrubbing (22_system R425).
-/

namespace Sys2Proof.Machine

/-! ### What a resolution does to a waiter (R222) -/

/-- The part of a context waits for pages: with code 10, and for no trap. -/
def Ctx.pageWait (x : Ctx) : Option Wait :=
  match (x.g.slice x.low).wait with
  | some w => if w.code = 10 ∧ !x.g.stops.any (fun t => (t.slices &&& x.mask) != 0) then some w else none
  | none => none

/-- A waiter that is woken leaves every filter entry of its core, and the queue for one; it files anew if it stops again. -/
def State.leaveFilter (s : State) (core : Nat) (p : Waiter) : State :=
  let c := s.core core
  s.setCore core { c with
    filter := c.filter.map (fun e => { e with waiters := e.waiters.filter (fun w => w != p) })
    held := c.held.filter (fun h => h.1 != p) }

/-- A waiting part is woken with a status: 0 restarts it, 1 delivers the stop as unmapped-address, or for a fetch as
instruction-fetch. A `preq` that is woken is over. -/
def State.wakePart (s : State) (p : PartRef) (preq : Bool) (status : Nat) : State :=
  match s.ctxOf p.crew p.gang p.slice with
  | none => s
  | some x =>
    match x.pageWait with
    | none => s
    | some w =>
      let s1 := s.leaveFilter x.c.core (if preq then .preq p else .part p)
      if status = 0 then
        s1.setGang p.crew p.gang (if preq then x.g.passWait x.mask else x.g.wake x.part)
      else
        let y := { x with len := w.len }
        if w.num = 1 then s1.takeTrap y { kind := .instructionFetch, detail := FaultKind.unmappedAddress.code }
        else
          let lanes := match SMap.find x.g.replay x.low with | some (m, _) => m | none => laneMask (x.lanes 7)
          s1.takeTrapAt y { kind := .unmappedAddress } (sext52 w.operand) lanes

/-- The cluster tile a Decanter card fills, by its key in the cluster's table (18_engines R370, R372). -/
def DecSlot.tileKey (k : DecSlot) : Option Nat :=
  let dk := bitsAt k.card.block (8 * 56 + 11) 2
  if dk = 1 ∨ dk = 2 then some (1024 * k.card.asid + bitsAt (blkWord k.card.block 32) 0 10) else none

/-- The Decanter's card of a class ends (18_engines R372, R374): its tile is no longer fill-pending, and is filled when the
card ends without a fault; the state of its cursor is idle. The completion is a release (14_ordering R281, R284). -/
def State.endDecanter (s : State) (cl cls cause : Nat) (va : W64) : State :=
  let c := s.cluster cl
  match SMap.find c.dec cls with
  | none => s
  | some k =>
    let done := fun (t : Tile) =>
      if cause = 0 then { t with pending := t.pending - 1, filled := true, reads := bitsAt (blkWord k.card.block 56) 32 16 }
      else { t with pending := t.pending - 1 }
    let tiles := match k.tileKey with
      | some key => match SMap.find c.tiles key with | some t => SMap.put c.tiles key (done t) | none => c.tiles
      | none => c.tiles
    let s1 := s.setCluster cl { c with
      tiles := tiles
      dec := SMap.erase c.dec cls
      decCur := if c.decCur = some cls then none else c.decCur }
    let d := s1.die (dieOfCluster cl)
    let n := 4 * (cl % 16) + cls
    let s2 := s1.setDie (dieOfCluster cl) { d with cursors := SMap.put d.cursors n (SMap.getD d.cursors n 0 &&& ~~~ ((255 : BitVec 256) <<< 152)) }
    (s2.releasedBy (.unit (.decanter cl))).endCard k.die k.group k.card.id cause va k.flags

/-- A unit that waits for a page is woken with a status. -/
def State.wakeUnit (s : State) (u : UnitId) (n asid page status : Nat) : State :=
  match u with
  | .vintner cl =>
    let c := s.cluster cl
    match SMap.find c.vctx n with
    | none => s
    | some k =>
      match k.wait with
      | some (.page a pg fetch) =>
        if a = asid ∧ pg = page then
          let k1 := { k with wait := none }
          if status = 0 then s.setCluster cl { c with vctx := SMap.put c.vctx n k1 }
          else s.vFault { cluster := cl, cls := n, k := k1, pc := k.pc, start := k.pc } (if fetch then .instructionFetch else .unmappedAddress)
        else s
      | _ => s
  | .decanter cl =>
    let c := s.cluster cl
    match SMap.find c.dec n with
    | none => s
    | some k =>
      if k.page = some page then
        if status = 0 then s.setCluster cl { c with dec := SMap.put c.dec n { k with page := none } }
        else s.endDecanter cl n (causeCode 2 .unmappedAddress) (sext52 page)
      else s
  | .engine d =>
    let r : RingRef := { die := d, group := n / 64, ring := n % 64 }
    let x := s.ring r
    let turn := x.page == some page
    let done := x.donePage == some page
    if !turn && !done then s
    else
      let s1 := s.setRing r { x with page := if turn then none else x.page, donePage := if done then none else x.donePage }
      match x.unwritten with
      | some (rec', e) =>
        if !turn then s1
        else s1.writeStop r rec' e (if status = 0 then none else some page)
      | none =>
        if status = 0 then s1
        else if done then s1.stopRing r .unmappedAddress ((x.entries.head?.map (·.last)).getD 0) (sext52 page) (x.entries.head?.map (·.n)) (some page)
        else match x.walk with
          | some w => s1.stopRing r .unmappedAddress w.cur (sext52 page) (some w.entry) (some page)
          | none => s1.stopRing r .unmappedAddress 0 (sext52 page) none (some page)
  | .coprocessor cl =>
    if status = 0 then s
    else
      let c := s.cluster cl
      s.setCluster cl { c with refused := (n, page) :: c.refused }
  | _ => s

/-- A push or an implied decrement that waits for a page (05_work R130, R134). -/
def State.wakePush (s : State) (die asid page status : Nat) : State :=
  let d := s.die die
  let mine := fun (p : Push) => p.asid == asid && p.page == some page
  if status = 0 then
    let f := fun (p : Push) => if mine p then { p with page := none } else p
    s.setDie die { d with pushes := d.pushes.map f, decrements := d.decrements.map f }
  else
    let s1 := s.setDie die { d with pushes := d.pushes.filter (fun p => !mine p), decrements := d.decrements.filter (fun p => !mine p) }
    let s2 := (d.pushes.filter mine).foldl (fun t p => t.dropRecord die .unmappedAddress p.addr p.asid) s1
    (d.decrements.filter mine).foldl (fun t p => t.dropRecord die .unmappedAddress (p.addr - 16) p.asid) s2

/-- A crew whose frame waits for a page (05_work R119). -/
def State.wakeFrame (s : State) (crew page status : Nat) : State :=
  match s.crew? crew with
  | none => s
  | some c =>
    if c.framePage = some page then
      let s1 := (s.setCrew crew { c with framePage := none }).leaveFilter c.core (.crewFrame crew)
      if status = 0 then s1
      else
        let r := faultRec (causeCode 0 .unmappedAddress) 5 0 c.asid
        let rec' := { r with mask := (if c.phase = .resumable then 1 else 0), crew := crew, va := sext52 page
                             cluster := clusterOfCore c.core, ptr := c.recptr }
        if c.phase = .resumable then (s1.terminate crew false).pushFault (dieOfCore c.core) rec'
        else if c.faulted then s1
        else (s1.setCrew crew { c with framePage := none, faulted := true }).pushFault (dieOfCore c.core) rec'
    else s

/-- Held requests of the ports are woken for a page (24_ports R452): with status 0 they are performed, with status 1 they
end with the unmapped-address fault. -/
def State.wakeInbound (s : State) (asid page status : Nat) : State :=
  let mine := fun (h : HeldReq) => h.asid == asid && h.page == some page
  let s1 := if status = 0 then
      { s with ports := { s.ports with held := s.ports.held.map (fun h => if mine h then { h with page := none } else h) } }
    else
      (s.ports.held.filter mine).foldl (fun (t : State) (h : HeldReq) => t.refuseInbound h .unmappedAddress)
        { s with ports := { s.ports with held := s.ports.held.filter (fun h => !mine h) } }
  s1.pumpInbound s1.ports.held.length 0

/-- A waiter is woken with a status. -/
def State.wakeOne (s : State) (asid page status : Nat) (w : Waiter) : State :=
  match w with
  | .part p => s.wakePart p false status
  | .preq p => s.wakePart p true status
  | .unit u n => s.wakeUnit u n asid page status
  | .crewFrame c => s.wakeFrame c page status
  | .push d _ => s.wakePush d asid page status
  | .inbound _ => s.wakeInbound asid page status

/-- A held request passes into a merge stage: it merges with the entry of its page, or takes one (R221). -/
def mergeIn (m : List MergeEntry) (e : MergeEntry) : List MergeEntry :=
  if m.any (fun f => f.asid == e.asid && f.page == e.page) then
    m.map (fun f =>
      if f.asid = e.asid ∧ f.page = e.page then
        { f with union := f.union ||| e.union, count := min (f.count + e.count) 65535, waiters := f.waiters ++ e.waiters }
      else f)
  else m ++ [e]

/-- Requests that wait for a merge-stage entry move up, oldest first, while the stage has room. -/
def moveUpList (m : List MergeEntry) : List MergeEntry → List MergeEntry × List MergeEntry
  | [] => (m, [])
  | e :: t =>
    if m.length < 128 ∨ m.any (fun f => f.asid == e.asid && f.page == e.page) then moveUpList (mergeIn m e) t
    else let r := moveUpList m t; (r.1, e :: r.2)

def Cluster.moveUp (c : Cluster) : Cluster :=
  let r := moveUpList c.merge c.mergeHeld
  { c with merge := r.1, mergeHeld := r.2 }

/-- Wake the entry of a page in one cluster: its merge stage and the filters of its cores, and who has not finished filing
(R221, R222). -/
def State.wakeCluster (s : State) (asid page status : Nat) (cl : Nat) : State :=
  let c := s.cluster cl
  let hitM := fun (e : MergeEntry) => e.asid == asid && e.page == page
  let hitF := fun (e : FilterEntry) => e.asid == asid && e.page == page
  let ws := (c.merge.filter hitM ++ c.mergeHeld.filter hitM).flatMap (·.waiters)
  let s1 := s.setCluster cl
    ({ c with merge := c.merge.filter (fun e => !hitM e), mergeHeld := c.mergeHeld.filter (fun e => !hitM e) } : Cluster).moveUp
  let fs := (coresOfCluster cl).flatMap (fun n => ((s.core n).filter.filter hitF).flatMap (·.waiters)
    ++ ((s.core n).held.filter (fun h => h.2.any (fun r => r.1 == asid && r.2.1 == page))).map (·.1))
  let s2 := (coresOfCluster cl).foldl (fun (t : State) (n : Nat) =>
    let k := t.core n
    if k.filter.any hitF then t.setCore n { k with filter := k.filter.filter (fun e => !hitF e) } else t) s1
  (ws ++ fs).foldl (fun t w => t.wakeOne asid page status w) s2

/-- A write of `PGRES`: every matching entry of the die's merge stages is resolved; a status above 1 is ignored (R222). -/
def State.pgres (s : State) (die asid page status : Nat) : State :=
  if 1 < status then s
  else ((List.range 16).map (fun i => 16 * die + i)).foldl (fun t cl => t.wakeCluster asid page status cl) s

/-- PGRES_WAKE: status 0. -/
def execPgresWake (die asid page : Nat) (s : State) : Out := .next (s.pgres (die % 4) asid (page / 4096 * 4096 % 2 ^ 52) 0)
/-- PGRES_FAULT: status 1. -/
def execPgresFault (die asid page : Nat) (s : State) : Out := .next (s.pgres (die % 4) asid (page / 4096 * 4096 % 2 ^ 52) 1)

/-- PRQ_RECORD_WRITE (R221, R222): a merge stage writes the record of its first entry that has none, once the ring has
room. -/
def execPrqRecordWrite (cluster : Nat) (s : State) : Out :=
  let cl := cluster % 64
  let dn := dieOfCluster cl
  let d := s.die dn
  let c := s.cluster cl
  match c.merge.find? (fun e => !e.written) with
  | none => .next s
  | some e =>
    if ringFull d.prqhead d.prqtail 4096 then .next s
    else
      let bs := natBytes 8 e.page ++ natBytes 2 e.asid ++ natBytes 1 e.union.toNat ++ natBytes 1 cl ++ natBytes 2 e.count ++ zeros 2
        ++ natBytes 8 e.leaf ++ natBytes 8 d.prqseq
      let a := d.prqbase.toNat + 32 * d.prqtail
      let s1 := s.setCluster cl { c with merge := c.merge.map (fun f => if f = e then { f with written := true } else f) }
      let s2 := s1.performBytes .rc (.unit (.cellarer dn)) (bs.mapIdx (fun i b => { addr := a + i, value := b, bits := 255 }))
      let d2 := s2.die dn
      .next (s2.setDie dn { d2 with prqtail := (d.prqtail + 1) % 4096, prqseq := d.prqseq + 1 })

/-- FILTER_ENTRY_FREE_WAKE (R221): what waits for a filter entry of the part's core files once one is free; the part's own first.
A posted `preq` goes on once it has filed. -/
def execFilterEntryFreeWake (p : PartRef) (s : State) : Out :=
  match s.ctxOf p.crew p.gang p.slice with
  | none => .next s
  | some x =>
    let c := s.core x.c.core
    let mine := fun (w : Waiter) => match w with | .part q => q == p | .preq q => q == p | .crewFrame k => k == p.crew | _ => false
    match c.held.find? (fun h => mine h.1) with
    | none => .next s
    | some h =>
      if 32 ≤ c.filter.length then .next s
      else
        let s1 := s.setCore x.c.core { c with held := c.held.eraseP (fun k => k == h) }
        let file := fun (t : State) (v : List Waiter) => h.2.foldl (fun (t : State) (r : Nat × Nat × BitVec 8 × Nat) =>
          t.filterRequest x.c.core r.1 r.2.1 r.2.2.1 r.2.2.2 v h.1) t
        match h.1, x.pageWait with
        | .crewFrame _, _ => .next (file s1 [h.1])
        | _, none => .next s1
        | _, some w =>
          let s2 := file s1 (if w.num = 3 then [] else [h.1])
          .next (if w.num = 3 ∧ !(s2.core x.c.core).held.any (fun k => k.1 == h.1) then s2.setGang p.crew p.gang (x.g.passWait x.mask) else s2)

/-! ### preq (R226) -/

/-- `preq`: each selected lane's page is walked; a page that is not present or in transition is requested. -/
def execPreq (d a : BitVec 6) (p : BitVec 3) (r q : BitVec 1) (s : State) : Out :=
  s.issue { vs := [(d, 1)], past := .waits } (fun x t =>
    match x.uslice with
    | none => .next (t.retireHere x)
    | some k =>
      let base := x.g.regs.getS2 k a.toNat
      let acc : Access := if r = 1 then .write else .read
      let lanes := (x.replayLanes 7).filter (fun i => x.g.regs.getP p.toNat i)
      let walk := lanes.foldl (fun (u : List (Nat × Fail × W64) × State) (i : Nat) =>
        let va := base + (x.g.regs.getV d.toNat i).setWidth 64
        let w := u.2.translate x.unit x.c.asid va acc
        match w.1 with
        | .error f => (u.1 ++ [(i, f, va)], w.2)
        | .ok _ => (u.1, w.2)) ([], t)
      let bad := walk.1.filter (fun b => match b.2.1 with | .fault _ => true | _ => false)
      if !bad.isEmpty then .next (walk.2.stopLanes x acc walk.1 [])
      else
        let u : Fail → BitVec 8 := fun f => 16 ||| (if r = 1 then 64 else 0) ||| (match f with | .transit _ => 32 | _ => 0)
        let pages := walk.1.map (fun b => (pageOf b.2.2, u b.2.1, b.2.1.leaf))
        let file := fun (v : State) (w : List Waiter) =>
          pages.foldl (fun (v : State) (g : Nat × BitVec 8 × Nat) => v.filterRequest x.c.core x.c.asid g.1 g.2.1 g.2.2 w (.preq x.ref)) v
        if pages.isEmpty then .next (walk.2.retireHere x)
        else
          let old := (walk.2.core x.c.core).filter
          let new := ((pages.map (·.1)).eraseDups).filter (fun g => !old.any (fun e => e.asid == x.c.asid && e.page == g))
          let full := !new.isEmpty && decide (32 < old.length + new.length)
          if q = 1 ∨ full then
            -- a full filter holds the part until an entry frees (R221)
            let v := walk.2.waitPart x 10 (if q = 1 then 2 else 3) (vaNat ((walk.1.head?.map (fun b => b.2.2)).getD 0))
            let waits := match v.gang? x.crew x.gang with | some g => (g.slice x.low).wait.isSome | none => false
            .next (if waits then file v (if q = 1 then [.preq x.ref] else []) else v)
          else .next ((file walk.2 []).retireHere x))

/-! ### tlbi and pkset (R218, R227) -/

/-- The part may issue privileged instructions: its crew is a service crew (22_system R434). -/
def Ctx.service (x : Ctx) : Bool := recService x.c.record

/-- Every access that parts have issued is performed at its home slice, and the reads of fills are bound (R218 step 2). -/
def State.drainAll (s : State) : State :=
  let t := (s.crews.foldl (fun (t : State) (p : Nat × Crew) => t.performCrew p.1) s).bindFills (fun _ => true)
  t.harts.foldl (fun (u : State) (p : Nat × Hart) => u.hartDue p.1 (fun _ => true)) t

/-- Dirty PV copies of a physical range are written to their home slices (R218). -/
def State.pvRange (s : State) (lo hi : Nat) : State :=
  s.cores.foldl (fun (t : State) (p : Nat × CoreState) =>
    (p.2.pv.filter (fun l => decide (lo ≤ l.1 * 128) && decide (l.1 * 128 < hi))).foldl (fun (t : State) (l : Nat × PvLine) =>
      t.pvClean p.1 l.1 (.gang l.2.crew 0 0)) t) s

/-- Drop translations, and descriptors, that a test names; what was done through them is performed first. -/
def State.invalidateTlb (s : State) (hit : TlbEntry → Bool) (desc : DescEntry → Bool) : State :=
  let s1 := s.drainAll
  let s2 := (s1.tlb.filter hit).foldl (fun (t : State) (e : TlbEntry) =>
    if e.kind = .pv ∧ e.peer = t.ports.devid then t.pvRange e.pa (e.pa + e.size) else t) s1
  { s2 with tlb := s2.tlb.filter (fun e => !hit e), descs := s2.descs.filter (fun d => !desc d) }

/-- The memory of a fill of a bank, or of a queued drain, of a Vintner's contexts: accesses that were translated and are not
performed (17_matrix R335, R340). -/
def Cluster.arraySpans (c : Cluster) : List Span :=
  let bank := fun (b : Bank) => if b.state = .filling ∧ !b.refill then b.spans else []
  bank c.bank0 ++ bank c.bank1 ++ c.vctx.flatMap (fun k => k.2.queue.flatMap (fun o =>
    match o with
    | .drain _ _ _ _ _ _ _ _ dest _ _ _ => dest.map (fun d => d.2.2)
    | _ => []))

/-- Some access of the array through a translation that a test names is not performed: a `tlbi` does not complete (R218 step 2). -/
def State.arrayBusy (s : State) (hit : TlbEntry → Bool) : Bool :=
  s.clusters.any (fun c => (s.tlb.filter hit).any (fun e => decide (e.unit = .vintner c.1) && c.2.arraySpans.any (fun p =>
    decide (p.peer.getD s.ports.devid = e.peer) && decide (p.pa < e.pa + e.size) && decide (e.pa < p.pa + p.len))))

/-- `tlbi` of each mode: it reads its operands once for the part, and waits until it completes. -/
def State.tlbi (s : State) (f : OpS) (hit : Nat → W64 → TlbEntry → Bool) (desc : Nat → DescEntry → Bool) (paged : Bool) : Out :=
  s.issue { past := .waits } (fun x t =>
    if !x.service then .next (t.takeTrap x { kind := .privilegedInstruction })
    else match x.uslice with
      | none => .next (t.retireHere x)
      | some k =>
        let asid := bitsAt (x.g.regs.getS k f.d.toNat) 0 16
        let va := x.g.regs.getS2 k f.a.toNat
        if paged && !canonical va then .next (t.takeTrapAt x { kind := .unmappedAddress } va (laneMask (x.lanes 7)))
        else
          let u := t.drain x.crew x.gang x.mask 7
          if u.moved x || u.arrayBusy (hit asid va) then .next u
          else .next ((u.invalidateTlb (hit asid va) (desc asid)).retireHere x))

/-- `tlbi` mode 0: the page that holds the address. -/
def execTlbiPage (f : OpS) (s : State) : Out :=
  s.tlbi f (fun asid va e => e.asid == asid && decide (e.base ≤ vaNat va) && decide (vaNat va < e.base + e.size)) (fun asid d => d.asid == asid) true

/-- `tlbi` mode 1: the whole ASID. -/
def execTlbiAsid (f : OpS) (s : State) : Out := s.tlbi f (fun asid _ e => e.asid == asid) (fun asid d => d.asid == asid) false

/-- `tlbi` mode 2: every ASID. -/
def execTlbiAll (f : OpS) (s : State) : Out := s.tlbi f (fun _ _ _ => true) (fun _ _ => true) false

/-- Waiters in transition on a physical page are woken with status 0: those of merge-stage entries and of filter entries (R222). -/
def State.wakeTransit (s : State) (pa : Nat) : State :=
  let here := fun (union : BitVec 8) (leaf : Nat) => union.getLsbD 5 && natBits (Memory.readNat s.mem leaf 16) 12 36 * 4096 == pa
  let merged := s.clusters.flatMap (fun p =>
    ((p.2.merge ++ p.2.mergeHeld).filter (fun e => here e.union e.leaf)).map (fun e => (e.asid, e.page, p.1)))
  let filed := s.cores.flatMap (fun p =>
    (p.2.filter.filter (fun e => here e.union e.leaf)).map (fun e => (e.asid, e.page, clusterOfCore p.1))
      ++ p.2.held.flatMap (fun h => (h.2.filter (fun r => here r.2.2.1 r.2.2.2)).map (fun r => (r.1, r.2.1, clusterOfCore p.1))))
  ((merged ++ filed).eraseDups).foldl (fun t e => t.wakeCluster e.1 e.2.1 0 e.2.2) s

/-- One piece of `pkset`: the entry is written at its home slice, and when it leaves transition, copies are recalled, which fires
watches, and waiters are woken (R218, 13_atomics R263). -/
def State.setAttr (s : State) (w : Writer) (die pa : Nat) (e : BitVec 16) : State :=
  let s1 := s.performNat .rc w ((s.die die).atbase.toNat + 2 * (pa / 4096)) 2 e.toNat
  if e.getLsbD 10 then s1
  else ((List.range 32).foldl (fun (t : State) (i : Nat) => (t.recallLine (pa / 128 + i)).fire (pa / 128 + i)) s1).wakeTransit pa

/-- `pkset` (R216, R218, R227). -/
def execPkset (d a : BitVec 6) (n : BitVec 8) (s : State) : Out :=
  s.issue { past := .waits } (fun x t =>
    if !x.service then .next (t.takeTrap x { kind := .privilegedInstruction })
    else match x.uslice with
      | none => .next (t.retireHere x)
      | some k =>
        let e : BitVec 16 := (x.g.regs.getS k d.toNat).setWidth 16
        let pa := (x.g.regs.getS2 k a.toNat).toNat
        let pieces := (List.range (n.toNat + 1)).map (fun j => pa + 4096 * j)
        let attr := fun (q : BitVec 16) => (q.extractLsb' 0 10).toNat
        let barred := pieces.any (fun q =>
          let old := t.attrOf x.die q
          !old.getLsbD 10 && !e.getLsbD 10 && attr old != attr e)
        if pa % 4096 ≠ 0 then .next (t.takeTrap x { kind := .misalignedData })
        else if dramEnd < pa + 4096 * (n.toNat + 1) then .next (t.takeTrap x { kind := .protection })
        else if bitsAt e 11 5 ≠ 0 ∨ !pairOk (bitsAt e 2 5) (bitsAt e 7 3) ∨ barred then .next (t.takeTrap x { kind := .malformedEntry })
        else
          let u := t.drain x.crew x.gang x.mask 7
          if u.moved x then .next u
          else .next ((pieces.foldl (fun (v : State) (q : Nat) => v.setAttr (.gang x.crew x.gang x.mask) x.die q e) u).retireHere x))

/-! ### Counters (R223, R224) -/

/-- COUNTER_HALVING: every counter halves; at or below the low threshold the queued mark is cleared. -/
def execCounterHalving (s : State) : Out :=
  .next { s with counters := s.counters.map (fun p =>
    let c := p.2
    let n := c.count / 2
    let low := ((s.die (homeOf (p.1 * 65536) / 64)).thresholds p.1).2
    (p.1, { count := n, queued := c.queued && decide (low < n), dies := 0, device := false })) }

/-- MIGRATION_NOTICE_WRITE: the first notice that waits, once the ring has room; a full ring sets its overflow bit. -/
def execMigrationNoticeWrite (die : Nat) (s : State) : Out :=
  let dn := die % 4
  let d := s.die dn
  match d.notices with
  | [] => .next s
  | (block, n, who) :: _ =>
    if ringFull d.mnqhead d.mnqtail 1024 then .next (s.setDie dn { d with mnqover := true })
    else
      let bs := natBytes 8 (n % 65536 + block * 65536) ++ natBytes 8 who.toNat
      let a := d.mnqbase.toNat + 16 * d.mnqtail
      let s1 := s.performBytes .rc (.unit (.cellarer dn)) (bs.mapIdx (fun i b => { addr := a + i, value := b, bits := 255 }))
      let d1 := s1.die dn
      .next (s1.setDie dn { d1 with mnqtail := (d.mnqtail + 1) % 1024, notices := d1.notices.drop 1 })

/-- SCRUB_ERROR (22_system R424, R425): an uncorrectable soft error found outside any access marks its line, and writes a
type-4 record. Every later read of the line faults; the reads of it that were under way take their values first. -/
def execScrubError (die pa : Nat) (s : State) : Out :=
  let line := lineOf (pa % dramEnd)
  let s1 := s.crews.foldl (fun (t : State) (p : Nat × Crew) => p.2.gangs.foldl (fun (t : State) (q : Nat × Gang) =>
    t.bindLoads p.1 q.1 (fun f => f.unread.any (fun a => lineOf a == line))) t) s
  let s2 := s1.bindFills (fun f => (spanLines f.spans).contains line)
  let s3 : State := { s2 with poisoned := if s2.poisoned.contains line then s2.poisoned else line :: s2.poisoned }
  .next (s3.pushFault (die % 4) { faultRec (causeCode 0 .uncorrectableData) 4 0 0 with va := BitVec.ofNat 64 (pa % dramEnd) })

end Sys2Proof.Machine
end

