-- ==== Sys2Proof/Machine/Window.lean ====
section
/-!
DEFINITION. The control space (22_system R430 to R433, 09_memory R197, 10_pages R225, 14_ordering R285, 18_engines R360,
24_ports R456): every register by its offset in a die's 16 MiB, read and written in 8-byte cells under a mask. A write
to a register that acts does what its rule says.
-/

namespace Sys2Proof.Machine

/-- A masked update of a value. -/
def masked {n : Nat} (old v m : BitVec n) : BitVec n := (old &&& ~~~ m) ||| (v &&& m)

/-- The low and the high word of a cell. -/
def loWord (v : W64) : W32 := v.extractLsb' 0 32
def hiWord (v : W64) : W32 := v.extractLsb' 32 32

/-- Two adjacent 32-bit registers, as one cell. -/
def cellOf (f : Nat → W32) (n : Nat) : W64 := pairOf (f n) (f (n + 1))

/-- A masked write of two adjacent 32-bit registers. -/
def cellPut (f : State → Nat → W32 → W32 → State) (s : State) (n : Nat) (v m : W64) : State :=
  let s1 := if loWord m = 0 then s else f s n (loWord v) (loWord m)
  if hiWord m = 0 then s1 else f s1 (n + 1) (hiWord v) (hiWord m)

/-- The state an action comes to; an action that does not answer one leaves the state. -/
def stateOf (o : Out) (s : State) : State := match o with | .next t => t | _ => s

/-! ### The system window (R431 to R433, R440) -/

/-- `SYSIRQ` (R432): a bit is 1 while its ring's head differs from its tail. -/
def Die.irq (d : Die) : W32 :=
  let b := fun (x : Bool) (n : Nat) => if x then BitVec.twoPow 32 n else (0 : W32)
  b (d.mbhead != d.mbtail) 0 ||| b (d.fqhead != d.fqtail) 1 ||| b (d.prqhead != d.prqtail) 2 ||| b (d.mnqhead != d.mnqtail) 3

/-- `CQSIZE` (R433). -/
def Die.cqsize (d : Die) : W32 := BitVec.ofNat 32 (d.cls2 + 256 * d.svc2 + 65536 * d.dev2 + 16777216 * d.tile2)

/-- A field of `CQSIZE` after a write: a value outside 5 to 20 keeps the old one. -/
def sizeField (old new : Nat) : Nat := if 5 ≤ new ∧ new ≤ 20 then new else old

/-- The bits of `DBGBP` that are not reserved (R440). -/
def dbgMask : BitVec 128 := BitVec.ofNat 128 (2 ^ 52 - 1 + (2 ^ 16 - 1) * 2 ^ 64)

/-- A half of a 16-byte register. -/
def half (x : BitVec 128) (hi : Bool) : W64 := if hi then x.extractLsb' 64 64 else x.extractLsb' 0 64

/-- A masked write of a half. -/
def putHalf (x : BitVec 128) (hi : Bool) (v m : W64) : BitVec 128 :=
  if hi then masked (x.extractLsb' 64 64) v m ++ x.extractLsb' 0 64 else x.extractLsb' 64 64 ++ masked (x.extractLsb' 0 64) v m

/-- Two ring indices in one cell. -/
def indices (head tail : Nat) : W64 := BitVec.ofNat 64 (head + tail * 2 ^ 32)

/-- A head after a masked write. -/
def newHead (old : Nat) (v m : W64) (bits : Nat) : Nat := bitsAt (masked (BitVec.ofNat 32 old) (loWord v) (loWord m)) 0 bits

/-- Read a cell of the system window. -/
def State.readSys (s : State) (dn off : Nat) : W64 :=
  let d := s.die dn
  if off = 0 then BitVec.ofNat 64 (0x2960 + 65536 + dn % 4 * 2 ^ 20 + s.ports.devid % 1024 * 2 ^ 22)
  else if off = 8 then d.irq.setWidth 64
  else if 0x10 ≤ off ∧ off < 0x50 then (SMap.getD d.sysie ((off - 0x10) / 8) 0).setWidth 64
  else if off = 0x100 then d.fqbase
  else if off = 0x108 then indices d.fqhead d.fqtail
  else if off = 0x200 then d.mbbase
  else if off = 0x208 then indices d.mbhead d.mbtail
  else if off = 0x300 then d.cqbase
  else if off = 0x308 then d.cqsize.setWidth 64
  else if off = 0x310 then d.fpbase
  else if off = 0x318 then d.fpcfg.setWidth 64
  else if 0x400 ≤ off ∧ off < 0x440 then half (SMap.getD d.dbgbp ((off - 0x400) / 16) 0) (off % 16 == 8)
  else if off = 0x500 then d.serrcnt.setWidth 64
  else 0

/-- A write of `TRES` word 1 acts (R428). -/
def State.tres (s : State) (dn : Nat) (w0 addr : W64) : State :=
  let tag := bitsAt w0 0 48
  if !redirectOk addr then s
  else match bitsAt w0 48 3 with
    | 0 => stateOf (execTresRetry dn tag s) s
    | 1 => stateOf (execTresSkip dn tag s) s
    | 2 => stateOf (execTresRedirect dn tag addr.toNat s) s
    | 3 => stateOf (execTresTerminate dn tag (w0.getLsbD 51) s) s
    | 4 => stateOf (execTresPark dn tag s) s
    | _ => s

/-- Write a cell of the system window. -/
def State.writeSys (s : State) (dn off : Nat) (v m : W64) : State :=
  let d := s.die dn
  if 0x10 ≤ off ∧ off < 0x50 then
    let c := (off - 0x10) / 8
    s.setDie dn { d with sysie := SMap.setD d.sysie c (masked (SMap.getD d.sysie c 0) (loWord v) (loWord m) &&& 15) 0 }
  else if off = 0x100 then s.setDie dn { d with fqbase := masked d.fqbase v m }
  else if off = 0x108 then (s.setDie dn { d with fqhead := newHead d.fqhead v m 10 }).flushFaults dn (d.faults.length + 1)
  else if off = 0x110 then s.setDie dn { d with tres0 := masked d.tres0 v m }
  else if off = 0x118 then s.tres dn d.tres0 (v &&& m)
  else if off = 0x200 then s.setDie dn { d with mbbase := masked d.mbbase v m }
  else if off = 0x208 then s.setDie dn { d with mbhead := newHead d.mbhead v m 9 }
  else if off = 0x210 then s.setDie dn { d with urep0 := masked d.urep0 v m }
  else if off = 0x218 then
    let tag := bitsAt d.urep0 0 48
    if d.urep0.getLsbD 48 then stateOf (execUreplyTerminate dn tag s) s else stateOf (execUreply dn tag (v &&& m) s) s
  else if off = 0x300 then s.setDie dn { d with cqbase := masked d.cqbase v m }
  else if off = 0x308 then
    let n := masked d.cqsize (loWord v) (loWord m)
    s.setDie dn { d with
      cls2 := sizeField d.cls2 (bitsAt n 0 5)
      svc2 := sizeField d.svc2 (bitsAt n 8 5)
      dev2 := sizeField d.dev2 (bitsAt n 16 5)
      tile2 := sizeField d.tile2 (bitsAt n 24 5) }
  else if off = 0x310 then s.setDie dn { d with fpbase := masked d.fpbase v m }
  else if off = 0x318 then s.setDie dn { d with fpcfg := masked d.fpcfg (loWord v) (loWord m) }
  else if 0x400 ≤ off ∧ off < 0x440 then
    let n := (off - 0x400) / 16
    s.setDie dn { d with dbgbp := SMap.setD d.dbgbp n (putHalf (SMap.getD d.dbgbp n 0) (off % 16 == 8) v m &&& dbgMask) 0 }
  else s

/-! ### The translation control window (10_pages R225) -/

/-- Read a cell of the translation control window. -/
def State.readTrans (s : State) (dn off : Nat) : W64 :=
  let d := s.die dn
  if off = 0x00 then d.asdbase
  else if off = 0x08 then d.atbase
  else if off = 0x10 then d.prqbase
  else if off = 0x18 then indices d.prqhead d.prqtail
  else if off = 0x30 then d.mnqbase
  else if off = 0x38 then indices d.mnqhead (d.mnqtail + if d.mnqover then 2 ^ 31 else 0)
  else if off = 0x40 then d.migth.setWidth 64
  else if 0x100 ≤ off ∧ off < 0x200 then half (SMap.getD d.migrg ((off - 0x100) / 16) 0) (off % 16 == 8)
  else 0

/-- The bits of `MIGRG` that are not reserved. -/
def migMask : BitVec 128 := BitVec.ofNat 128 (2 ^ 128 - 2 ^ 32 + 1)

/-- Write a cell of the translation control window. -/
def State.writeTrans (s : State) (dn off : Nat) (v m : W64) : State :=
  let d := s.die dn
  if off = 0x00 then s.setDie dn { d with asdbase := masked d.asdbase v m }
  else if off = 0x08 then s.setDie dn { d with atbase := masked d.atbase v m }
  else if off = 0x10 then s.setDie dn { d with prqbase := masked d.prqbase v m }
  else if off = 0x18 then s.setDie dn { d with prqhead := newHead d.prqhead v m 12 }
  else if off = 0x20 then s.setDie dn { d with pgres0 := masked d.pgres0 v m }
  else if off = 0x28 then s.pgres dn (bitsAt (v &&& m) 0 16) (bitsAt d.pgres0 12 40 * 4096) (bitsAt d.pgres0 56 8)
  else if off = 0x30 then s.setDie dn { d with mnqbase := masked d.mnqbase v m }
  else if off = 0x38 then s.setDie dn { d with mnqhead := newHead d.mnqhead v m 10, mnqover := d.mnqover && !(v &&& m).getLsbD 63 }
  else if off = 0x40 then s.setDie dn { d with migth := masked d.migth (loWord v) (loWord m) }
  else if 0x100 ≤ off ∧ off < 0x200 then
    let n := (off - 0x100) / 16
    s.setDie dn { d with migrg := SMap.setD d.migrg n (putHalf (SMap.getD d.migrg n 0) (off % 16 == 8) v m &&& migMask) 0 }
  else s

/-! ### The queue window (18_engines R360 to R364) -/

/-- Read a cell of the queue window. -/
def State.readQueueWin (s : State) (dn off : Nat) : W64 :=
  let d := s.die dn
  if off = 0 then BitVec.ofNat 64 d.schper
  else if 0x100 ≤ off ∧ off < 0x200 then cellOf (fun g => BitVec.ofNat 32 (d.share g)) ((off - 0x100) / 4)
  else if 0x200 ≤ off ∧ off < 0x400 then BitVec.ofNat 64 (d.use ((off - 0x200) / 8))
  else if 0x400 ≤ off ∧ off < 0x500 then cellOf (fun m => (s.group dn m).ctl) ((off - 0x400) / 4)
  else if 0x10000 ≤ off ∧ off < 0x20000 then
    let r : RingRef := { die := dn, group := (off - 0x10000) / 0x400, ring := off % 0x400 / 16 }
    let x := s.ring r
    if off % 16 = 0 then SMap.getD d.mgring0 (ringCode r) x.desc else BitVec.ofNat 64 (x.asid + if x.valid then 65536 else 0)
  else if 0x20000 ≤ off ∧ off < 0x20800 then (SMap.getD d.cursors ((off - 0x20000) / 32) 0).extractLsb' (8 * (off % 32)) 64
  else 0

/-- Write a cell of the queue window; only the firmware core writes all of it. -/
def State.writeQueueWin (s : State) (dn off : Nat) (v m : W64) (firmware : Bool) : Except FaultKind State :=
  let d := s.die dn
  if 0x400 ≤ off ∧ off < 0x500 then
    .ok (cellPut (fun t g v m => t.setGroup dn g { t.group dn g with ctl := masked (t.group dn g).ctl v m &&& 0xFF07 })
      s ((off - 0x400) / 4) v m)
  else if 0x10000 ≤ off ∧ off < 0x20000 then
    let r : RingRef := { die := dn, group := (off - 0x10000) / 0x400, ring := off % 0x400 / 16 }
    let x := s.ring r
    let low := SMap.getD d.mgring0 (ringCode r) x.desc
    if off % 16 = 0 then .ok (s.setDie dn { d with mgring0 := SMap.put d.mgring0 (ringCode r) (masked low v m) })
    else
      let h := masked (BitVec.ofNat 64 (x.asid + if x.valid then 65536 else 0)) v m
      .ok (s.registerRing r (bitsAt h 0 16) low (h.getLsbD 16))
  else if !firmware then .error .protection
  else if off = 0 then
    let p := bitsAt (masked (BitVec.ofNat 64 d.schper) v m) 0 5
    .ok (if 16 ≤ p ∧ p ≤ 24 then s.setDie dn { d with schper := p } else s)
  else if 0x100 ≤ off ∧ off < 0x200 then
    .ok (cellPut (fun t g v m =>
      let k := t.die dn
      t.setDie dn { k with gshare := SMap.setD k.gshare g (bitsAt (masked (BitVec.ofNat 32 (k.share g)) v m) 0 11) 0 }) s ((off - 0x100) / 4) v m)
  else if 0x20000 ≤ off ∧ off < 0x20800 then
    let n := (off - 0x20000) / 32
    let old := SMap.getD d.cursors n 0
    let sh := 8 * (off % 32)
    .ok (s.setDie dn { d with cursors := SMap.put d.cursors n (masked old ((v.setWidth 256) <<< sh) ((m.setWidth 256) <<< sh)) })
  else .ok s

/-! ### The port window (24_ports R456) -/

/-- TOUT of a port. -/
def State.tout (s : State) (n : Nat) : Nat := SMap.getD s.ports.tout n 10

/-- EN of a port. -/
def State.portEn (s : State) (n : Nat) : Bool := SMap.getD s.ports.en n false

/-- MODE of a port. -/
def State.portMode (s : State) (n : Nat) : Nat := SMap.getD s.ports.mode n 1

/-- `PORTCFG`(n). -/
def State.portCfg (s : State) (n : Nat) : W32 :=
  BitVec.ofNat 32 (s.portMode n + (if s.portEn n then 4 else 0) + s.tout n * 256 + if SMap.getD s.ports.up n false then 2 ^ 31 else 0)

/-- A write of `PORTCFG`(n): a port that is disabled has no link. -/
def State.putPortCfg (s : State) (n : Nat) (v m : W32) : State :=
  let new := masked (s.portCfg n) v m
  let t := bitsAt new 8 8
  let mode := bitsAt new 0 2
  let p := s.ports
  { s with ports := { p with
      tout := SMap.put p.tout n (if t = 0 then 10 else t)
      en := SMap.put p.en n (new.getLsbD 2)
      mode := if 2 ≤ n ∧ mode ≠ 3 then SMap.put p.mode n mode else p.mode
      up := if new.getLsbD 2 then p.up else SMap.put p.up n false } }

/-- Read a cell of the port window. -/
def State.readPort (s : State) (off : Nat) : W64 :=
  let p := s.ports
  if off < 0xA0 then (if off % 16 = 0 then (s.portCfg (off / 16)).setWidth 64 else 0)
  else if 0x1000 ≤ off ∧ off < 0x1400 then
    BitVec.ofNat 64 (bytesNat ((List.range 8).map (fun i => SMap.getD p.route (off - 0x1000 + i) 0)))
  else if 0x2000 ≤ off ∧ off < 0x2100 then
    let w := (off - 0x2000) / 32
    match off % 32 / 8 with
    | 0 => SMap.getD p.bus w 0
    | 1 => SMap.getD p.size w 0
    | 2 => SMap.getD p.vbase w 0
    | _ => BitVec.ofNat 64 (SMap.getD p.wasid w 0 + if SMap.getD p.wen w false then 65536 else 0)
  else if off = 0x3000 then BitVec.ofNat 64 p.storasid
  else if off = 0x3008 then BitVec.ofNat 64 (p.buddy + p.ckper.toNat * 2 ^ 32)
  else if off = 0x3010 then BitVec.ofNat 64 p.ckcut
  else if off = 0x3018 then p.wsmap
  else 0

/-- Write a cell of the port window. -/
def State.writePort (s : State) (off : Nat) (v m : W64) : State :=
  let p := s.ports
  if off < 0xA0 then (if off % 16 = 0 ∧ loWord m ≠ 0 then s.putPortCfg (off / 16) (loWord v) (loWord m) else s)
  else if 0x1000 ≤ off ∧ off < 0x1400 then
    let f := fun (r : SMap Byte) (i : Nat) =>
      if (m.extractLsb' (8 * i) 8) = 0 then r else SMap.setD r (off - 0x1000 + i) (v.extractLsb' (8 * i) 8) 0
    { s with ports := { p with route := (List.range 8).foldl f p.route } }
  else if 0x2000 ≤ off ∧ off < 0x2100 then
    let w := (off - 0x2000) / 32
    match off % 32 / 8 with
    | 0 => { s with ports := { p with bus := SMap.put p.bus w (masked (SMap.getD p.bus w 0) v m) } }
    | 1 => { s with ports := { p with size := SMap.put p.size w (masked (SMap.getD p.size w 0) v m) } }
    | 2 => { s with ports := { p with vbase := SMap.put p.vbase w (masked (SMap.getD p.vbase w 0) v m) } }
    | _ =>
      let new := masked (s.readPort off) v m
      let t : State := { s with ports := { p with wasid := SMap.put p.wasid w (bitsAt new 0 16), wen := SMap.put p.wen w (new.getLsbD 16) } }
      if new.getLsbD 16 then t.loadAsid .hostPort (bitsAt new 0 16) else t
  else if off = 0x3000 then
    let a := bitsAt (masked (BitVec.ofNat 64 p.storasid) v m) 0 16
    ({ s with ports := { p with storasid := a } } : State).loadAsid .storagePort a
  else if off = 0x3008 then
    let new := masked (s.readPort off) v m
    let per := hiWord new
    let ok := per == 0 || (decide (1000 ≤ per.toNat) && decide (per.toNat ≤ 600000))
    { s with ports := { p with buddy := bitsAt new 0 10, ckper := if ok then per else p.ckper } }
  else if off = 0x3018 then { s with ports := { p with wsmap := masked p.wsmap v m } }
  else s

/-! ### Home-slice windows (09_memory R197, 14_ordering R285) -/

/-- Read a cell of a slice's window; `HSOC` counts the lines that a guest owns (R198). -/
def State.readSlice (s : State) (h off : Nat) : W64 :=
  if off = 0 then (SMap.getD s.hsctl h 0).setWidth 64
  else if 0x100 ≤ off ∧ off < 0x200 then cellOf (fun g => SMap.getD s.hswm (64 * h + g) 0xFFFF) ((off - 0x100) / 4)
  else if 0x200 ≤ off ∧ off < 0x300 then cellOf (fun g => BitVec.ofNat 32 (s.ownedLines h g)) ((off - 0x200) / 4)
  else if off = 0x800 then SMap.getD s.hswsc h 0
  else 0

/-- Clearing CF of `HSWSC` clears COUNT and LINE (R285). -/
def State.clearWsc (s : State) (h : Nat) : State := { s with hswsc := SMap.erase s.hswsc h }

/-- Write a cell of a slice's window. -/
def State.writeSlice (s : State) (h off : Nat) (v m : W64) : State :=
  if off = 0 then { s with hsctl := SMap.setD s.hsctl h (masked (SMap.getD s.hsctl h 0) (loWord v) (loWord m) &&& 1) 0 }
  else if 0x100 ≤ off ∧ off < 0x200 then
    cellPut (fun t g v m => { t with
      hswm := SMap.setD t.hswm (64 * h + g) (masked (SMap.getD t.hswm (64 * h + g) 0xFFFF) v m &&& 0xFFFF) 0xFFFF }) s ((off - 0x100) / 4) v m
  else if off = 0x800 then (if (v &&& m).getLsbD 63 then s.clearWsc h else s)
  else s

/-- HSWSC_CLEAR (R285). -/
def execHswscClear (slice : Nat) (s : State) : Out := .next (s.clearWsc (slice % 256))

/-! ### The control space (R430) -/

/-- Read a cell of a die's control space. -/
def State.readCell (s : State) (dn off : Nat) : W64 :=
  if off < 0x10000 then s.readSys dn off
  else if off < 0x20000 then s.readTrans dn (off - 0x10000)
  else if 0x40000 ≤ off ∧ off < 0x80000 then s.readQueueWin dn (off - 0x40000)
  else if 0x80000 ≤ off ∧ off < 0x90000 then (if dn = 0 then s.readPort (off - 0x80000) else 0)
  else if 0x100000 ≤ off ∧ off < 0x200000 then s.readSlice ((off - 0x100000) / 0x1000) (off % 0x1000)
  else 0

/-- Write a cell of a die's control space. -/
def State.writeCell (s : State) (dn off : Nat) (v m : W64) (firmware : Bool) : Except FaultKind State :=
  if off < 0x10000 then .ok (s.writeSys dn off v m)
  else if off < 0x20000 then .ok (s.writeTrans dn (off - 0x10000) v m)
  else if 0x40000 ≤ off ∧ off < 0x80000 then s.writeQueueWin dn (off - 0x40000) v m firmware
  else if 0x80000 ≤ off ∧ off < 0x90000 then .ok (if dn = 0 then s.writePort (off - 0x80000) v m else s)
  else if 0x100000 ≤ off ∧ off < 0x200000 then .ok (s.writeSlice ((off - 0x100000) / 0x1000) (off % 0x1000) v m)
  else if 0x200000 ≤ off ∧ off < 0x201000 then
    .ok ((List.range 256).foldl (fun t h => t.writeSlice h (off - 0x200000) v m) s)
  else .ok s

/-- An access of a width and an offset that R430 admits. -/
def regAligned (off size : Nat) : Bool := (size == 4 || size == 8) && off % size == 0

/-- Read a register of a die: a value of `size` bytes. -/
def State.regRead (s : State) (dn off size : Nat) : W64 :=
  let v := s.readCell dn (off / 8 * 8) >>> (8 * (off % 8))
  if size = 4 then v &&& 0xFFFFFFFF else v

/-- Write a register of a die. -/
def State.regWrite (s : State) (dn off size : Nat) (v : W64) (firmware : Bool) : Except FaultKind State :=
  let sh := 8 * (off % 8)
  let m : W64 := if size = 4 then 0xFFFFFFFF <<< sh else BitVec.allOnes 64
  s.writeCell dn (off / 8 * 8) (v <<< sh) m firmware

/-- The die and the offset of a physical address of the control space; none above the four dies' spaces. -/
def controlAt (pa : Nat) : Option (Nat × Nat) :=
  let o := pa - 0xFFF000000000
  if o < 4 * 2 ^ 24 then some (o / 2 ^ 24, o % 2 ^ 24) else none

/-- The offset lies in the queue window, the one that the firmware core writes (R431, R443, 18_engines R360, 09_memory R197). -/
def inQueueWin (off : Nat) : Bool := decide (0x40000 ≤ off) && decide (off < 0x80000)

/-- REGISTER_WRITE (R430): a resident core, or the firmware core, writes a register. A width, an alignment or a register that
the writer does not have changes nothing here: the core's own exception is the RISC-V side's. -/
def execRegisterWrite (writer : RegWriter) (off size : Nat) (value : BitVec 64) (s : State) : Out :=
  if regAligned off size ∧ off < 2 ^ 24 ∧ (writer.firmware → inQueueWin off) then
    match s.regWrite (writer.die % 4) off size value writer.firmware with
    | .ok t => .next t
    | .error _ => .next s
  else .next s

end Sys2Proof.Machine
end

