-- ==== Sys2Proof/Machine/Memory.lean ====
section
/-!
DEFINITION. What every memory instruction of a part does (09_memory_access R187 to R196): where a lane's access lies, what
it waits for, what a load reads and which copies it leaves, how a store's bytes are merged and buffered, and the stop on
lanes that do not translate.
-/

namespace Sys2Proof.Machine

/-- Scale and policy of a kind-3 hint (R66). -/
def Ctx.scale (x : Ctx) : Nat := match x.hint 3 with | some p => 2 ^ (p % 8) | none => 1
def Ctx.policy (x : Ctx) : Nat := match x.hint 3 with | some p => p / 8 | none => 0

/-- The address of lane i in format M (R190). -/
def Ctx.laneBase (x : Ctx) (sb : BitVec 5) (i : Nat) : W64 := x.g.regs.getS2 (i / 4) (2 * sb.toNat)
def Ctx.laneIndex (x : Ctx) (v : BitVec 6) (i : Nat) : Nat := (x.g.regs.getV v.toNat i).toNat * x.scale

/-- The writer that a part is (14_ordering R284). -/
def Ctx.writer (x : Ctx) : Writer := .gang x.crew x.gang x.mask

/-! ### Where a lane's access lies -/

/-- What an access to translated pieces meets: the control space (22_system R430), a lost route or an address outside the
DRAM of another module (24_ports R453), what came of a remote access that the part waited for (R455), a marked line
(22_system R424). -/
def State.pieceFault (s : State) (x : Ctx) (acc : Access) (n : Nat) (ps : List Piece) : Option FaultKind :=
  if ps.any (fun p => p.1.control) then
    if !recService x.c.record ∨ acc = .atomic then some .protection
    else if ps.length = 1 ∧ (n = 4 ∨ n = 8) ∧ ps.all (fun p => p.1.pa % n == 0) then none
    else some .misalignedData
  else if ps.any (fun p => p.1.remote && !s.routeValid p.1.peer) then some .peerLost
  else if acc = .write then none
  else if ps.any (fun p => p.1.remote && decide (dramEnd ≤ p.1.pa)) then some .unsupportedRequest
  else if ps.any (fun p => p.1.away) ∧ (x.g.slice x.low).remote = 2 then some .completionTimeout
  else if ps.any (fun p => p.1.away) ∧ (x.g.slice x.low).remote = 3 then some .unsupportedRequest
  else if s.poisonedIn ps then some .uncorrectableData
  else none

/-- Translate the bytes of a lane's access (R191). -/
def State.place (s : State) (x : Ctx) (acc : Access) (va : W64) (n : Nat) : Except (Fail × W64) (List Piece) × State :=
  let r := s.translateSpan x.unit x.c.asid va n acc (n / 4096 + 2)
  match r.1 with
  | .error e => (.error e, r.2)
  | .ok ps =>
    match r.2.pieceFault x acc n ps with
    | some k => (.error (.fault k, va), r.2)
    | none => (.ok ps, r.2)

/-- The attributes that the page of an address gives an access (R202); nothing is read or written there. -/
def State.attrsAt (s : State) (x : Ctx) (acc : Access) (va : W64) : Except Fail Page := (s.translate x.unit x.c.asid va acc).1

/-- The pages besides the reported one that keep lanes from being performed (R194, 10_pages R221): each failed lane's range. -/
def State.misses (s : State) (x : Ctx) (acc : Access) (l : List (W64 × Nat)) : List (W64 × Fail) :=
  l.flatMap (fun p => s.spanMisses x.unit x.c.asid p.1 p.2 acc (p.2 / 4096 + 2))

/-! ### Reading -/

/-- A read must wait for a store that the part has buffered: of a common byte, of the same module or bus, or SC before SC
(14_ordering R277, R282, R283). -/
def BufEntry.beforeRead (e : BufEntry) (ps : List Piece) : Bool :=
  (e.op.sc && ps.any (fun p => decide (p.1.kind = .sc)))
    || (match e.op with
        | .remote (some m) _ _ => ps.any (fun p => p.1.remote && p.1.peer == m)
        | .remote none _ _ => ps.any (fun p => p.1.away && !p.1.remote)
        | o => (pieceBytes ps).any (fun q => q.1.local && o.addrs.contains q.2))

/-- Some buffered store of the part must be performed before a read. -/
def Ctx.hazard (x : Ctx) (ps : List Piece) : Bool :=
  x.g.buffer.any (fun e => (e.slices &&& x.mask) != 0 && e.beforeRead ps)

/-- The stores that a read waits for are performed; a fence that stands before them completes first. -/
def State.clearHazard (s : State) (x : Ctx) (ps : List Piece) : State :=
  (s.completeFence x.crew x.gang x.mask).performDue x.crew x.gang x.mask (fun e => e.beforeRead ps)

/-- The lines of a read join the speculation set of a full or acquire fence that the part runs past; none when they do
not fit (R268). -/
def State.speculate (s : State) (x : Ctx) (lines : List Nat) : Option State :=
  match s.gang? x.crew x.gang with
  | none => some s
  | some g =>
    let mine := fun (f : Fence) => (f.slices &&& x.mask) != 0 && f.kind != 2
    if g.fences.any (fun f => mine f && decide (64 < (f.lines ++ lines).eraseDups.length)) then none
    else if g.fences.any mine then
      some (s.setGang x.crew x.gang { g with
        fences := g.fences.map (fun f => if mine f then { f with lines := (f.lines ++ lines).eraseDups } else f) })
    else some s

/-- The full or acquire fence that the part runs past. -/
def Ctx.runningFence (x : Ctx) : Option Nat :=
  (x.g.fences.find? (fun f => (f.slices &&& x.mask) != 0 && f.kind != 2)).map (·.id)

/-- What a read of pieces waits for: a buffered store, room in a speculation set; none when it waits for nothing. -/
def State.readHold (s : State) (x : Ctx) (ps : List Piece) : Option State :=
  if x.hazard ps then some (s.clearHazard x ps)
  else match s.speculate x ((linesIn ps).map (·.1)) with
    | none => some (s.completeFence x.crew x.gang x.mask)
    | some _ => none

/-- A read of pieces that takes its value now comes after the part's earlier reads of a common byte, by loads in flight and by
fills (R283, 12_tiles R244). -/
def State.readOrder (s : State) (x : Ctx) (ps : List Piece) : State :=
  let here := ((pieceBytes ps).filter (fun q => q.1.local)).map (·.2)
  (s.bindLoads x.crew x.gang (fun f => (f.slices &&& x.mask) != 0 && f.unread.any (fun a => here.contains a))).bindFills
    (fun f => f.ofPart x.crew x.gang x.mask && here.any f.unread)

/-- What a read of pieces leaves behind. A PV line that the core holds clean is read from its copy under policy 3 too, which
never changes a value (R196; notes/assumptions/70). -/
def State.readLeaves (s : State) (x : Ctx) (policy : Nat) (ps : List Piece) : State :=
  let s1 := (s.speculate x ((linesIn ps).map (·.1))).getD s
  ((linesIn ps).foldl (fun t l => t.touchLine x.c.core x.crew x.writer policy l) s1).spent ps

/-! ### Loads -/

/-- What a lane's load comes to: the range it reads, its pieces, and the register value with its flags, or why there is
none; and how its bytes are bound when its data come later. -/
structure LaneRead where
  lane : Nat
  range : Option (W64 × Nat) := none
  pieces : List Piece
  value : Except (Fail × W64) (Nat × Nat)
  fly : Option FlightLane := none

/-- The lane found a page not present, and nothing worse (R193). -/
def LaneRead.absent (r : LaneRead) : Bool :=
  match r.value with
  | .error (.notPresent _, _) => true
  | _ => false

/-- The lane stops (R194): its failure is not that of R193. -/
def LaneRead.bad (r : LaneRead) : Option (Nat × Fail × W64) :=
  match r.value with
  | .ok _ => none
  | .error (.notPresent _, _) => none
  | .error (f, va) => some (r.lane, f, va)

/-- Plan every lane in increasing order. -/
def planLanes {α : Type} (plan : State → Nat → α × State) (s : State) : List Nat → List α × State
  | [] => ([], s)
  | i :: t =>
    let r := plan s i
    let q := planLanes plan r.2 t
    (r.1 :: q.1, q.2)

/-- An access is one event: naturally aligned, of up to 128 bits (R191). -/
def oneEvent (va : W64) (n : Nat) : Bool := (n == 1 || n == 2 || n == 4 || n == 8 || n == 16) && vaNat va % n == 0

/-- A lane of a load in flight over pieces. -/
def flyLane (lane : Nat) (va : W64) (n : Nat) (ps : List Piece) : FlightLane :=
  { lane := lane, va := va, whole := oneEvent va n
    bytes := (pieceBytes ps).map (fun q => { addr := q.2, kind := q.1.kind, away := q.1.place }) }

/-- The lane's data come later: every lane's when the turn says so, and those of another module or a bus. -/
def LaneRead.later (late : Bool) (r : LaneRead) : Bool :=
  r.fly.isSome && (late || r.pieces.any (fun p => p.1.away))

/-- A load goes into flight over lanes; while some of its bytes lie outside this module, or on an SC page, no later
instruction of the part issues. -/
def State.launchFlight (s : State) (x : Ctx) (dest : FlightDest) (lanes : List FlightLane) : State :=
  if lanes.isEmpty then s
  else match s.gang? x.crew x.gang with
    | none => s
    | some g =>
      let f : Flight :=
        { id := s.serial, slices := x.mask, dest := dest, lanes := lanes, start := x.start, len := x.len, past := x.runningFence
          holds := lanes.any (fun l => l.bytes.any (fun b => b.away.isSome || decide (b.kind = .sc))) }
      (s.setGang x.crew x.gang { g with loads := g.loads ++ [f] }).nextSerial

/-- Lanes keep the part at the instruction, which it issues again for them; each is given with its address. -/
def State.keepReplay (s : State) (x : Ctx) (lanes : List (Nat × W64)) : State :=
  match s.gang? x.crew x.gang with
  | some g =>
    let low := (lanes.map (fun b => vaNat b.2)).foldl min (2 ^ 52)
    s.setGang x.crew x.gang { g.mapSlices x.part (fun _ sl => { sl with pc := x.start, hints := [] }) with
      replay := SMap.put g.replay x.low (laneMask (lanes.map (·.1)), BitVec.ofNat 64 low) }
  | none => s

/-- A load of lanes (R193, R194): values go to the lanes that translate, zero to those whose page is not present, the flag
predicate to both and to `others`; the remaining lanes stop. Data that come later are in flight, and go to their
destination when they arrive. -/
def State.loadLanes (s : State) (x : Ctx) (lanes others : List Nat) (flag : BitVec 3) (dest : FlightDest)
    (plan : State → Nat → LaneRead × State) (put : Regs → Nat → Nat → Regs) : Out :=
  let r := planLanes plan s lanes
  let ps := r.1.flatMap (·.pieces)
  let good := r.1.filter (fun q => q.bad.isNone)
  let bads := r.1.filterMap (·.bad)
  let late := s.late.isSome
  let now := good.filter (fun q => !q.later late)
  let fly := (good.filter (fun q => q.later late)).filterMap (·.fly)
  if now.any (fun q => q.pieces.any (fun p => p.1.away)) && (x.g.slice x.low).remote == 0 then .next (r.2.waitPart x 3 1 0)
  else match r.2.readHold x ps with
    | some t => .next t
    | none =>
      let s1 := (r.2.readOrder x (now.flatMap (·.pieces))).readLeaves x x.policy ps
      if s1.moved x then .next s1
      else
        let write := fun (q : Regs) =>
          let q1 := now.foldl (fun a l => put a l.lane (match l.value with | .ok v => v.1 | .error _ => 0)) q
          let q2 := q1.writeP flag.toNat (fun _ => false) others
          good.foldl (fun a l => a.setP flag.toNat l.lane l.absent) q2
        let flags := orFlags (now.map (fun l => match l.value with | .ok v => v.2 | .error _ => 0))
        let s2 := match s1.gang? x.crew x.gang with
          | some g => s1.setGang x.crew x.gang ({ g with regs := write g.regs }.raise x.mask (BitVec.ofNat 32 flags))
          | none => s1
        let s3 := s2.launchFlight x dest fly
        if bads.isEmpty then .next (s3.retireHere x)
        else if fly.any (fun l => l.bytes.any (fun b => b.away.isSome)) then .next (s3.keepReplay x (bads.map (fun b => (b.1, b.2.2))))
        else .next (s3.stopLanes x .read bads (s3.misses x .read (r.1.filterMap (fun q => q.bad.bind (fun _ => q.range)))))

/-- Read `n` bytes for a lane, unchanged (R200). -/
def State.readPlain (s : State) (x : Ctx) (n : Nat) (addr : Nat → W64) (i : Nat) : LaneRead × State :=
  let va := addr i
  let r := s.place x .read va n
  match r.1 with
  | .error e => ({ lane := i, range := some (va, n), pieces := [], value := .error e }, r.2)
  | .ok ps =>
    let data : LaneRead :=
      { lane := i, pieces := ps, value := .ok (bytesNat (r.2.coreData x.c.core ps), 0), fly := some (flyLane i va n ps) }
    match ps with
    | [(p, _)] =>
      if p.control then
        match controlAt p.pa with
        | some (dn, off) =>
          ({ lane := i, pieces := [], value := .ok ((r.2.regRead dn off n).toNat % 2 ^ (8 * n), 0) }, r.2)
        | none => ({ lane := i, pieces := [], value := .ok (0, 0) }, r.2)
      else (data, r.2)
    | _ => (data, r.2)

/-! ### Stores -/

/-- What a lane's store comes to: its range, and its bytes with their pages and its flags, or why there are none. -/
structure LaneWrite where
  lane : Nat
  va : W64
  size : Nat := 0
  writes : Except (Fail × W64) (List (Page × ByteWrite) × Nat)

/-- The bytes of a lane that translates. -/
def LaneWrite.bytes (w : LaneWrite) : List (Page × ByteWrite) := match w.writes with | .ok b => b.1 | .error _ => []

/-- What is left of a masked write where later ones of the same byte stand (R192, R204). -/
def ByteWrite.under (b : ByteWrite) (later : List ByteWrite) : Option ByteWrite :=
  let gone := later.foldl (fun m c => if c.addr = b.addr then m ||| c.bits else m) 0
  let bits := b.bits &&& ~~~ gone
  if bits = 0 then none else some { b with bits := bits }

/-- The zero bytes that fill a line whole, but for the bytes that lanes write (R200). -/
def fillLine (line : Nat) (taken : List Nat) : List ByteWrite :=
  ((List.range 128).map (line * 128 + ·)).filterMap (fun a =>
    if taken.contains a then none else some { addr := a, value := 0, bits := 255 })

/-- What a store puts into the buffer for bytes of one page kind. -/
def storeOp (policy : Nat) (k : Kind) (bs : List ByteWrite) : BufOp :=
  match k with
  | .pv => if policy = 3 then .through bs else .write .pv bs
  | k => .write k bs

/-- The entries of one lane's access: line by line and kind by kind, each one event if the access is one (R191, R276). -/
def laneEntries (x : Ctx) (policy stamp : Nat) (one : Bool) (bs : List (Kind × ByteWrite)) : List BufEntry :=
  let keys := (bs.map (fun b => (b.1, lineOf b.2.addr))).eraseDups
  keys.map (fun k =>
    { slices := x.mask, scope := x.scope, policy := policy, whole := one, stamp := stamp
      op := storeOp policy k.1 ((bs.filter (fun b => decide (b.1 = k.1) && lineOf b.2.addr == k.2)).map (·.2)) })

/-- The entries of the lanes of a store: a byte that several lanes write is left to the highest one (R192). -/
def lanesEntries (x : Ctx) (policy stamp : Nat) (done : List LaneWrite) : List LaneWrite → List BufEntry
  | [] => []
  | w :: t =>
    let later := (t ++ done.filter (fun d => decide (w.lane < d.lane))).flatMap (fun d => d.bytes.map (·.2))
    let own := w.bytes.filterMap (fun q =>
      if q.1.local then (q.2.under later).map (fun b => (q.1.kind, b)) else none)
    laneEntries x policy stamp (oneEvent w.va w.size) own ++ lanesEntries x policy stamp done t

/-- The entries of a store's bytes outside this module: one per module, and one for the buses. -/
def awayEntries (x : Ctx) (policy stamp : Nat) (ws : List LaneWrite) : List BufEntry :=
  let all := ws.flatMap (fun w => (w.bytes.filter (fun q => q.1.away)).map (fun q => (q.1.place.getD none, q.2.addr, w.va)))
  ((all.map (·.1)).eraseDups).filterMap (fun m => (all.find? (fun q => decide (q.1 = m))).map (fun q =>
    { slices := x.mask, scope := x.scope, policy := policy, stamp := stamp, op := .remote m q.2.1 q.2.2 }))

/-- The zero fill of the lines that lanes write, but for the lines that lanes performed before a restart wrote (R200). -/
def fillEntries (x : Ctx) (policy stamp : Nat) (done ws : List LaneWrite) : List BufEntry :=
  let bytes := fun (l : List LaneWrite) => (l.flatMap (·.bytes)).filter (fun q => q.1.local)
  let taken := (bytes (ws ++ done)).map (fun q => q.2.addr)
  let old := (bytes done).map (fun q => lineOf q.2.addr)
  let new := ((bytes ws).map (fun q => (q.1.kind, lineOf q.2.addr))).eraseDups
  (new.filter (fun l => !old.contains l.2)).map (fun l =>
    { slices := x.mask, scope := x.scope, policy := policy, whole := false, stamp := stamp
      op := storeOp policy l.1 (fillLine l.2 taken) })

/-- The entries that a store instruction puts into the buffer; `done` are the lanes performed before a restart (R195). -/
def storeEntries (x : Ctx) (policy stamp : Nat) (fl : Bool) (done ws : List LaneWrite) : List BufEntry :=
  (if fl then fillEntries x policy stamp done ws else []) ++ lanesEntries x policy stamp done ws ++ awayEntries x policy stamp ws

/-- Entries join the store buffer of the gang. -/
def State.buffered (s : State) (x : Ctx) (es : List BufEntry) : State :=
  match s.gang? x.crew x.gang with
  | some g => s.setGang x.crew x.gang { g with buffer := g.buffer ++ es }
  | none => s

/-- Write a lane's bytes to the control space (22_system R430). -/
def State.controlWrite (s : State) (bs : List (Page × ByteWrite)) : Except FaultKind State :=
  match bs with
  | [] => .ok s
  | (p, _) :: _ =>
    match controlAt p.pa with
    | some (dn, off) => s.regWrite dn off bs.length (BitVec.ofNat 64 (bytesNat (bs.map (fun q => q.2.value)))) false
    | none => .ok s

/-- Write the lanes that reach the control space, in increasing order; a lane that is refused stops. -/
def State.controlLanes (s : State) : List LaneWrite → List (Nat × Fail × W64) × State
  | [] => ([], s)
  | w :: t =>
    if w.bytes.any (fun q => q.1.control) then
      match s.controlWrite w.bytes with
      | .ok s1 => s1.controlLanes t
      | .error k =>
        let q := s.controlLanes t
        ((w.lane, .fault k, w.va) :: q.1, q.2)
    else s.controlLanes t

/-- A store of lanes (R194): the lanes that translate enter the store buffer, those of the control space act, the others
stop. `done` are the lanes that the instruction performed before a restart (R195); `fl` asks for whole lines (R200). -/
def State.storeLanes (s : State) (x : Ctx) (lanes : List Nat) (fl : Bool) (done : List LaneWrite)
    (plan : State → Nat → LaneWrite × State) : Out :=
  let r := planLanes plan s lanes
  let all := r.1.flatMap (·.bytes)
  let pvLines := ((all.filter (fun q => q.1.local && decide (q.1.kind = .pv))).map (fun q => lineOf q.2.addr)).eraseDups
  let control := all.any (fun q => q.1.control)
  -- a write of the control space goes behind the part's earlier stores; a PV line is first written back
  let first := fun (e : BufEntry) => control || ((fl || x.policy == 3) && e.op.addrs.any (fun a => pvLines.contains (lineOf a)))
  if x.g.buffer.any (fun e => (e.slices &&& x.mask) != 0 && first e) then
    .next ((r.2.completeFence x.crew x.gang x.mask).performDue x.crew x.gang x.mask first)
  else
    let s1 := if fl || x.policy == 3 then pvLines.foldl (fun t l => t.pvClean x.c.core l x.writer) r.2 else r.2
    let c := s1.controlLanes r.1
    if c.2.moved x then .next c.2
    else
      let failed := r.1.filterMap (fun w => match w.writes with | .ok _ => none | .error e => some (w.lane, e))
      let bads := lanes.filterMap (fun i => (failed ++ c.1).find? (fun b => b.1 == i))
      let good := r.1.filter (fun w => match w.writes with | .ok _ => true | .error _ => false)
      let flags := orFlags (good.map (fun w => match w.writes with | .ok b => b.2 | .error _ => 0))
      let s2 := match c.2.gang? x.crew x.gang with
        | some g => c.2.setGang x.crew x.gang (g.raise x.mask (BitVec.ofNat 32 flags))
        | none => c.2
      let s3 := s2.buffered x (storeEntries x x.policy s2.serial fl done good)
      let spans := r.1.filterMap (fun w => match w.writes with | .ok _ => none | .error _ => some (w.va, w.size))
      .next (if bads.isEmpty then s3.retireHere x else s3.stopLanes x .write bads (s3.misses x .write spans))

/-- Write bytes for a lane, unchanged (R200). -/
def State.writePlain (s : State) (x : Ctx) (n : Nat) (addr : Nat → W64) (val : Nat → Nat) (i : Nat) : LaneWrite × State :=
  let r := s.place x .write (addr i) n
  match r.1 with
  | .error e => ({ lane := i, va := addr i, size := n, writes := .error e }, r.2)
  | .ok ps => ({ lane := i, va := addr i, size := n, writes := .ok (pieceWrites ps (natBytes n (val i)), 0) }, r.2)

/-- The lanes that an instruction performed before a restart: all active lanes but those of the replay mask. -/
def State.doneLanes (s : State) (all lanes : List Nat) (plan : State → Nat → LaneWrite × State) : List LaneWrite :=
  (planLanes plan s (all.filter (fun i => !lanes.contains i))).1

/-! ### A unit's uniform access (R205) -/

/-- A stop of the part as a whole: it has one lane (R206); `more` as for lanes. -/
def State.stopUniform (s : State) (x : Ctx) (acc : Access) (f : Fail) (va : W64) (more : List (W64 × Fail) := []) : State :=
  match f with
  | .fault k => s.takeTrapAt x { kind := k } va (laneMask (x.lanes 7))
  | _ => s.requestPages x false ((va, f, acc) :: more.map (fun m => (m.1, m.2, acc)))

/-! ### HOME_SLICE_WRITE -/

/-- A buffered write may be performed: nothing of its part that must come first is left undone (R268, R282, R283). -/
def State.mayPerform (s : State) (crew gang : Nat) (g : Gang) (e : BufEntry) (earlier : List BufEntry) : Bool :=
  earlier.all (fun q => !e.behind q) && g.loads.all (fun f => !e.afterLoad f)
    && s.fills.all (fun f => !e.afterFill crew gang f)

/-- The events of an entry: one, or one for each of its bytes (R276). -/
def BufEntry.events (e : BufEntry) : List (BufEntry × Option BufEntry) :=
  let each := fun (bs : List ByteWrite) (mk : List ByteWrite → BufOp) =>
    bs.mapIdx (fun i b =>
      let rest := bs.eraseIdx i
      ({ e with op := mk [b] }, if rest.isEmpty then none else some { e with op := mk rest }))
  if e.whole then [(e, none)]
  else match e.op with
    | .write k bs => each bs (.write k)
    | .through bs => each bs .through
    | _ => [(e, none)]

/-- The event of a number: what stands before it, what it performs, and the buffer after it. An SC access performs its
bytes in order. -/
def takeEvent (earlier : List BufEntry) : List BufEntry → Nat → Option (List BufEntry × BufEntry × List BufEntry)
  | [], _ => none
  | e :: t, n =>
    let evs := e.events
    let k := if e.op.sc then 1 else evs.length
    if n < k then
      (evs[n]?).map (fun v => (earlier, v.1, earlier ++ (match v.2 with | some r => r :: t | none => t)))
    else takeEvent (earlier ++ [e]) t (n - k)

/-- HOME_SLICE_WRITE: an event of a gang's store buffer is performed (R187, R250, R292). -/
def execHomeSliceWrite (crew gang idx : Nat) (s : State) : Out :=
  match s.gang? crew gang with
  | none => .next s
  | some g =>
    match takeEvent [] g.buffer idx with
    | none => .next s
    | some (earlier, e, rest) =>
      match e.op with
      | .fence _ => .next s
      | _ =>
        if s.mayPerform crew gang g e earlier then .next ((s.setGang crew gang { g with buffer := rest }).performEntry crew gang e)
        else .next s

end Sys2Proof.Machine
end

