-- ==== Sys2Proof/Machine/LoadStore.lean ====
section
/-!
DEFINITION. The memory instructions (09_memory_access): `ld`, `st`, `lde`, `ste`, and the uniform, line and compressing
access of major 0x20.
-/

namespace Sys2Proof.Machine

/-- The byte address of a lane in format M (R190). -/
def Ctx.laneAddr (x : Ctx) (f : OpM) (i : Nat) : W64 := x.laneBase f.sb i + BitVec.ofNat 64 (x.laneIndex f.x i)

/-- `ld` (R200). -/
def execLd (f : OpM) (s : State) : Out :=
  let w := f.w.toNat
  s.issue { guard := f.g, vs := [(f.x, 1), (f.t, widthRegs w)], records := true, ss := some [(2 * f.sb.toNat, 2)] } (fun x t =>
    t.loadLanes x (x.replayLanes f.g.toNat) [] f.f (.plain f.t.toNat w) (fun u i => u.readPlain x (2 ^ w) (x.laneAddr f) i) (putWidth w f.t.toNat))

/-- `st` (R200). -/
def execSt (f : OpM) (s : State) : Out :=
  let w := f.w.toNat
  s.issue { guard := f.g, vs := [(f.x, 1), (f.t, widthRegs w)], records := true, ss := some [(2 * f.sb.toNat, 2)] } (fun x t =>
    let lanes := x.replayLanes f.g.toNat
    let plan := fun (u : State) (i : Nat) => u.writePlain x (2 ^ w) (x.laneAddr f) (getWidth w f.t.toNat x.g.regs) i
    t.storeLanes x lanes (f.f == 1) (t.doneLanes (x.lanes f.g.toNat) lanes plan) plan)

/-! ### Decoding access (R201 to R204) -/

/-- The format and geometry of a kind-6 hint. -/
def Ctx.fmtHint (x : Ctx) : Option (Nat × Nat) := (x.hint 6).map (fun p => (p % 32, p / 32 % 8))

/-- The format and geometry that locate and decode: a hint's, or those of the base's page (R202). The page of the base is looked
up with the access of the instruction, and stops it as a page of the element does (notes/assumptions/71). -/
def State.formatOf (s : State) (x : Ctx) (acc : Access) (base : W64) : Except (Fail × W64) (Nat × Nat) :=
  match x.fmtHint with
  | some p => .ok p
  | none => match s.attrsAt x acc base with
    | .ok p => .ok (p.fmt, p.geo)
    | .error f => .error (f, base)

/-- A base meets the requirement of a format (R202). -/
def baseOk (fmt : Nat) (base : W64) : Bool :=
  if blockFormat fmt then vaNat base % unitBytes == 0
  else if fmt = 0 then true
  else vaNat base % max 1 (elemBits fmt / 8) == 0

/-- The element's pages carry the format, or a hint applies; a block format needs pages of a unit at least (R202, R203). -/
def Ctx.formatFits (x : Ctx) (fmt geo : Nat) (ps : List Piece) : Bool :=
  (x.fmtHint.isSome || ps.all (fun p => p.1.fmt == fmt && p.1.geo == geo))
    && (!blockFormat fmt || ps.all (fun p => decide (unitBytes ≤ p.1.size)))

/-- The byte offset and length of a linear element; `raw` is the size of the register type, for format 0 (R202). -/
def linearSpan (fmt raw e : Nat) : Nat × Nat :=
  if fmt = 0 then (e * raw, raw) else (e * elemBits fmt / 8, max 1 (elemBits fmt / 8))

/-- The N of the unit at the base, for stripes (R202); 0 for the other geometries. -/
def State.baseN (s : State) (x : Ctx) (geo : Nat) (base : W64) : Except (Fail × W64) (Nat × List Piece) × State :=
  if geo ≠ 3 then (.ok (0, []), s)
  else
    let r := s.place x .read (base + BitVec.ofNat 64 dataBytes) 16
    match r.1 with
    | .error e => (.error e, r.2)
    | .ok ps =>
      let bs := r.2.coreData x.c.core ps
      match unitN (fun o => bs.getD (o - dataBytes) 0) 0 with
      | some n => (.ok (n, ps), r.2)
      | none => (.error (.fault .malformedBlock, base), r.2)

/-- Read element e of a block region for a lane (R202, R203). -/
def State.readBlock (s : State) (x : Ctx) (t : RegType) (fmt geo : Nat) (base : W64) (e i : Nat) : LaneRead × State :=
  let h := s.baseN x geo base
  match h.1 with
  | .error err => ({ lane := i, pieces := [], value := .error err }, h.2)
  | .ok (n, hps) =>
    let b := blockSpot fmt geo n e
    let va := base + BitVec.ofNat 64 (b.unit * unitBytes + b.data + (if geo = 3 then 0 else b.bit / 8))
    let r := h.2.place x .read va 1
    match r.1 with
    | .error err => ({ lane := i, pieces := hps, value := .error err }, r.2)
    | .ok ps =>
      if !x.formatFits fmt geo ps then ({ lane := i, pieces := hps, value := .error (.fault .formatMismatch, va) }, r.2)
      else
        match ps with
        | (p, _) :: _ =>
          let first := p.pa - vaNat va % unitBytes
          let rd := fun (o : Nat) => r.2.coreByte x.c.core p (first + (o - b.unit * unitBytes))
          let all := hps ++ (blockRanges fmt geo n rd b).map (fun q => ({ p with pa := first + q.1 }, q.2))
          if r.2.poisonedIn all then ({ lane := i, pieces := all, value := .error (.fault .uncorrectableData, va) }, r.2)
          else
            match blockElem fmt geo n rd e with
            | some v => ({ lane := i, pieces := all, value := .ok (convert t {} v) }, r.2)
            | none => ({ lane := i, pieces := all, value := .error (.fault .malformedBlock, va) }, r.2)
        | [] => ({ lane := i, pieces := hps, value := .error (.fault .malformedBlock, va) }, r.2)

/-- Read element e for a lane of `lde` (R203). -/
def State.readElem (s : State) (x : Ctx) (t : RegType) (base : W64) (e i : Nat) : LaneRead × State :=
  match s.formatOf x .read base with
  | .error err => ({ lane := i, pieces := [], value := .error err }, s)
  | .ok (fmt, geo) =>
    if !baseOk fmt base then ({ lane := i, pieces := [], value := .error (.fault .misalignedData, base) }, s)
    else if blockFormat fmt then s.readBlock x t fmt geo base e i
    else
      let span := linearSpan fmt (t.bits / 8) e
      let va := base + BitVec.ofNat 64 span.1
      let r := s.readPlain x span.2 (fun _ => va) i
      match r.1.value with
      | .error _ => r
      | .ok (v, _) =>
        if !x.formatFits fmt geo r.1.pieces then ({ r.1 with value := .error (.fault .formatMismatch, va) }, r.2)
        else if fmt = 0 then r
        else
          let code := if elemBits fmt < 8 then natBits v (e % 2 * 4) 4 else v
          ({ r.1 with
            value := .ok (convert t {} (linearValue fmt code))
            fly := r.1.fly.map (fun l => { l with fmt := fmt, half := e % 2 }) }, r.2)

/-- `lde` (R203). -/
def execLde (f : OpM) (s : State) : Out :=
  let ty := memType f.w.toNat
  s.issue { guard := f.g, vs := [(f.x, 1), (f.t, if ty.wide then 2 else 1)], records := true, ss := some [(2 * f.sb.toNat, 2)] } (fun x t =>
    t.loadLanes x (x.replayLanes f.g.toNat) [] f.f (.decoded f.t.toNat f.w.toNat)
      (fun u i => u.readElem x ty (x.laneBase f.sb i) (x.laneIndex f.x i) i) (putType ty f.t.toNat))

/-- Write element e for a lane of `ste` (R204). -/
def State.writeElem (s : State) (x : Ctx) (t : RegType) (base : W64) (e v i : Nat) : LaneWrite × State :=
  match s.formatOf x .write base with
  | .error err => ({ lane := i, va := base, size := 1, writes := .error err }, s)
  | .ok (fmt, geo) =>
    let span := linearSpan fmt (t.bits / 8) e
    let va := base + BitVec.ofNat 64 span.1
    let lane := fun (at_ : W64) (w : Except (Fail × W64) (List (Page × ByteWrite) × Nat)) =>
      ({ lane := i, va := at_, size := span.2, writes := w } : LaneWrite)
    if blockFormat fmt then (lane base (.error (.fault .formatMismatch, base)), s)
    else if !baseOk fmt base then (lane base (.error (.fault .misalignedData, base)), s)
    else
      let r := s.place x .write va span.2
      match r.1 with
      | .error err => (lane va (.error err), r.2)
      | .ok ps =>
        if !x.formatFits fmt geo ps then (lane va (.error (.fault .formatMismatch, va)), r.2)
        else if fmt = 0 then (lane va (.ok (pieceWrites ps (natBytes span.2 v), 0)), r.2)
        else
          let c := linearCode fmt x.rnd (t.source x.rnd v)
          if elemBits fmt < 8 then
            let half := e % 2 * 4
            let ws := (pieceBytes ps).map (fun q =>
              (q.1, ({ addr := q.2, value := BitVec.ofNat 8 (c.1 * 2 ^ half), bits := BitVec.ofNat 8 (15 * 2 ^ half) } : ByteWrite)))
            (lane va (.ok (ws, c.2)), r.2)
          else (lane va (.ok (pieceWrites ps (natBytes span.2 c.1), c.2)), r.2)

/-- `ste` (R204). -/
def execSte (f : OpM) (s : State) : Out :=
  let ty := memType f.w.toNat
  s.issue { guard := f.g, vs := [(f.x, 1), (f.t, if ty.wide then 2 else 1)], records := true, ss := some [(2 * f.sb.toNat, 2)] } (fun x t =>
    let lanes := x.replayLanes f.g.toNat
    let plan := fun (u : State) (i : Nat) =>
      u.writeElem x ty (x.laneBase f.sb i) (x.laneIndex f.x i) (getType ty f.t.toNat x.g.regs i) i
    t.storeLanes x lanes (f.f == 1) (t.doneLanes (x.lanes f.g.toNat) lanes plan) plan)

/-! ### Major 0x20 (R205 to R209) -/

/-- The base of an instruction of major 0x20, from the lowest-numbered slice with an active lane (R190). -/
def Ctx.ubase (x : Ctx) (k : Nat) (a : BitVec 6) : W64 := x.g.regs.getS2 k a.toNat

/-- What `lds` writes: the value in every slice of the part, and the flag predicate in every active lane (R193, R206). -/
def Ctx.putUniform (x : Ctx) (d : BitVec 6) (f : BitVec 3) (w : BitVec 2) (v : Option Nat) (absent : Bool) (q : Regs) : Regs :=
  let q1 := match v with
    | none => q
    | some n =>
      if w = 3 then q.writeS2 d.toNat (fun _ => BitVec.ofNat 64 n) x.part
      else q.writeS d.toNat (fun _ => BitVec.ofNat 32 n) x.part
  q1.writeP f.toNat (fun _ => absent) (x.lanes 7)

/-- `lds` (R206): the part is the single lane of the load. -/
def execLds (d a : BitVec 6) (f : BitVec 3) (w : BitVec 2) (s : State) : Out :=
  s.issue { records := true, ss := some [(a.toNat, 2), (d.toNat, widthRegs w.toNat)] } (fun x t =>
    match x.uslice with
    | none => .next (t.retireHere x)
    | some k =>
      let n := 2 ^ w.toNat
      let r := t.readPlain x n (fun _ => x.ubase k a) 0
      match r.2.readHold x r.1.pieces with
      | some u => .next u
      | none =>
        match r.1.bad with
        | some (_, fail, va) =>
          .next (r.2.stopUniform x .read fail va (r.2.misses x .read [(x.ubase k a, n)]))
        | none =>
          let later := r.1.later t.late.isSome
          let s1 := (if later then r.2 else r.2.readOrder x r.1.pieces).readLeaves x x.policy r.1.pieces
          if s1.moved x then .next s1
          else
            let v := match r.1.value with | .ok q => q.1 | .error _ => 0
            let s2 := s1.launchFlight x (.uniform d.toNat w.toNat) (if later then r.1.fly.toList else [])
            .next (s2.retireRegs x (x.putUniform d f w (if later then none else some v) r.1.absent)))

/-- The selected lanes of `cst` and `exld`, in order (R209). -/
def Ctx.prefLanes (x : Ctx) (p : BitVec 3) : List Nat := (x.lanes 7).filter (x.g.regs.getP p.toNat)

/-- The position of a lane among the selected ones. -/
def Ctx.position (x : Ctx) (p : BitVec 3) (i : Nat) : Nat := (x.prefLanes p).idxOf i

/-- Selected lanes that a restart still has to perform (R195). -/
def Ctx.replaySelected (x : Ctx) (p : BitVec 3) : List Nat := (x.replayLanes 7).filter (x.g.regs.getP p.toNat)

/-- The address of a selected lane. -/
def Ctx.packedAddr (x : Ctx) (k : Nat) (a : BitVec 6) (p : BitVec 3) (n i : Nat) : W64 :=
  x.ubase k a + BitVec.ofNat 64 (x.position p i * n)

/-- `cst` (R209). -/
def execCst (d a : BitVec 6) (p : BitVec 3) (w : BitVec 2) (s : State) : Out :=
  let n := 2 ^ w.toNat
  s.issue { vs := [(d, widthRegs w.toNat)], records := true, ss := some [(a.toNat, 2)] } (fun x t =>
    match x.uslice with
    | none => .next (t.retireHere x)
    | some k =>
      let plan := fun (u : State) (i : Nat) => u.writePlain x n (x.packedAddr k a p n) (getWidth w.toNat d.toNat x.g.regs) i
      t.storeLanes x (x.replaySelected p) false (t.doneLanes (x.prefLanes p) (x.replaySelected p) plan) plan)

/-- `exld` (R209): on a first issue the flag of a lane that is not selected becomes 0. -/
def execExld (d a : BitVec 6) (f p : BitVec 3) (w : BitVec 2) (s : State) : Out :=
  let n := 2 ^ w.toNat
  s.issue { vs := [(d, widthRegs w.toNat)], records := true, ss := some [(a.toNat, 2)] } (fun x t =>
    match x.uslice with
    | none => .next (t.retireHere x)
    | some k =>
      let others := match SMap.find x.g.replay x.low with
        | some _ => []
        | none => (x.lanes 7).filter (fun i => !x.g.regs.getP p.toNat i)
      t.loadLanes x (x.replaySelected p) others f (.plain d.toNat w.toNat) (fun u i => u.readPlain x n (x.packedAddr k a p n) i)
        (putWidth w.toNat d.toNat))

/-- The lines of a range: the pages of those that are mapped and present, or the first check that fails (R208). -/
def State.rangePages (s : State) (x : Ctx) (write : Bool) : List W64 → Except (Fail × W64) (List Page) × State
  | [] => (.ok [], s)
  | va :: t =>
    let denied := write && (match (s.translate x.unit x.c.asid va .write).1 with
      | .error f => decide (f = .fault .protection)
      | .ok _ => false)
    let r := s.translate x.unit x.c.asid va .read
    let rest := fun (ps : List Page) (u : State) =>
      let q := u.rangePages x write t
      match q.1 with
      | .ok l => (Except.ok (ps ++ l), q.2)
      | .error e => (Except.error e, q.2)
    if denied then (.error (.fault .protection, va), s)
    else match r.1 with
      | .ok p => rest [p] r.2
      | .error (.notPresent _) => rest [] r.2
      | .error (.fault .unmappedAddress) => rest [] r.2
      | .error f => (.error (f, va), r.2)

/-- What the part has issued for lines is performed: its reads of them and its buffered stores to them. -/
def State.settleLines (s : State) (x : Ctx) (lines : List Nat) : State :=
  (s.bindLoads x.crew x.gang (fun f => (f.slices &&& x.mask) != 0 && f.unread.any (fun a => lines.contains (lineOf a)))).performDue
    x.crew x.gang x.mask (fun e => e.op.addrs.any (fun a => lines.contains (lineOf a)))

/-- A line operation of a part (R208): every mapped page is checked first, what the part has issued for the lines is
performed, and then each line of a present page is acted on. -/
def State.lineOp (s : State) (a : BitVec 6) (i : BitVec 8) (write : Bool) (act : Ctx → State → Page → State) : Out :=
  s.issue { past := .waits, records := true, ss := some [(a.toNat, 2)] } (fun x t =>
    match x.uslice with
    | none => .next (t.retireHere x)
    | some k =>
      let first := BitVec.ofNat 64 ((x.ubase k a).toNat / 128 * 128)
      let r := t.rangePages x write ((List.range (i.toNat + 1)).map (fun j => first + BitVec.ofNat 64 (128 * j)))
      match r.1 with
      | .error e => .next (r.2.stopUniform x (if write then .write else .read) e.1 e.2)
      | .ok ps =>
        let lines := (ps.filter Page.local).map (fun p => lineOf p.pa)
        .next ((ps.foldl (act x) (r.2.settleLines x lines)).retireHere x))

/-- Write back a dirty PV copy of a line and keep it clean. -/
def cleanLine (x : Ctx) (s : State) (p : Page) : State :=
  if p.local && decide (p.kind = .pv) then s.pvClean x.c.core (lineOf p.pa) x.writer else s

/-- Drop the core's copy of a line: the eviction rolls back the parts of the core that read it past a fence (13_atomics
R269). -/
def dropLine (x : Ctx) (s : State) (p : Page) : State :=
  if p.local then (s.dropCopy x.c.core (lineOf p.pa)).disturbCore x.c.core (lineOf p.pa) none else s

/-- `lclean` (R208). -/
def execLclean (a : BitVec 6) (i : BitVec 8) (s : State) : Out := s.lineOp a i false cleanLine

/-- `lflush` (R208): the home slice and the DRAM behind it are one memory here, so the write to DRAM changes nothing. -/
def execLflush (a : BitVec 6) (i : BitVec 8) (s : State) : Out := s.lineOp a i false cleanLine

/-- `linv` (R208). -/
def execLinv (a : BitVec 6) (i : BitVec 8) (s : State) : Out := s.lineOp a i true dropLine

/-- `pf` (R207): lines come toward the core as the policy says; nothing architected changes, so the walks leave no trace. -/
def execPf (d a : BitVec 6) (w : BitVec 1) (s : State) : Out :=
  s.issue { vs := [(d, 1)], past := .waits, records := true, ss := some [(a.toNat, 2)] } (fun x t =>
    match x.uslice with
    | none => .next (t.retireHere x)
    | some k =>
      let fetch := fun (u : State) (i : Nat) =>
        let va := x.ubase k a + BitVec.ofNat 64 (x.laneIndex d i)
        match u.attrsAt x (if w = 1 then .write else .read) va with
        | .ok p => if p.local then u.touchLine x.c.core x.crew x.writer x.policy (lineOf p.pa, p.kind) else u
        | .error _ => u
      .next (((x.lanes 7).foldl fetch t).retireHere x))

end Sys2Proof.Machine
end

