-- ==== Sys2Proof/Machine/Tile.lean ====
section
/-!
DEFINITION. The tile class (12_tiles, 17_matrix R342): handles and views, the tile and accumulator storage behind a handle,
the instructions of majors 0x21 to 0x23, and the completion of a fill.

Tile storage is reached byte by byte: an accumulator tile is one whose bytes are those of its FP32 elements.
-/

namespace Sys2Proof.Machine

/-! ### Storage behind a handle -/

/-- The storage a handle names (R231): a core tile of a crew, a cluster tile by its key, an accumulator. -/
inductive Slot where
  | core (crew index : Nat)
  | cluster (cl key : Nat)
  | acc (cl index : Nat)
deriving DecidableEq, Repr

/-- The tile of a slot. -/
def State.tileOf (s : State) : Slot → Option Tile
  | .core c n => match s.crew? c with | some k => SMap.find k.tiles n | none => none
  | .cluster cl n => SMap.find (s.cluster cl).tiles n
  | .acc _ _ => none

/-- Store or free the tile of a slot. -/
def State.setTile (s : State) (q : Slot) (t : Option Tile) : State :=
  let put := fun (m : SMap Tile) (n : Nat) => match t with | some x => SMap.put m n x | none => SMap.erase m n
  match q with
  | .core c n => match s.crew? c with | some k => s.setCrew c { k with tiles := put k.tiles n } | none => s
  | .cluster cl n => let c := s.cluster cl; s.setCluster cl { c with tiles := put c.tiles n }
  | .acc _ _ => s

/-- The accumulator of a slot. -/
def State.accOf (s : State) : Slot → Option Acc
  | .acc cl n => SMap.find (s.cluster cl).accs n
  | _ => none

/-- An element of an accumulator: before the queued zeroing, one that nothing has written is a free value
(notes/assumptions/13). -/
def Acc.elem (a : Acc) (e : Nat) : W32 :=
  match SMap.find a.data e with
  | some v => v
  | none => match a.stale with | some n => Config.staleElement n e | none => 0

/-- Write an element of an accumulator. -/
def Acc.setElem (a : Acc) (e : Nat) (v : W32) : Acc :=
  { a with data := match a.stale with | some _ => SMap.put a.data e v | none => SMap.setD a.data e v 0 }

/-- Bytes of a slot (R233, 17_matrix R326). -/
def State.slotSize (s : State) (q : Slot) : Nat :=
  match s.tileOf q, s.accOf q with
  | some t, _ => 2 ^ t.k * 1024
  | none, some a => a.blocks * 65536
  | none, none => 0

/-- The element format of a slot: an accumulator holds FP32. -/
def State.slotFmt (s : State) (q : Slot) : Nat := match s.tileOf q with | some t => t.fmt | none => 2

/-- A byte of a slot. -/
def State.slotByte (s : State) (q : Slot) (o : Nat) : Byte :=
  match s.tileOf q, s.accOf q with
  | some t, _ => SMap.getD t.data o 0
  | none, some a => (a.elem (o / 4)).extractLsb' (8 * (o % 4)) 8
  | none, none => 0

/-- A masked write of a byte of a slot. -/
def State.slotPut (s : State) (q : Slot) (w : ByteWrite) : State :=
  let new := mergeByte (s.slotByte q w.addr) w
  match s.tileOf q, s.accOf q, q with
  | some t, _, _ => s.setTile q (some { t with data := SMap.setD t.data w.addr new 0 })
  | none, some a, .acc cl n =>
    let c := s.cluster cl
    let shift := 8 * (w.addr % 4)
    let old := a.elem (w.addr / 4)
    let v := (old &&& ~~~ (0xFF#32 <<< shift)) ||| (new.setWidth 32 <<< shift)
    s.setCluster cl { c with accs := SMap.put c.accs n (a.setElem (w.addr / 4) v) }
  | _, _, _ => s

/-- Masked writes of bytes of a slot, in order. -/
def State.slotWrites (s : State) (q : Slot) (ws : List ByteWrite) : State := ws.foldl (fun t w => t.slotPut q w) s

/-- Fills of a slot that are accepted and not performed. -/
def State.slotPending (s : State) (q : Slot) : Bool := match s.tileOf q with | some t => t.pending != 0 | none => false

/-- An execution has read a slot: its count falls, and the last read frees the tile (R239). -/
def State.slotRead (s : State) (q : Slot) : State :=
  match s.tileOf q with
  | some t =>
    if t.reads = 0 then s else s.setTile q (if t.reads = 1 then none else some { t with reads := t.reads - 1 })
  | none => s

/-! ### Views (R234, R235) -/

/-- A view: three `s` registers of a slice's copy, and the fourth. -/
structure View where
  handle : Nat
  mode : Nat
  base : Nat
  stride0 : Int
  stride1 : Int
  stride2 : Int
  zero : Bool
  fourth : W32

/-- The view that field a names in a slice. -/
def Ctx.view (x : Ctx) (slice : Nat) (a : BitVec 6) : View :=
  let n := a.toNat / 4 * 4
  let r := fun (j : Nat) => x.g.regs.getS slice (n + j)
  { handle := bitsAt (r 0) 0 12, mode := bitsAt (r 0) 12 4, base := bitsAt (r 0) 16 16
    stride0 := readInt 16 true (bitsAt (r 1) 0 16), stride1 := readInt 16 true (bitsAt (r 1) 16 16)
    stride2 := readInt 16 true (bitsAt (r 2) 0 16), zero := bitsAt (r 2) 16 16 == 0, fourth := r 3 }

/-- Level and index of a handle (R231). -/
def View.level (v : View) : Nat := natBits v.handle 10 2
def View.index (v : View) : Nat := natBits v.handle 0 10

/-- The element index of a coordinate (R235). -/
def View.elem (v : View) (c : W32) : Int :=
  (v.base : Int) + (bitsAt c 0 12 : Int) * v.stride0 + (bitsAt c 12 10 : Int) * v.stride1 + (bitsAt c 22 10 : Int) * v.stride2

/-- The slot of a core or cluster handle of a crew. -/
def Ctx.slot (x : Ctx) (v : View) : Slot :=
  if v.level = 0 then .core x.crew v.index else .cluster (clusterOfCore x.c.core) (1024 * x.c.asid + v.index)

/-- The slot a view names; a reserved bit, a level that the form does not reach, a free handle or another mode is an
illegal handle (R231, R233, R234). An accumulator has no mode. -/
def State.viewSlot (s : State) (x : Ctx) (v : View) (accs : Bool) : Except FaultKind Slot :=
  if !v.zero then .error .illegalHandle
  else if v.level ≤ 1 then
    match s.tileOf (x.slot v) with
    | some t => if t.mode = v.mode then .ok (x.slot v) else .error .illegalHandle
    | none => .error .illegalHandle
  else if v.level = 3 then
    match s.acc? (clusterOfCore x.c.core) x.c.asid v.handle with
    | some a =>
      if accs ∧ a.token = some x.crew then .ok (.acc (clusterOfCore x.c.core) v.index) else .error .accumulatorToken
    | none => .error .illegalHandle
  else .error .illegalHandle

/-! ### How a part stops at a tile instruction -/

/-- Why a tile instruction does not act. -/
inductive TileStop where
  | trap (k : FaultKind) (va : W64)
  | pages (acc : Access) (l : List (W64 × Fail))
  | fill (operand : Nat)
  | token (handle id : Nat)
  | hold (ps : List Piece)

/-- The part stops. -/
def State.tileStop (s : State) (x : Ctx) : TileStop → State
  | .trap k va => s.takeTrapAt x { kind := k } va (laneMask (x.lanes 7))
  | .pages acc l => s.requestPages x false (l.map (fun p => (p.1, p.2, acc)))
  | .fill h => s.waitPart x 3 2 h
  | .token h n => s.waitPart x 13 n h
  | .hold ps => s.clearHazard x ps

/-- The lowest slice of each distinct operand set among the slices with an active lane, with the slices that hold it
(R246). -/
def operandSets (x : Ctx) (key : Nat → List W32) : List (Nat × List Nat) :=
  let live := ((x.lanes 7).map (· / 4)).eraseDups
  (live.filter (fun k => live.all (fun j => k ≤ j || key j != key k))).map
    (fun k => (k, live.filter (fun j => key j == key k)))

/-- Perform once per operand set, in order; a stop leaves everything undone. -/
def runSets (act : State → Nat → List Nat → Except TileStop State) (s : State) : List (Nat × List Nat) → Except TileStop State
  | [] => .ok s
  | (k, ks) :: t =>
    match act s k ks with
    | .error e => .error e
    | .ok s1 => runSets act s1 t

/-- A slice minor of major 0x21 (R246): all of it, or a stop. -/
def State.sliceOp (s : State) (key : Ctx → Nat → List W32) (act : Ctx → State → Nat → List Nat → Except TileStop State) : Out :=
  s.issue { past := .waits, records := true } (fun x t =>
    match runSets (act x) t (operandSets x (key x)) with
    | .ok t1 => .next (t1.retireHere x)
    | .error e => .next (t.tileStop x e))

/-- Write an `s` register in slices of the gang as it stands. -/
def State.putS (s : State) (x : Ctx) (d : BitVec 6) (v : W32) (ks : List Nat) : State :=
  match s.gang? x.crew x.gang with
  | some g => s.setGang x.crew x.gang { g with regs := g.regs.writeS d.toNat (fun _ => v) ks }
  | none => s

/-! ### Major 0x21 (R236 to R238, R246) -/

/-- Banks are lacking for a tile of 2^k banks at a level (R236). -/
def State.banksLack (s : State) (core level k : Nat) : Bool :=
  if level = 0 then decide (512 < s.banksUsed core + 2 ^ k)
  else (List.range 8).any (fun j => decide (512 < s.banksUsed (clusterOfCore core * 8 + j) + 2 ^ (k - 3)))

/-- Table entries are lacking (R232). -/
def State.entriesLack (s : State) (core level : Nat) : Bool :=
  if level = 0 then decide (1024 ≤ s.entriesUsed core) else decide (4096 ≤ (s.cluster (clusterOfCore core)).tiles.length)

/-- `talloc` (R236, R246). -/
def execTalloc (d a b : BitVec 6) (s : State) : Out :=
  s.sliceOp (fun x k => [0, 1, 2].map (fun j => x.g.regs.getS k (a.toNat + j)) ++ [x.g.regs.getS k b.toNat]) (fun x t k ks =>
    let v := x.view k a
    let e := x.g.regs.getS k b.toNat
    let n := bitsAt e 0 4
    let fmt := bitsAt e 4 5
    let kOk := if v.level = 0 then decide (n ≤ 9) else decide (3 ≤ n) && decide (n ≤ 12)
    if !v.zero ∨ 1 < v.level ∨ bitsAt e 9 23 ≠ 0 ∨ !kOk ∨ 9 < fmt ∨ (t.tileOf (x.slot v)).isSome then .error (.trap .illegalHandle 0)
    else
      let status := if t.banksLack x.c.core v.level n then 1 else if t.entriesLack x.c.core v.level then 2 else 0
      let tile : Tile := { id := t.serial, k := n, fmt := fmt, mode := v.mode, data := [], reads := 0, pending := 0, filled := false }
      let t1 := if status = 0 then (t.setTile (x.slot v) (some tile)).nextSerial else t
      .ok (t1.putS x d (BitVec.ofNat 32 status) ks))

/-- The operand of a wait for a fill: the handle. -/
def View.waitOperand (v : View) : Nat := v.handle

/-- The tile of a view of a slice minor; its level is core or cluster. -/
def State.sliceTile (s : State) (x : Ctx) (v : View) : Except TileStop Slot :=
  if 1 < v.level then .error (.trap .illegalHandle 0)
  else match s.viewSlot x v false with
    | .ok q => .ok q
    | .error k => .error (.trap k 0)

/-- `tfree` (R246). -/
def execTfree (a : BitVec 6) (s : State) : Out :=
  s.sliceOp (fun x k => [0, 1, 2].map (fun j => x.g.regs.getS k (a.toNat + j))) (fun x t k _ =>
    let v := x.view k a
    match t.sliceTile x v with
    | .error e => .error e
    | .ok q => if t.slotPending q then .error (.fill v.waitOperand) else .ok (t.setTile q none))

/-- Translate every page of a range: the pieces, with the failures page by page. -/
def State.sweep (s : State) (x : Ctx) (acc : Access) : List (W64 × Nat) → (List Piece × List (W64 × Fail)) × State
  | [] => (([], []), s)
  | (va, n) :: t =>
    let r := s.translate x.unit x.c.asid va acc
    let q := r.2.sweep x acc t
    match r.1 with
    | .ok p => (((p, n) :: q.1.1, q.1.2), q.2)
    | .error f => ((q.1.1, (va, f) :: q.1.2), q.2)

/-- The 4 KiB pages of a range, each with the bytes of the range on it. -/
def pagesOf (va : W64) (n : Nat) : List (W64 × Nat) :=
  let head := min n (4096 - vaNat va % 4096)
  (va, head) :: (List.range ((n - head + 4095) / 4096)).map (fun j =>
    (va + BitVec.ofNat 64 (head + 4096 * j), min 4096 (n - head - 4096 * j)))

/-- The whole of a tile in memory: its pieces, or how the part stops (R237, R194). -/
def State.tileRange (s : State) (x : Ctx) (acc : Access) (va : W64) (n : Nat) : Except TileStop (List Piece) × State :=
  let r := s.sweep x acc (pagesOf va n)
  let faults := r.1.2.filterMap (fun p => match p.2 with | .fault k => some (k, p.1) | _ => none)
  match faults with
  | (k, at_) :: _ => (.error (.trap k at_), r.2)
  | [] =>
    if !r.1.2.isEmpty then (.error (.pages acc r.1.2), r.2)
    else match r.2.pieceFault x acc n r.1.1 with
      | some k => (.error (.trap k va), r.2)
      | none => (.ok r.1.1, r.2)

/-- A piece as a span of a fill. -/
def spanOf (p : Piece) : Span :=
  { pa := p.1.pa, len := p.2, peer := if p.1.remote then some p.1.peer else none, pv := decide (p.1.kind = .pv) && p.1.local }

/-- `tfill` (R237). -/
def execTfill (d a b : BitVec 6) (s : State) : Out :=
  s.sliceOp (fun x k => [0, 1, 2].map (fun j => x.g.regs.getS k (a.toNat + j))
      ++ [x.g.regs.getS k d.toNat, x.g.regs.getS k (d.toNat + 1), x.g.regs.getS k b.toNat]) (fun x t k _ =>
    let v := x.view k a
    let va := x.g.regs.getS2 k d.toNat
    let c := x.g.regs.getS k b.toNat
    match t.sliceTile x v with
    | .error e => .error e
    | .ok q =>
      if bitsAt c 16 16 ≠ 0 then .error (.trap .illegalHandle 0)
      else if vaNat va % 128 ≠ 0 then .error (.trap .misalignedData va)
      else
        let r := t.tileRange x .read va (t.slotSize q)
        match r.1 with
        | .error e => .error e
        | .ok ps =>
          if x.hazard ps then .error (.hold ps)
          else
            let f : Fill :=
              { part := some (x.crew, x.gang, x.mask), stamp := r.2.serial
                crew := match q with | .core n _ => some n | _ => none, cluster := clusterOfCore x.c.core
                key := match q with | .core _ n => n | .cluster _ n => n | .acc _ n => n
                reads := bitsAt c 0 16, core := some x.c.core, spans := ps.map spanOf }
            let t1 := match r.2.tileOf q with
              | some tl => r.2.setTile q (some { tl with pending := tl.pending + 1 })
              | none => r.2
            .ok ({ t1 with fills := t1.fills ++ [f] } : State).nextSerial)

/-- `tflush` (R246): the tile's bytes go to the store buffer, as stores of the part. -/
def execTflush (d a : BitVec 6) (s : State) : Out :=
  s.sliceOp (fun x k => [0, 1, 2].map (fun j => x.g.regs.getS k (a.toNat + j))
      ++ [x.g.regs.getS k d.toNat, x.g.regs.getS k (d.toNat + 1)]) (fun x t k _ =>
    let v := x.view k a
    let va := x.g.regs.getS2 k d.toNat
    match t.sliceTile x v with
    | .error e => .error e
    | .ok q =>
      if vaNat va % 128 ≠ 0 then .error (.trap .misalignedData va)
      else if t.slotPending q then .error (.fill v.waitOperand)
      else
        let n := t.slotSize q
        let r := t.tileRange x .write va n
        match r.1 with
        | .error e => .error e
        | .ok ps =>
          let w : LaneWrite :=
            { lane := 0, va := va, size := n, writes := .ok (pieceWrites ps ((List.range n).map (t.slotByte q)), 0) }
          .ok (r.2.buffered x (storeEntries x 0 r.2.serial false [] [w])))

/-- The word `tquery` reports of a tile (R246). -/
def Tile.report (t : Tile) : W32 :=
  BitVec.ofNat 32 (1 + (if t.pending = 0 then 0 else 2) + (if t.filled then 4 else 0) + t.k * 8 + t.fmt * 128 + t.mode * 4096
    + t.reads * 65536)

/-- `tquery` (R246): guarded, with an `s` destination (R147). -/
def execTquery (f : OpN) (s : State) : Out :=
  s.issue { guard := f.g, past := .waits, records := true } (fun x t =>
    match x.lanes f.g.toNat with
    | [] => .next (t.retireHere x)
    | i :: _ =>
      let v := x.view (i / 4) f.a
      if !v.zero ∨ 1 < v.level then .next (t.takeTrap x { kind := .illegalHandle })
      else
        let r := match t.tileOf (x.slot v) with | some tl => tl.report | none => 0
        .next (t.retireRegs x (fun q => q.writeS f.d.toNat (fun _ => r) x.part)))

/-! ### Elements (R235, R239, R243, R247, R248) -/

/-- Where a lane's element lies: its slot (none: the target has exited), the handle's wait operand, its index. -/
structure Elem where
  lane : Nat
  slot : Option Slot
  operand : Nat
  index : Int

/-- Find every lane's slot; the first lane that has none decides the fault. -/
def findSlots (find : Nat → Except FaultKind (Option Slot × Nat × Int)) : List Nat → Except FaultKind (List Elem)
  | [] => .ok []
  | i :: t =>
    match find i with
    | .error k => .error k
    | .ok (q, op, e) => match findSlots find t with
      | .ok l => .ok ({ lane := i, slot := q, operand := op, index := e } :: l)
      | .error k => .error k

/-- An element of z bits lies inside its tile (R235). -/
def State.inRange (s : State) (z : Nat) (e : Elem) : Bool :=
  match e.slot with
  | some q => decide (0 ≤ e.index) && decide ((e.index.toNat + 1) * z ≤ s.slotSize q * 8)
  | none => true

/-- The checks of a tile access, before any lane acts: views, then ranges, then pending fills (R235, R238). The size of an
element is a function of its slot. -/
def State.tileCheck (s : State) (z : Slot → Nat) (es : Except FaultKind (List Elem)) : Except TileStop (List Elem) :=
  match es with
  | .error k => .error (.trap k 0)
  | .ok l =>
    if l.any (fun e => match e.slot with | some q => !s.inRange (z q) e | none => false) then .error (.trap .tileRange 0)
    else match l.find? (fun e => match e.slot with | some q => s.slotPending q | none => false) with
      | some e => .error (.fill e.operand)
      | none => .ok l

/-- The slots that lanes read, each once. -/
def slotsRead (l : List Elem) : List Slot := (l.filterMap (·.slot)).eraseDups

/-- The bits of an element. -/
def State.elemCode (s : State) (q : Slot) (z : Nat) (e : Elem) : Nat := bitString (s.slotByte q) 0 (e.index.toNat * z) z

/-- Masked writes of an element's bits. -/
def elemWrites (z index code : Nat) : List ByteWrite :=
  if z < 8 then
    let half := index % 2 * 4
    [{ addr := index / 2, value := BitVec.ofNat 8 (code * 2 ^ half), bits := BitVec.ofNat 8 (15 * 2 ^ half) }]
  else byteWrites (index * (z / 8)) (z / 8) code

/-- The view of a lane as an element of its own crew's tile (R235). -/
def State.ownElem (s : State) (x : Ctx) (a : BitVec 6) (coord : Nat → W32) (accs : Bool) (i : Nat) :
    Except FaultKind (Option Slot × Nat × Int) :=
  let v := x.view (i / 4) a
  match s.viewSlot x v accs with
  | .ok q => .ok (some q, v.waitOperand, v.elem (coord i))
  | .error k => .error k

/-- Read elements for lanes: values and flags, then the counts (R239). -/
def State.tileLoad (s : State) (x : Ctx) (lanes : List Nat) (z : Slot → Nat) (es : Except FaultKind (List Elem))
    (value : Slot → Nat → Nat × Nat) (put : Regs → Nat → Nat → Regs) (after : List Elem → Regs → Regs) : Out :=
  if lanes.isEmpty then .next (s.retireHere x)
  else match s.tileCheck z es with
    | .error e => .next (s.tileStop x e)
    | .ok l =>
      let got := l.map (fun e => match e.slot with
        | some q => (e.lane, value q (s.elemCode q (z q) e))
        | none => (e.lane, (0, 0)))
      let s1 := (slotsRead l).foldl State.slotRead s
      .next (s1.finishFlags x (orFlags (got.map (·.2.2)))
        (fun q => after l (got.foldl (fun a v => put a v.1 v.2.1) q)))

/-- Write elements of lanes, the highest-numbered lane last (R192, R244); `after` writes registers. -/
def State.tileStore (s : State) (x : Ctx) (lanes : List Nat) (z : Slot → Nat) (es : Except FaultKind (List Elem))
    (code : Slot → Nat → Nat × Nat) (dropped : Nat) (after : List Elem → Regs → Regs) : Out :=
  if lanes.isEmpty then .next (s.retireHere x)
  else match s.tileCheck z es with
    | .error e => .next (s.tileStop x e)
    | .ok l =>
      let act := fun (u : State) (e : Elem) => match e.slot with
        | some q => u.slotWrites q (elemWrites (z q) e.index.toNat (code q e.lane).1)
        | none => u
      let flags := orFlags (l.map (fun e => match e.slot with | some q => (code q e.lane).2 | none => dropped))
      .next ((l.foldl act s).finishFlags x flags (after l))

/-- `tld` (R247). -/
def execTld (g : BitVec 3) (k : BitVec 1) (w : BitVec 2) (d a b : BitVec 6) (s : State) : Out :=
  s.issue { guard := g, vs := [(d, widthRegs w.toNat)] ++ needB k b 1, past := .waits, records := true } (fun x t =>
    let ls := x.lanes g.toNat
    t.tileLoad x ls (fun _ => 8 * 2 ^ w.toNat) (findSlots (t.ownElem x a (x.g.regs.srcB k b) (w == 2)) ls)
      (fun _ c => (c, 0)) (putWidth w.toNat d.toNat) (fun _ q => q))

/-- `tst` (R247). -/
def execTst (g : BitVec 3) (k : BitVec 1) (w : BitVec 2) (d a b : BitVec 6) (s : State) : Out :=
  s.issue { guard := g, vs := [(d, widthRegs w.toNat)] ++ needB k b 1, past := .waits, records := true } (fun x t =>
    let ls := x.lanes g.toNat
    t.tileStore x ls (fun _ => 8 * 2 ^ w.toNat) (findSlots (t.ownElem x a (x.g.regs.srcB k b) (w == 2)) ls)
      (fun _ i => (getWidth w.toNat d.toNat x.g.regs i, 0)) 0 (fun _ q => q))

/-- The register type of `tlde` and `tste` (R247). -/
def tileType (f : OpA) : RegType := memType (4 * f.k.toNat + bitsAt f.a 0 2)

/-- A kind-6 hint that a tile access admits: geometry 0 and a format of 0 to 9 (R247). -/
def Ctx.tileHintOk (x : Ctx) : Bool := match x.fmtHint with | some (f, g) => decide (f ≤ 9) && g == 0 | none => true

/-- The format that an element is decoded by. -/
def State.decodeFmt (s : State) (x : Ctx) (q : Slot) : Nat := match x.fmtHint with | some (f, _) => f | none => s.slotFmt q

/-- The size of a decoded element (R235). -/
def decodeBits (t : RegType) (fmt : Nat) : Nat := if fmt = 0 then t.bits else elemBits fmt

/-- `tlde` (R247). -/
def execTlde (f : OpA) (s : State) : Out :=
  let ty := tileType f
  s.issue { guard := f.g, vs := [(f.d, if ty.wide then 2 else 1), (f.b, 1)], past := .waits, records := true } (fun x t =>
    let ls := x.lanes f.g.toNat
    t.tileLoad x ls (fun q => decodeBits ty (t.decodeFmt x q))
      (findSlots (t.ownElem x f.a (x.g.regs.getV f.b.toNat) (decide (ty = .fp .f32))) ls)
      (fun q c => if t.decodeFmt x q = 0 then (c, 0) else convert ty {} (linearValue (t.decodeFmt x q) c))
      (putType ty f.d.toNat) (fun _ q => q)) Ctx.tileHintOk

/-- `tste` (R247). -/
def execTste (f : OpA) (s : State) : Out :=
  let ty := tileType f
  s.issue { guard := f.g, vs := [(f.d, if ty.wide then 2 else 1), (f.b, 1)], past := .waits, records := true } (fun x t =>
    let ls := x.lanes f.g.toNat
    t.tileStore x ls (fun q => decodeBits ty (t.decodeFmt x q))
      (findSlots (t.ownElem x f.a (x.g.regs.getV f.b.toNat) (decide (ty = .fp .f32))) ls)
      (fun q i =>
        let v := getType ty f.d.toNat x.g.regs i
        if t.decodeFmt x q = 0 then (v, 0) else linearCode (t.decodeFmt x q) x.rnd (ty.source x.rnd v)) 0 (fun _ q => q))
    Ctx.tileHintOk

/-- The members of a co-resident group by rank: the crew that holds it, if it has not exited (R242). -/
def State.member (s : State) (asid group rank : Nat) : Option Nat :=
  (s.crews.find? (fun p => p.2.asid == asid && decide (p.2.rank = some (group, rank)) && decide (p.2.phase ≠ .exited))).map (·.1)

/-- The target of a lane of `tldg` or `tstg` (R243). -/
def State.remoteElem (s : State) (x : Ctx) (a : BitVec 6) (coord : Nat → W32) (i : Nat) :
    Except FaultKind (Option Slot × Nat × Int) :=
  let v := x.view (i / 4) a
  let group := bitsAt v.fourth 0 8
  let rank := bitsAt v.fourth 8 4
  if !v.zero ∨ bitsAt v.fourth 15 17 ≠ 0 ∨ v.level ≠ 0 then .error .illegalHandle
  else match (s.groupEntry x.unit x.c.asid group).1 with
    | none => .error .illegalHandle
    | some (_, e) =>
      if !(recGroups x.c.record).contains group ∨ !grpCoresident e ∨ grpMembers e ≤ rank then .error .illegalHandle
      else match s.member x.c.asid group rank with
        | none => .ok (none, 0, 0)
        | some c =>
          match s.tileOf (.core c v.index) with
          | some t =>
            if t.mode = v.mode then .ok (some (.core c v.index), v.handle + 4096 * (c + 1), v.elem (coord i))
            else .error .illegalHandle
          | none => .error .illegalHandle

/-- The flag predicates of `tldg` (R242): 1 where the target has exited. -/
def absentFlags (x : Ctx) (a : BitVec 6) (l : List Elem) (q : Regs) : Regs :=
  l.foldl (fun r e => r.setP (bitsAt (x.view (e.lane / 4) a).fourth 12 3) e.lane e.slot.isNone) q

/-- The flag predicates of `tstg` (R243): 0 where the access is made. -/
def madeFlags (x : Ctx) (a : BitVec 6) (l : List Elem) (q : Regs) : Regs :=
  (l.filter (fun e => e.slot.isSome)).foldl (fun r e => r.setP (bitsAt (x.view (e.lane / 4) a).fourth 12 3) e.lane false) q

/-- `tldg` (R243, R248). -/
def execTldg (f : OpA) (s : State) : Out :=
  s.issue { guard := f.g, vs := [(f.d, 1)] ++ needB f.k f.b 1, past := .waits, records := true } (fun x t =>
    let ls := x.lanes f.g.toNat
    t.tileLoad x ls (fun _ => 32) (findSlots (t.remoteElem x f.a (x.g.regs.srcB f.k f.b)) ls)
      (fun _ c => (c, 0)) (putWidth 2 f.d.toNat) (absentFlags x f.a))

/-- `tstg` (R243, R248): a store to a target that has exited is dropped and sets AT; its flag stays as it is. -/
def execTstg (f : OpA) (s : State) : Out :=
  s.issue { guard := f.g, vs := [(f.d, 1)] ++ needB f.k f.b 1, past := .waits, records := true } (fun x t =>
    let ls := x.lanes f.g.toNat
    t.tileStore x ls (fun _ => 32) (findSlots (t.remoteElem x f.a (x.g.regs.srcB f.k f.b)) ls)
      (fun _ i => ((x.g.regs.getV f.d.toNat i).toNat, 0)) flagAT.toNat (madeFlags x f.a))

/-! ### Tokens (17_matrix R342) -/

/-- Perform once per distinct handle; what was done before a stop stands. -/
def runHandles (act : State → Nat → Except TileStop State) (s : State) : List Nat → State × Option TileStop
  | [] => (s, none)
  | h :: t =>
    match act s h with
    | .error e => (s, some e)
    | .ok s1 => runHandles act s1 t

/-- The token of an accumulator changes hands. -/
def State.setToken (s : State) (cl n : Nat) (a : Acc) (who : Option Nat) : State :=
  let c := s.cluster cl
  s.setCluster cl { c with accs := SMap.put c.accs n { a with token := who } }

/-- `macq` and `mrel`, once per distinct handle among the slices with an active lane. -/
def State.tokenOp (s : State) (a : BitVec 6) (act : Ctx → State → Nat → Except TileStop State) : Out :=
  s.issue { past := .waits, records := true } (fun x t =>
    let hs := (operandSets x (fun k => [BitVec.ofNat 32 (x.view k a).handle])).map (fun p => (x.view p.1 a).handle)
    let r := runHandles (act x) t hs
    match r.2 with
    | none => .next (r.1.retireHere x)
    | some e => .next (r.1.tileStop x e))

/-- `macq` (R342): a token that the array holds is taken at once; the array runs no operation between steps of this
machine. A tile that was freed while the part waited for its token raises illegal-handle. -/
def execMacq (a : BitVec 6) (s : State) : Out :=
  s.tokenOp a (fun x t h =>
    let cl := clusterOfCore x.c.core
    if (x.g.slice x.low).remote = 4 then .error (.trap .illegalHandle 0)
    else match t.acc? cl x.c.asid h with
    | none => .error (.trap .illegalHandle 0)
    | some k =>
      if k.token = some x.crew then .ok t
      else if k.token = none then .ok (t.setToken cl (natBits h 0 10) k (some x.crew))
      else .error (.token h k.id))

/-- `mrel` (R342): a release at `.clu`. -/
def execMrel (a : BitVec 6) (s : State) : Out :=
  s.tokenOp a (fun x t h =>
    let cl := clusterOfCore x.c.core
    match t.acc? cl x.c.asid h with
    | some k =>
      if k.token = some x.crew then .ok ((t.drain x.crew x.gang x.mask 3).setToken cl (natBits h 0 10) k none)
      else .error (.trap .accumulatorToken 0)
    | none => .error (.trap .accumulatorToken 0))

/-! ### TFILL_COMPLETE (R237) -/

/-- The slot of a fill. -/
def Fill.slot (f : Fill) : Slot := match f.crew with | some c => .core c f.key | none => .cluster f.cluster f.key

/-- Bytes as a tile's data: those that are not zero. -/
def dataOf (bs : List Byte) : SMap Byte := (bs.mapIdx (fun i b => (i, b))).filter (fun p => p.2 != 0)

/-- The reads of a fill are bound, after the part's earlier loads of a common byte (14_ordering R283). -/
def State.readFill (s : State) (f : Fill) : State :=
  let s1 := match f.part with
    | some (c, g, k) =>
      s.bindLoads c g (fun h => (h.slices &&& k) != 0 && decide (h.id < f.stamp) && h.unread.any f.unread)
    | none => s
  s1.bindFills (fun q => decide (q = f))

/-- TFILL_COMPLETE: a fill is performed, in the order of acceptance for one tile, the fills by Decanter cards among them; the
parts that wait for it are woken by LOAD_DATA_ARRIVAL. -/
def execTfillComplete (n : Nat) (s : State) : Out :=
  match s.fills[n]? with
  | none => .next s
  | some f =>
    let decs : SMap DecSlot := match f.crew with
      | some _ => []
      | none => (s.cluster f.cluster).dec.filter (fun p => p.2.tileKey == some f.key)
    if (s.fills.take n).any (fun q => decide (q.slot = f.slot)) || decs.any (fun p => p.2.ahead == 0) then .next s
    else
      let s1 := s.readFill f
      let bs := match s1.fills[n]? with | some q => q.data.getD [] | none => []
      let c := s1.cluster f.cluster
      let s0 := if decs.isEmpty then s1
        else s1.setCluster f.cluster { c with dec := c.dec.map (fun (p : Nat × DecSlot) =>
          (p.1, if p.2.tileKey = some f.key then { p.2 with ahead := p.2.ahead - 1 } else p.2)) }
      let s2 : State := { s0 with fills := s0.fills.eraseIdx n }
      match s2.tileOf f.slot with
      | some t => .next (s2.setTile f.slot (some { t with data := dataOf bs, reads := f.reads, pending := t.pending - 1, filled := true }))
      | none => .next s2

end Sys2Proof.Machine
end

