-- ==== Sys2Proof/Machine/Atomic.lean ====
section
/-!
DEFINITION. Atomics, reductions, reservations and monitors (13_atomics R250 to R264, majors 0x24 to 0x2A).
-/

namespace Sys2Proof.Machine

/-! ### Checks (R252) -/

/-- The port that carries accesses to a module: the primary port of its route while its link is up, else the alternate
(24_ports R453). -/
def State.routePort (s : State) (m : Nat) : Nat :=
  let r := SMap.getD s.ports.route m 0
  let first := 2 + bitsAt r 0 3
  if SMap.getD s.ports.up first false then first else 2 + bitsAt r 3 3

/-- An operation that a peer port in PCI Express mode carries (R450, R454). -/
def pcieAtomic (op : Option HomeOp) : Bool :=
  match op with
  | some (.int .add) => true
  | some (.int .xchg) => true
  | some (.int .cas) => true
  | _ => false

/-- What an atomic access to a page of another module meets before it is sent: `lres`, `scond` and `mon` have no
transaction there (R450), and PCI Express carries few operations. -/
def State.peerRefuses (s : State) (p : Page) (op : Option HomeOp) : Bool :=
  p.remote && (op.isNone || (s.portMode (s.routePort p.peer) == 1 && !pcieAtomic op))

/-- One location, checked in the order of R252; `align` is 1 for `mon`, and `kinds` asks for a page of kind SC or RC. -/
def State.placeWord (s : State) (x : Ctx) (acc : Access) (op : Option HomeOp) (size align : Nat) (kinds : Bool) (va : W64) :
    Except (Fail × W64) Page × State :=
  let r := s.translate x.unit x.c.asid va acc
  let stop := fun (k : FaultKind) => (Except.error (Fail.fault k, va), r.2)
  match r.1 with
  | .error f => (.error (f, va), r.2)
  | .ok p =>
    if vaNat va % align ≠ 0 then stop .misalignedData
    else if p.control || (p.away && !p.remote) then stop .protection
    else if kinds && (decide (p.kind = .ws) || decide (p.kind = .pv)) then stop .illegalKind
    else if p.remote && !r.2.routeValid p.peer then stop .peerLost
    else if r.2.peerRefuses p op then stop .unsupportedRequest
    else if p.remote ∧ (x.g.slice x.low).remote = 2 then stop .completionTimeout
    else if p.remote ∧ (x.g.slice x.low).remote = 3 then stop .unsupportedRequest
    else if r.2.poisonedIn [(p, size)] then stop .uncorrectableData
    else (.ok p, r.2)

/-- A lane of an atomic instruction: its location, or why it has none. -/
structure LaneSpot where
  lane : Nat
  at_ : Except (Fail × W64) Page

/-- The lanes that have a location. -/
def goodSpots (l : List LaneSpot) : List (Nat × Page) :=
  l.filterMap (fun q => match q.at_ with | .ok p => some (q.lane, p) | .error _ => none)

/-- The lanes that stop (R252, R194). -/
def badSpots (l : List LaneSpot) : List (Nat × Fail × W64) :=
  l.filterMap (fun q => match q.at_ with | .ok _ => none | .error e => some (q.lane, e))

/-- The location of a lane: its module, and its physical address. -/
def spotKey (p : Nat × Page) : Nat × Nat := (p.2.peer, p.2.pa)

/-- The shortest run of lanes, from the first on, that leaves none of its locations to a later lane (R253). -/
def closedRun : List (Nat × Page) → List (Nat × Page) → List (Nat × Page) × List (Nat × Page)
  | run, [] => (run, [])
  | run, p :: t =>
    if run.isEmpty || run.any (fun q => (p :: t).any (fun r => decide (spotKey q = spotKey r))) then closedRun (run ++ [p]) t
    else (run, p :: t)

/-- The runs of lanes that are performed as one, in lane order; `fuel` bounds their number. -/
def closedRuns : Nat → List (Nat × Page) → List (List (Nat × Page))
  | 0, _ => []
  | fuel + 1, l => if l.isEmpty then [] else let r := closedRun [] l; r.1 :: closedRuns fuel r.2

/-- The lanes of each location, by its first lane. -/
def spotGroups (l : List (Nat × Page)) : List (List (Nat × Page)) :=
  ((l.map spotKey).eraseDups).map (fun k => l.filter (fun p => decide (spotKey p = k)))

/-- A lane on an SC page. -/
def scSpot (p : Nat × Page) : Bool := decide (p.2.kind = .sc)

/-- The lanes that an instruction may perform next: those of one location, or the first run of the lanes on SC pages (R253). -/
def nextGroups (l : List (Nat × Page)) : List (List (Nat × Page)) :=
  spotGroups (l.filter (fun p => !scSpot p)) ++ (closedRuns 32 (l.filter scSpot)).take 1

/-- The lanes that are performed at this issue: all, or one group when the turn says so. -/
def State.spotsNow (s : State) (l : List (Nat × Page)) : List (Nat × Page) :=
  match s.late with
  | none => l
  | some n => (nextGroups l).getD (n % max 1 (nextGroups l).length) []

/-- What the part has issued before an access that reads: reads and stores of a common byte are performed (14_ordering R283);
an SC access that may write is a release first, whether or not it then writes (R254, R282; notes/assumptions/9). -/
def State.beforeAtomic (s : State) (x : Ctx) (release : Bool) (size : Nat) (good : List (Nat × Page)) : State :=
  let ps : List Piece := good.map (fun p => (p.2, size))
  let s1 := if release && good.any scSpot then s.drain x.crew x.gang x.mask x.scope else s
  (s1.clearHazard x ps).readOrder x ps

/-- The shape of majors 0x24 to 0x2A (R251, R252): every lane is checked; lanes that wait for another module hold the part
when `returns` says that a value returns; then `act` performs good lanes, and the others stop. Lanes of locations that
other agents reach meanwhile stay for another issue (R253). -/
def State.atomicOp (s : State) (x : Ctx) (lanes : List Nat) (addr : BitVec 6) (acc : Access) (op : Option HomeOp)
    (size align : Nat) (returns : Bool) (act : State → List (Nat × Page) → State) : Out :=
  let plan := fun (u : State) (i : Nat) =>
    let r := u.placeWord x acc op size align true (x.g.regs.getV2 addr.toNat i)
    (({ lane := i, at_ := r.1 } : LaneSpot), r.2)
  let r := planLanes plan s lanes
  let good := goodSpots r.1
  if returns && good.any (fun p => p.2.remote) && (x.g.slice x.low).remote == 0 then .next (r.2.waitPart x 3 1 0)
  else
    let now := if returns then r.2.spotsNow good else good
    let s1 := act r.2 now
    let later := lanes.filter (fun i => !now.any (fun p => p.1 == i))
    let bads := badSpots r.1
    .next (
      if now.length < good.length then s1.keepReplay x (later.map (fun i => (i, x.g.regs.getV2 addr.toNat i)))
      else if bads.isEmpty then s1.retireHere x
      else s1.stopLanes x acc bads [])

/-! ### Atomics that return (R253, R255, R257 to R259) -/

/-- What the lanes before left at locations of other modules (R253). -/
abbrev Known := List ((Nat × Nat) × Nat)

/-- One lane's operation: the old value, the flags, what is known of other modules, the state. At another module the value
before the first lane is free. -/
def State.atomicLane (s : State) (x : Ctx) (op : HomeOp) (size : Nat) (q : Nat × Page) (b compare : Nat) (known : Known) :
    Nat × Nat × Known × State :=
  let p := q.2
  if p.remote then
    let old := match known.find? (fun k => decide (k.1 = spotKey q)) with
      | some k => k.2
      | none => bytesNat ((List.range size).map (fun i => Config.remoteByte s.free p.peer (p.pa + i)))
    let r := op.apply size old b compare
    (old, r.2, (spotKey q, r.1.getD old) :: known, s.nextFree)
  else
    let r := s.atomic p.kind x.writer op p.pa size b compare
    (r.1, r.2.1, known, r.2.2)

/-- Perform the lanes in increasing order, each on what the one before it left (R253): values by lane, and flags. -/
def State.atomicLanes (s : State) (x : Ctx) (op : HomeOp) (size : Nat) (b compare : Nat → Nat) (known : Known) :
    List (Nat × Page) → List (Nat × Nat) × Nat × State
  | [] => ([], 0, s)
  | p :: t =>
    let r := s.atomicLane x op size p (b p.1) (compare p.1) known
    let q := r.2.2.2.atomicLanes x op size b compare r.2.2.1 t
    ((p.1, r.1) :: q.1, r.2.1 ||| q.2.1, q.2.2)

/-- An SC operation is a release at its scope (R254, 14_ordering R282, R284). -/
def State.scRelease (s : State) (x : Ctx) (ps : List (Nat × Page)) : State :=
  if ps.any (fun p => decide (p.2.kind = .sc)) then s.released x.crew x.gang x.mask x.scope else s

/-- Results go to lanes, and flags to `af`. -/
def State.putResults (s : State) (x : Ctx) (flags : Nat) (l : List (Nat × Nat)) (put : Regs → Nat → Nat → Regs) : State :=
  match s.gang? x.crew x.gang with
  | some g => s.setGang x.crew x.gang
      ({ g with regs := l.foldl (fun (q : Regs) (v : Nat × Nat) => put q v.1 v.2) g.regs }.raise x.mask (BitVec.ofNat 32 flags))
  | none => s

/-- The operand of a lane: single, pair or quad by the size of the location. -/
def Regs.operand (r : Regs) (size : Nat) (k : BitVec 1) (b : BitVec 6) (i : Nat) : Nat :=
  if size = 16 then (r.getV4 b.toNat i).toNat
  else if size = 8 then (r.srcB2 k b i).toNat
  else (r.srcB k b i).toNat % 2 ^ (8 * size)

/-- Registers that a location of a size takes. -/
def sizeRegs (size : Nat) : Nat := if size = 16 then 4 else if size = 8 then 2 else 1

/-- The width code under which a location's value is held in registers. -/
def sizeWidth (size : Nat) : Nat := if size = 16 then 4 else if size = 8 then 3 else 2

/-- An atomic that returns. -/
def State.atom (s : State) (f : OpA) (op : HomeOp) (size : Nat) : Out :=
  let n := sizeRegs size
  s.issue { guard := f.g, vs := [(f.d, n), (f.a, 2)] ++ needB f.k f.b n, past := .waits, records := true } (fun x t =>
    let r := x.g.regs
    t.atomicOp x (x.replayLanes f.g.toNat) f.a .atomic (some op) size size true (fun u good =>
      let q := (u.beforeAtomic x true size good).atomicLanes x op size (fun i => r.operand size f.k f.b i)
        (fun i => getWidth (sizeWidth size) f.d.toNat r i) [] good
      (q.2.2.scRelease x good).putResults x q.2.1 q.1 (putWidth (sizeWidth size) f.d.toNat)))

def execAtomAdd (f : OpA) (s : State) : Out := s.atom f (.int .add) 4
def execAtomAnd (f : OpA) (s : State) : Out := s.atom f (.int .and) 4
def execAtomOr (f : OpA) (s : State) : Out := s.atom f (.int .or) 4
def execAtomXor (f : OpA) (s : State) : Out := s.atom f (.int .xor) 4
def execAtomMinS32 (f : OpA) (s : State) : Out := s.atom f (.int .minS) 4
def execAtomMaxS32 (f : OpA) (s : State) : Out := s.atom f (.int .maxS) 4
def execAtomMinN32 (f : OpA) (s : State) : Out := s.atom f (.int .minN) 4
def execAtomMaxN32 (f : OpA) (s : State) : Out := s.atom f (.int .maxN) 4
def execAtomXchg (f : OpA) (s : State) : Out := s.atom f (.int .xchg) 4
def execAtomCas (f : OpA) (s : State) : Out := s.atom f (.int .cas) 4
def execAtomAddN64 (f : OpA) (s : State) : Out := s.atom f (.int .add) 8
def execAtomAndN64 (f : OpA) (s : State) : Out := s.atom f (.int .and) 8
def execAtomOrN64 (f : OpA) (s : State) : Out := s.atom f (.int .or) 8
def execAtomXorN64 (f : OpA) (s : State) : Out := s.atom f (.int .xor) 8
def execAtomMinS64 (f : OpA) (s : State) : Out := s.atom f (.int .minS) 8
def execAtomMaxS64 (f : OpA) (s : State) : Out := s.atom f (.int .maxS) 8
def execAtomMinN64 (f : OpA) (s : State) : Out := s.atom f (.int .minN) 8
def execAtomMaxN64 (f : OpA) (s : State) : Out := s.atom f (.int .maxN) 8
def execAtomXchgN64 (f : OpA) (s : State) : Out := s.atom f (.int .xchg) 8
def execAtomCasN64 (f : OpA) (s : State) : Out := s.atom f (.int .cas) 8
def execAtomAddF32 (f : OpA) (s : State) : Out := s.atom f (.float .add .f32) 4
def execAtomMinF32 (f : OpA) (s : State) : Out := s.atom f (.float .min .f32) 4
def execAtomMaxF32 (f : OpA) (s : State) : Out := s.atom f (.float .max .f32) 4
def execAtomAddF64 (f : OpA) (s : State) : Out := s.atom f (.float .add .f64) 8
def execAtomMinF64 (f : OpA) (s : State) : Out := s.atom f (.float .min .f64) 8
def execAtomMaxF64 (f : OpA) (s : State) : Out := s.atom f (.float .max .f64) 8
def execAtomAddBf16x2 (f : OpA) (s : State) : Out := s.atom f (.float .add .bf16x2) 4
def execAtomMinBf16x2 (f : OpA) (s : State) : Out := s.atom f (.float .min .bf16x2) 4
def execAtomMaxBf16x2 (f : OpA) (s : State) : Out := s.atom f (.float .max .bf16x2) 4
def execAtomAddH16x2 (f : OpA) (s : State) : Out := s.atom f (.float .add .h16x2) 4
def execAtomMinH16x2 (f : OpA) (s : State) : Out := s.atom f (.float .min .h16x2) 4
def execAtomMaxH16x2 (f : OpA) (s : State) : Out := s.atom f (.float .max .h16x2) 4
def execAtomAddBf16 (f : OpA) (s : State) : Out := s.atom f (.float .add .bf16) 2
def execAtomMinBf16 (f : OpA) (s : State) : Out := s.atom f (.float .min .bf16) 2
def execAtomMaxBf16 (f : OpA) (s : State) : Out := s.atom f (.float .max .bf16) 2

/-- `cas128` (R259). -/
def execCas128 (g : BitVec 3) (d a b : BitVec 6) (s : State) : Out :=
  s.atom { g := g, k := 0, d := d, a := a, b := b } (.int .cas) 16

/-! ### Reductions (R256 to R258) -/

/-- The buffer entries of a reduction: the lanes of one location are one event, in lane order, and so is a run of lanes on SC
pages (R253). -/
def reduceEntries (x : Ctx) (stamp : Nat) (op : HomeOp) (size : Nat) (b va : Nat → W64) (good : List (Nat × Page)) : List BufEntry :=
  let here := good.filter (fun p => !p.2.remote)
  let away := good.filter (fun p => p.2.remote)
  let entry := fun (o : BufOp) => ({ slices := x.mask, op := o, scope := x.scope, stamp := stamp } : BufEntry)
  let reduce := fun (l : List (Nat × Page)) =>
    entry (.reduce ((l.head?.map (fun p => p.2.kind)).getD .rc) op size (l.map (fun p => (p.2.pa, b p.1))))
  (spotGroups (here.filter (fun p => !scSpot p))).map reduce ++ (closedRuns 32 (here.filter scSpot)).map reduce
    ++ ((away.map (fun p => p.2.peer)).eraseDups).filterMap (fun m => (away.find? (fun p => p.2.peer == m)).map (fun p =>
        entry (.remote (some m) p.2.pa (va p.1))))

/-- A no-return reduction: it enters the store buffer, and sets no flag (R255, R256). -/
def State.red (s : State) (f : OpRed) (op : HomeOp) (size : Nat) : Out :=
  s.issue { guard := f.g, vs := [(f.a, 2)] ++ needB f.k f.b (sizeRegs size), past := .waits, records := true } (fun x t =>
    t.atomicOp x (x.replayLanes f.g.toNat) f.a .atomic (some op) size size false (fun u good =>
      u.buffered x (reduceEntries x u.serial op size (fun i => BitVec.ofNat 64 (x.g.regs.operand size f.k f.b i))
        (fun i => x.g.regs.getV2 f.a.toNat i) good)))

def execRedAdd (f : OpRed) (s : State) : Out := s.red f (.int .add) 4
def execRedAnd (f : OpRed) (s : State) : Out := s.red f (.int .and) 4
def execRedOr (f : OpRed) (s : State) : Out := s.red f (.int .or) 4
def execRedXor (f : OpRed) (s : State) : Out := s.red f (.int .xor) 4
def execRedMinS32 (f : OpRed) (s : State) : Out := s.red f (.int .minS) 4
def execRedMaxS32 (f : OpRed) (s : State) : Out := s.red f (.int .maxS) 4
def execRedMinN32 (f : OpRed) (s : State) : Out := s.red f (.int .minN) 4
def execRedMaxN32 (f : OpRed) (s : State) : Out := s.red f (.int .maxN) 4
def execRedAddN64 (f : OpRed) (s : State) : Out := s.red f (.int .add) 8
def execRedAndN64 (f : OpRed) (s : State) : Out := s.red f (.int .and) 8
def execRedOrN64 (f : OpRed) (s : State) : Out := s.red f (.int .or) 8
def execRedXorN64 (f : OpRed) (s : State) : Out := s.red f (.int .xor) 8
def execRedMinS64 (f : OpRed) (s : State) : Out := s.red f (.int .minS) 8
def execRedMaxS64 (f : OpRed) (s : State) : Out := s.red f (.int .maxS) 8
def execRedMinN64 (f : OpRed) (s : State) : Out := s.red f (.int .minN) 8
def execRedMaxN64 (f : OpRed) (s : State) : Out := s.red f (.int .maxN) 8
def execRedAddF32 (f : OpRed) (s : State) : Out := s.red f (.float .add .f32) 4
def execRedMinF32 (f : OpRed) (s : State) : Out := s.red f (.float .min .f32) 4
def execRedMaxF32 (f : OpRed) (s : State) : Out := s.red f (.float .max .f32) 4
def execRedAddF64 (f : OpRed) (s : State) : Out := s.red f (.float .add .f64) 8
def execRedMinF64 (f : OpRed) (s : State) : Out := s.red f (.float .min .f64) 8
def execRedMaxF64 (f : OpRed) (s : State) : Out := s.red f (.float .max .f64) 8
def execRedAddBf16x2 (f : OpRed) (s : State) : Out := s.red f (.float .add .bf16x2) 4
def execRedMinBf16x2 (f : OpRed) (s : State) : Out := s.red f (.float .min .bf16x2) 4
def execRedMaxBf16x2 (f : OpRed) (s : State) : Out := s.red f (.float .max .bf16x2) 4
def execRedAddH16x2 (f : OpRed) (s : State) : Out := s.red f (.float .add .h16x2) 4
def execRedMinH16x2 (f : OpRed) (s : State) : Out := s.red f (.float .min .h16x2) 4
def execRedMaxH16x2 (f : OpRed) (s : State) : Out := s.red f (.float .max .h16x2) 4
def execRedAddBf16 (f : OpRed) (s : State) : Out := s.red f (.float .add .bf16) 2
def execRedMinBf16 (f : OpRed) (s : State) : Out := s.red f (.float .min .bf16) 2
def execRedMaxBf16 (f : OpRed) (s : State) : Out := s.red f (.float .max .bf16) 2

/-! ### Reservations (R260 to R262) -/

/-- The reservations that a home slice's table holds, by age. -/
def State.tableAges (s : State) (h : Nat) : List Nat :=
  s.crews.flatMap (fun c => c.2.gangs.flatMap (fun g => (g.2.resv.filter (fun r => homeOf r.2.addr == h)).map (fun r => r.2.age)))

/-- A full table of 128 entries loses its oldest one (R260). -/
def State.makeRoom (s : State) (h : Nat) : State :=
  let ages := s.tableAges h
  if ages.length < 128 then s
  else
    let oldest := ages.foldl min s.serial
    s.mapGangs (fun _ _ g => { g with resv := g.resv.filter (fun r => r.2.age != oldest) })

/-- A lane reserves a location (R261). -/
def State.takeResv (s : State) (x : Ctx) (lane pa size : Nat) : State :=
  let drop := match s.gang? x.crew x.gang with
    | some g => s.setGang x.crew x.gang { g with resv := SMap.erase g.resv lane }
    | none => s
  let s1 := drop.makeRoom (homeOf pa)
  match s1.gang? x.crew x.gang with
  | some g => (s1.setGang x.crew x.gang { g with resv := SMap.put g.resv lane { addr := pa, width := size, age := s1.serial } }).nextSerial
  | none => s1

/-- `lres` (R261). -/
def State.lres (s : State) (f : OpN) (size : Nat) : Out :=
  s.issue { guard := f.g, vs := [(f.d, sizeRegs size), (f.a, 2)], past := .waits, records := true } (fun x t =>
    t.atomicOp x (x.replayLanes f.g.toNat) f.a .read none size size true (fun u good =>
      let u0 := u.beforeAtomic x false size good
      let vals := good.map (fun p => (p.1, Memory.readNat u0.mem p.2.pa size))
      let u1 := good.foldl (fun v p => (v.request (lineOf p.2.pa) x.writer).takeResv x p.1 p.2.pa size) u0
      u1.putResults x 0 vals (putWidth (sizeWidth size) f.d.toNat)))

def execLres32 (f : OpN) (s : State) : Out := s.lres f 4
def execLres64 (f : OpN) (s : State) : Out := s.lres f 8

/-- The lane's reservation holds, with the same address and width (R262). -/
def State.resvHolds (s : State) (x : Ctx) (lane pa size : Nat) : Bool :=
  match s.gang? x.crew x.gang with
  | some g => match SMap.find g.resv lane with
    | some r => r.addr == pa && r.width == size
    | none => false
  | none => false

/-- One lane of `scond`: the store and the check are one step; the reservation goes in every case. -/
def State.scondLane (s : State) (x : Ctx) (size : Nat) (b : Nat) (i : Nat) (p : Page) : Nat × State :=
  let ok := s.resvHolds x i p.pa size
  let s1 := match s.gang? x.crew x.gang with
    | some g => s.setGang x.crew x.gang { g with resv := SMap.erase g.resv i }
    | none => s
  if ok then (0, s1.performNat p.kind x.writer p.pa size b) else (1, s1.request (lineOf p.pa) x.writer)

/-- The lanes of `scond` in increasing order. -/
def State.scondLanes (s : State) (x : Ctx) (size : Nat) (b : Nat → Nat) : List (Nat × Page) → List (Nat × Nat) × State
  | [] => ([], s)
  | (i, p) :: t =>
    let r := s.scondLane x size (b i) i p
    let q := r.2.scondLanes x size b t
    ((i, r.1) :: q.1, q.2)

/-- `scond` (R262). -/
def State.scond (s : State) (f : OpA) (size : Nat) : Out :=
  s.issue { guard := f.g, vs := [(f.d, 1), (f.a, 2)] ++ needB f.k f.b (sizeRegs size), past := .waits, records := true } (fun x t =>
    t.atomicOp x (x.replayLanes f.g.toNat) f.a .atomic none size size true (fun u good =>
      let q := (u.beforeAtomic x true size good).scondLanes x size (fun i => x.g.regs.operand size f.k f.b i) good
      (q.2.scRelease x (good.filter (fun p => q.1.any (fun r => r.1 == p.1 && r.2 == 0)))).putResults x 0 q.1 (putWidth 2 f.d.toNat)))

def execScond32 (f : OpA) (s : State) : Out := s.scond f 4
def execScond64 (f : OpA) (s : State) : Out := s.scond f 8

/-! ### Monitors (R263, R264) -/

/-- Watches that a home slice's table holds. -/
def State.watchCount (s : State) (h : Nat) : Nat :=
  s.crews.foldl (fun n c => c.2.gangs.foldl (fun m g => m + (g.2.watches.filter (fun w => homeOf (w.line * 128) == h)).length) n) 0

/-- A slice arms a watch on a line; without room its overflow bit is set. -/
def State.watch (s : State) (x : Ctx) (slice line : Nat) : State :=
  match s.gang? x.crew x.gang with
  | none => s
  | some g =>
    if g.watches.any (fun w => w.slice == slice && w.line == line) then s
    else if 4 ≤ (g.watches.filter (fun w => w.slice == slice)).length ∨ 256 ≤ s.watchCount (homeOf (line * 128)) then
      s.setGang x.crew x.gang { g with overflow := maskSet g.overflow slice true }
    else s.setGang x.crew x.gang { g with watches := g.watches ++ [{ slice := slice, line := line, fired := false }] }

/-- `mon` (R264). -/
def execMon (g : BitVec 3) (a : BitVec 6) (s : State) : Out :=
  s.issue { guard := g, vs := [(a, 2)], past := .waits, records := true } (fun x t =>
    t.atomicOp x (x.replayLanes g.toNat) a .read none 1 1 true (fun u good =>
      let lines := good.map (fun p => lineOf p.2.pa)
      good.foldl (fun v p => v.watch x (p.1 / 4) (lineOf p.2.pa)) (u.settleLines x lines)))

end Sys2Proof.Machine
end

