-- ==== Sys2Proof/Machine/Integer.lean ====
section
/-!
DEFINITION. The integer, address and predicate class (07_integer R155 to R169), on a part and on a Vintner.
-/

namespace Sys2Proof.Machine

/-! ### Values (R160 to R165): exact integers, narrowed at the end -/

def mulhiS (w : Nat) (a b : BitVec w) : BitVec w := BitVec.ofInt w (a.toInt * b.toInt / 2 ^ w)
def mulhiN (w : Nat) (a b : BitVec w) : BitVec w := BitVec.ofNat w (a.toNat * b.toNat / 2 ^ w)
def divS (a b : W32) : W32 := if b = 0 then 0xFFFFFFFF else BitVec.ofInt 32 (a.toInt.tdiv b.toInt)
def divN (a b : W32) : W32 := if b = 0 then 0xFFFFFFFF else BitVec.ofNat 32 (a.toNat / b.toNat)
def remS (a b : W32) : W32 := if b = 0 then a else BitVec.ofInt 32 (a.toInt - b.toInt * a.toInt.tdiv b.toInt)
def remN (a b : W32) : W32 := if b = 0 then a else BitVec.ofNat 32 (a.toNat % b.toNat)
def minS (w : Nat) (a b : BitVec w) : BitVec w := if a.toInt ≤ b.toInt then a else b
def maxS (w : Nat) (a b : BitVec w) : BitVec w := if a.toInt ≤ b.toInt then b else a
def minN (w : Nat) (a b : BitVec w) : BitVec w := if a.toNat ≤ b.toNat then a else b
def maxN (w : Nat) (a b : BitVec w) : BitVec w := if a.toNat ≤ b.toNat then b else a
def absS (b : W32) : W32 := BitVec.ofNat 32 b.toInt.natAbs

/-- A × 2^n, for any natural number n. -/
def shiftUp (w : Nat) (a : BitVec w) (n : Nat) : BitVec w := if w ≤ n then 0 else BitVec.ofNat w (a.toNat * 2 ^ n)
/-- ⌊nv(A) ÷ 2^n⌋. -/
def shiftDownN (w : Nat) (a : BitVec w) (n : Nat) : BitVec w := if w ≤ n then 0 else BitVec.ofNat w (a.toNat / 2 ^ n)
/-- ⌊sv(A) ÷ 2^n⌋. -/
def shiftDownS (w : Nat) (a : BitVec w) (n : Nat) : BitVec w :=
  if w ≤ n then (if a.toInt < 0 then BitVec.allOnes w else 0) else BitVec.ofInt w (a.toInt / 2 ^ n)

def rotl32 (a b : W32) : W32 := a.rotateLeft (b.toNat % 32)
def popc32 (b : W32) : W32 := BitVec.ofNat 32 ((List.range 32).filter (fun i => b.getLsbD i)).length
def clz32 (b : W32) : W32 := BitVec.ofNat 32 ((List.range 32).takeWhile (fun i => !b.getLsbD (31 - i))).length
def ctz32 (b : W32) : W32 := BitVec.ofNat 32 ((List.range 32).takeWhile (fun i => !b.getLsbD i)).length
def brev32 (b : W32) : W32 := b.reverse

/-- The mask of a field descriptor (R165). -/
def fieldMask (b : W32) : W32 := BitVec.ofNat 32 ((2 ^ min (bitsAt b 8 6) 32 - 1) * 2 ^ bitsAt b 0 5)
def bext32 (a b : W32) : W32 := (a &&& fieldMask b) >>> bitsAt b 0 5
def bins32 (a b d : W32) : W32 := (d &&& ~~~ fieldMask b) ||| ((a <<< bitsAt b 0 5) &&& fieldMask b)

/-- nv(A) + nv(B) × 2^s with s the scale code of a kind-3 hint (R163). -/
def leaOf (hs : List W32) (a : W64) (b : W32) : W64 :=
  let s := match hintOf hs 3 with | some p => p % 8 | none => 0
  BitVec.ofNat 64 (a.toNat + b.toNat * 2 ^ s)

/-- sext(payload : field, w + 22) under a kind-0 hint, sext(field, w) without one (R66). -/
def wideImm (hs : List W32) (w : Nat) (field : Nat) : Int :=
  match hintOf hs 0 with
  | some p => readInt (w + 22) true (p * 2 ^ w + field)
  | none => readInt w true field

/-! ### Major 0x08 -/

def execAdd (f : OpA) (s : State) : Out := s.alu f (fun a b _ => a + b)
def execSub (f : OpA) (s : State) : Out := s.alu f (fun a b _ => a - b)
def execMul (f : OpA) (s : State) : Out := s.alu f (fun a b _ => a * b)
def execMulhiS32 (f : OpA) (s : State) : Out := s.alu f (fun a b _ => mulhiS 32 a b)
def execMulhiN32 (f : OpA) (s : State) : Out := s.alu f (fun a b _ => mulhiN 32 a b)
def execMad (f : OpA) (s : State) : Out := s.alu f (fun a b d => a * b + d)
def execDivS32 (f : OpA) (s : State) : Out := s.alu f (fun a b _ => divS a b)
def execDivN32 (f : OpA) (s : State) : Out := s.alu f (fun a b _ => divN a b)
def execRemS32 (f : OpA) (s : State) : Out := s.alu f (fun a b _ => remS a b)
def execRemN32 (f : OpA) (s : State) : Out := s.alu f (fun a b _ => remN a b)
def execMinS32 (f : OpA) (s : State) : Out := s.alu f (fun a b _ => minS 32 a b)
def execMaxS32 (f : OpA) (s : State) : Out := s.alu f (fun a b _ => maxS 32 a b)
def execMinN32 (f : OpA) (s : State) : Out := s.alu f (fun a b _ => minN 32 a b)
def execMaxN32 (f : OpA) (s : State) : Out := s.alu f (fun a b _ => maxN 32 a b)
def execAbsS32 (f : OpU) (s : State) : Out := s.aluUnary f absS

/-- `adds.s32` (R161): overflow is flagged once for the instruction, and saturates under a kind-2 hint. -/
def execAddsS32 (f : OpA) (s : State) : Out :=
  s.issueBoth { guard := f.g, vs := [(f.d, 1), (f.a, 1)] ++ needB f.k f.b 1, ss := some (needS f.k f.b 1) } (f.k == 1)
    (fun x t =>
      let r := x.g.regs
      let ls := x.lanes f.g.toNat
      let one := fun i => addSat (satOf x.hints) (r.getV f.a.toNat i) (r.srcB f.k f.b i)
      .next (t.finishFlags x (orFlags (ls.map (fun i => (one i).2))) (fun q => q.writeV f.d.toNat (fun i => (one i).1) ls)))
    (fun x t => t.vGuarded x f.g (fun k =>
      let v := addSat (satOf k.hints) (k.getS f.a.toNat) (k.getS f.b.toNat)
      (k.setS f.d.toNat v.1).raise v.2))

/-! ### Major 0x09 -/

def execAddS64 (f : OpA) (s : State) : Out := s.wide f (fun a b _ => a + b)
def execSubS64 (f : OpA) (s : State) : Out := s.wide f (fun a b _ => a - b)
def execMulS64 (f : OpA) (s : State) : Out := s.wide f (fun a b _ => a * b)
def execMulhiS64 (f : OpA) (s : State) : Out := s.wide f (fun a b _ => mulhiS 64 a b)
def execMulhiN64 (f : OpA) (s : State) : Out := s.wide f (fun a b _ => mulhiN 64 a b)
def execMadS64 (f : OpA) (s : State) : Out := s.wide f (fun a b d => a * b + d)
def execMinS64 (f : OpA) (s : State) : Out := s.wide f (fun a b _ => minS 64 a b)
def execMaxS64 (f : OpA) (s : State) : Out := s.wide f (fun a b _ => maxS 64 a b)
def execMinN64 (f : OpA) (s : State) : Out := s.wide f (fun a b _ => minN 64 a b)
def execMaxN64 (f : OpA) (s : State) : Out := s.wide f (fun a b _ => maxN 64 a b)
def execShl64 (f : OpA) (s : State) : Out := s.wideBy f (fun _ a b => shiftUp 64 a b.toNat)
def execShrN64 (f : OpA) (s : State) : Out := s.wideBy f (fun _ a b => shiftDownN 64 a b.toNat)
def execShrS64 (f : OpA) (s : State) : Out := s.wideBy f (fun _ a b => shiftDownS 64 a b.toNat)
def execLea (f : OpA) (s : State) : Out := s.wideBy f leaOf

/-! ### Major 0x0A -/

def execAnd (f : OpA) (s : State) : Out := s.alu f (fun a b _ => a &&& b)
def execOr (f : OpA) (s : State) : Out := s.alu f (fun a b _ => a ||| b)
def execXor (f : OpA) (s : State) : Out := s.alu f (fun a b _ => a ^^^ b)
def execAndn (f : OpA) (s : State) : Out := s.alu f (fun a b _ => a &&& ~~~ b)
def execShl (f : OpA) (s : State) : Out := s.alu f (fun a b _ => shiftUp 32 a b.toNat)
def execShrN32 (f : OpA) (s : State) : Out := s.alu f (fun a b _ => shiftDownN 32 a b.toNat)
def execShrS32 (f : OpA) (s : State) : Out := s.alu f (fun a b _ => shiftDownS 32 a b.toNat)
def execRotl (f : OpA) (s : State) : Out := s.alu f (fun a b _ => rotl32 a b)
def execPopc (f : OpU) (s : State) : Out := s.aluUnary f popc32
def execClz (f : OpU) (s : State) : Out := s.aluUnary f clz32
def execCtz (f : OpU) (s : State) : Out := s.aluUnary f ctz32
def execBrev (f : OpU) (s : State) : Out := s.aluUnary f brev32
def execBext (f : OpA) (s : State) : Out := s.alu f (fun a b _ => bext32 a b)
def execBins (f : OpA) (s : State) : Out := s.alu f bins32
def execMov (f : OpU) (s : State) : Out := s.aluUnary f (fun b => b)

/-! ### Major 0x0B -/

def execEq (f : OpCmp) (s : State) : Out := s.compare f (fun a b => a == b)
def execNe (f : OpCmp) (s : State) : Out := s.compare f (fun a b => a != b)
def execLtS32 (f : OpCmp) (s : State) : Out := s.compare f (fun a b => decide (a.toInt < b.toInt))
def execLeS32 (f : OpCmp) (s : State) : Out := s.compare f (fun a b => decide (a.toInt ≤ b.toInt))
def execLtN32 (f : OpCmp) (s : State) : Out := s.compare f (fun a b => decide (a.toNat < b.toNat))
def execLeN32 (f : OpCmp) (s : State) : Out := s.compare f (fun a b => decide (a.toNat ≤ b.toNat))
def execGtS32 (f : OpCmp) (s : State) : Out := s.compare f (fun a b => decide (b.toInt < a.toInt))
def execGeS32 (f : OpCmp) (s : State) : Out := s.compare f (fun a b => decide (b.toInt ≤ a.toInt))
def execGtN32 (f : OpCmp) (s : State) : Out := s.compare f (fun a b => decide (b.toNat < a.toNat))
def execGeN32 (f : OpCmp) (s : State) : Out := s.compare f (fun a b => decide (b.toNat ≤ a.toNat))
def execLtS64 (f : OpCmp) (s : State) : Out := s.compareWide f (fun a b => decide (a.toInt < b.toInt))
def execLtN64 (f : OpCmp) (s : State) : Out := s.compareWide f (fun a b => decide (a.toNat < b.toNat))
def execEq64 (f : OpCmp) (s : State) : Out := s.compareWide f (fun a b => a == b)

/-! ### Major 0x0C -/

def execPand (f : OpPred) (s : State) : Out := s.predicate f (fun a b => a && b)
def execPor (f : OpPred) (s : State) : Out := s.predicate f (fun a b => a || b)
def execPxor (f : OpPred) (s : State) : Out := s.predicate f (fun a b => a != b)
def execPandn (f : OpPred) (s : State) : Out := s.predicate f (fun a b => a && !b)
def execPmov (g : BitVec 3) (k : BitVec 1) (d b : BitVec 3) (s : State) : Out :=
  s.predicate { g := g, k := k, p := d, a := 0, b := b } (fun _ b => b)

/-- `pread` (R167). -/
def execPread (g : BitVec 3) (k : BitVec 1) (d : BitVec 6) (b : BitVec 3) (s : State) : Out :=
  s.issueBoth { guard := g, vs := [(d, 1)], ss := some [] } (k == 1)
    (fun x t =>
      let r := x.g.regs
      .next (t.retireRegs x (fun q =>
        q.writeV d.toNat (fun i => if r.getP b.toNat i then 1 else 0) (x.lanes g.toNat))))
    (fun x t => t.vGuarded x g (fun v => v.setS d.toNat (if v.getP b.toNat then 1 else 0)))
    (fun _ => k != 1)

/-! ### Majors 0x0D to 0x0F -/

/-- `addi` (R168). -/
def execAddi (g : BitVec 3) (d a : BitVec 6) (imm : BitVec 11) (s : State) : Out :=
  s.issueBoth { guard := g, vs := [(d, 1), (a, 1)], ss := some [] } true
    (fun x t =>
      let r := x.g.regs
      let n := BitVec.ofInt 32 (wideImm x.hints 11 imm.toNat)
      .next (t.retireRegs x (fun q => q.writeV d.toNat (fun i => r.getV a.toNat i + n) (x.lanes g.toNat))))
    (fun x t => t.vGuarded x g (fun k =>
      k.setS d.toNat (k.getS a.toNat + BitVec.ofInt 32 (wideImm k.hints 11 imm.toNat))))

/-- `movi` (R169). -/
def execMovi (g : BitVec 3) (d : BitVec 6) (v : BitVec 1) (imm : BitVec 16) (s : State) : Out :=
  s.immediate g d v (fun hs _ => BitVec.ofInt 32 (wideImm hs 16 imm.toNat))

/-- `movhi` (R169): bits 31:16 change. -/
def execMovhi (g : BitVec 3) (d : BitVec 6) (v : BitVec 1) (imm : BitVec 16) (s : State) : Out :=
  s.immediate g d v (fun _ old => imm ++ old.extractLsb' 0 16)

end Sys2Proof.Machine
end

