-- ==== Sys2Proof/Machine/Branch.lean ====
section
/-!
DEFINITION. Control transfers (06_control R137 to R150): divergence and reconvergence, `br`, `call`, `jmpi`, `calli`,
`ret`.
-/

namespace Sys2Proof.Machine

/-- The lanes of a slice that a transfer sends to one address. -/
abbrev Groups := List (W64 × BitVec 4)

/-- What a transfer does to one slice: entries pushed, first to last, and the new state. -/
structure Turnout where
  push : List DivEntry
  pc : W64
  mask : BitVec 4
  rpc : Option W64
deriving DecidableEq, Repr

/-- `diverge` of R140: groups.length entries are pushed. -/
def diverge (sl : Slice) (gs : Groups) (j : W64) : Turnout :=
  match gs with
  | [] => { push := [], pc := sl.pc, mask := sl.mask, rpc := sl.rpc }
  | (t, m) :: rest =>
    { push := { pc := j, mask := sl.mask, rpc := sl.rpc } :: rest.reverse.map (fun g => { pc := g.1, mask := g.2, rpc := some j })
      pc := t
      mask := m
      rpc := some j }

/-- `diverge_open` of R140: one entry fewer, and the reconvergence address stays. -/
def divergeOpen (sl : Slice) (gs : Groups) : Turnout :=
  match gs with
  | [] => { push := [], pc := sl.pc, mask := sl.mask, rpc := sl.rpc }
  | (t, m) :: rest =>
    { push := rest.reverse.map (fun g => { pc := g.1, mask := g.2, rpc := sl.rpc })
      pc := t
      mask := m
      rpc := sl.rpc }

/-- Every slice goes to one address. -/
def goTo (sl : Slice) (t : W64) : Turnout := { push := [], pc := t, mask := sl.mask, rpc := sl.rpc }

/-- A push would bring some slice to depth 256 (R141). -/
def overflows (x : Ctx) (plan : List (Nat × Turnout)) : Bool :=
  plan.any (fun p => !p.2.push.isEmpty && decide (255 < (x.g.slice p.1).depth + p.2.push.length))

/-- Some slice writes its spill area (R145). -/
def spills (x : Ctx) (plan : List (Nat × Turnout)) : Bool :=
  plan.any (fun p => !p.2.push.isEmpty && decide (16 < (x.g.slice p.1).stack.length + p.2.push.length))

/-- Make the pushes of every slice of a plan: the new slices, or the first translation failure (R145). -/
def State.pushPlan (s : State) (x : Ctx) : List (Nat × Turnout) → Except (Fail × W64) (List (Nat × Slice)) × State
  | [] => (.ok [], s)
  | (k, u) :: t =>
    let r := s.pushAll x.crew x.gang k x.c (x.g.slice k) u.push
    match r.1 with
    | .error e => (.error e, r.2)
    | .ok sl =>
      let q := r.2.pushPlan x t
      match q.1 with
      | .error e => (.error e, q.2)
      | .ok rest => (.ok ((k, { sl with pc := u.pc, mask := u.mask, rpc := u.rpc, hints := [], unchecked := false, remote := 0 }) :: rest), q.2)

/-- A stop on the frame of the crew (R145): a delivered fault, or a page request, at the instruction about to issue. The slices
of the part issue together, and stop together (notes/assumptions/68). -/
def State.stopFrame (s : State) (x : Ctx) (f : Fail) (va : W64) (acc : Access) : State :=
  match f with
  | .fault k => s.takeTrapAt x { kind := k } va 0
  | _ => s.requestPages x false [(va, f, acc)]

/-- Send the slices of the part where the plan says, with new registers: overflow is checked for every slice before any
changes (R140, R141), spilled entries are written (R145), and the part splits (R138). -/
def State.transferPlan (s : State) (x : Ctx) (f : Regs → Regs) (plan : List (Nat × Turnout)) : Out :=
  if overflows x plan then .next (s.takeTrap x { kind := .divergenceOverflow })
  else
    let s1 := if spills x plan then s.completeFence x.crew x.gang x.mask else s
    if s1.moved x then .next s1
    else
      let r := s1.pushPlan x plan
      match r.1 with
      | .error e => .next (r.2.stopFrame x e.1 e.2 .write)
      | .ok slices =>
        if r.2.moved x then .next r.2
        else match r.2.gang? x.crew x.gang with
          | none => .next r.2
          | some g =>
            let g1 := { g with
              regs := f g.regs
              slices := slices.foldl (fun (l : List Slice) (p : Nat × Slice) => l.set p.1 p.2) g.slices
              replay := SMap.erase g.replay x.low }
            .next (r.2.setGang x.crew x.gang (g1.split x.part))

/-- The active lanes of slice k, as its 4-bit mask, that satisfy a test. -/
def Ctx.quad (x : Ctx) (guard k : Nat) (test : Nat → Bool) : BitVec 4 :=
  (List.range 4).foldl (fun m j => if x.on guard (4 * k + j) && test (4 * k + j) then m ||| BitVec.twoPow 4 j else m) 0

/-- The offset of a branch in words: off22, widened by a kind-0 hint (R148). -/
def branchTarget (hs : List W32) (pc : W64) (off : BitVec 22) : W64 := pc + 4 * BitVec.ofInt 64 (wideImm hs 22 off.toNat)

/-- The join address of a kind-1 hint (R66, R143). -/
def joinOf (hs : List W32) (pc : W64) : Option W64 := (hintOf hs 1).map (fun p => pc + 4 * BitVec.ofInt 64 (readInt 22 true p))

/-- The reconvergence address of a branch (R143). -/
def joinAddress (hs : List W32) (pc tgt : W64) : W64 :=
  match joinOf hs pc with
  | some j => j
  | none => if pc.toNat < tgt.toNat then tgt else pc + 4

/-- The plan of a branch to `tgt` that rejoins at `j` (R148). -/
def branchPlan (x : Ctx) (p : BitVec 3) (n : BitVec 1) (tgt j : W64) : List (Nat × Turnout) :=
  let ft := x.pc + 4
  let takes := fun i => x.g.regs.getP p.toNat i != (n == 1)
  x.part.map (fun k =>
    let sl := x.g.slice k
    let t := x.quad 7 k takes
    let f := x.quad 7 k (fun i => !takes i)
    (k, if t = 0 then goTo sl ft else if f = 0 then goTo sl tgt else diverge sl [(tgt, t), (ft, f)] j))

/-- `br` (R148). -/
def execBr (p : BitVec 3) (n : BitVec 1) (o : BitVec 22) (s : State) : Out :=
  s.issueBoth { ss := some [] } true
    (fun x t =>
      let tgt := branchTarget x.hints x.pc o
      t.transferPlan x id (branchPlan x p n tgt (joinAddress x.hints x.pc tgt)))
    (fun x t =>
      let k := x.k
      let taken := k.getP p.toNat != (n == 1)
      .next (t.setV x { k with pc := if taken then branchTarget k.hints x.pc o else x.pc + 4, hints := [] }))

/-- `call` (R149): lanes that take it write `lk`. -/
def execCall (p : BitVec 3) (n : BitVec 1) (o : BitVec 22) (s : State) : Out :=
  s.issue { ss := some [] } (fun x t =>
    let ft := x.pc + 4
    let takers := (x.lanes 7).filter (fun i => x.g.regs.getP p.toNat i != (n == 1))
    t.transferPlan x (fun q => q.writeLk (fun _ => ft) takers) (branchPlan x p n (branchTarget x.hints x.pc o) ft))

/-! ### Indirect transfers (R150) -/

/-- Insert a target in increasing order with its lane. -/
def addTarget (t : W64) (j : Nat) : Groups → Groups
  | [] => [(t, BitVec.twoPow 4 j)]
  | (u, m) :: rest =>
    if u = t then (u, m ||| BitVec.twoPow 4 j) :: rest
    else if t.toNat < u.toNat then (t, BitVec.twoPow 4 j) :: (u, m) :: rest
    else (u, m) :: addTarget t j rest

/-- The distinct targets of a slice's lanes in increasing order (R143). -/
def targetGroups (x : Ctx) (guard k : Nat) (tgt : Nat → W64) : Groups :=
  ((List.range 4).filter (fun j => x.on guard (4 * k + j))).foldl (fun g j => addTarget (tgt (4 * k + j)) j g) []

/-- A transfer of every active lane to its own target; `j` is the join address, if the transfer has one. -/
def State.indirect (s : State) (x : Ctx) (guard : BitVec 3) (tgt : Nat → W64) (j : Option W64) (f : Regs → Regs) : Out :=
  let ls := x.lanes guard.toNat
  let bad := ls.filter (fun i => bitsAt (tgt i) 0 2 != 0)
  if !bad.isEmpty then .next (s.takeTrapAt x { kind := .misalignedCode } 0 (laneMask bad))
  else
    s.transferPlan x f (x.part.map (fun k =>
      let sl := x.g.slice k
      match targetGroups x guard.toNat k tgt with
      | [] => (k, goTo sl (x.pc + 4))
      | [(t, _)] => (k, goTo sl t)
      | gs => (k, match j with | some a => diverge sl gs a | none => divergeOpen sl gs)))

/-- `jmpi` (R150). -/
def execJmpi (g : BitVec 3) (a : BitVec 6) (s : State) : Out :=
  s.issue { guard := g, vs := [(a, 2)], ss := some [] } (fun x t =>
    t.indirect x g (fun i => x.g.regs.getV2 a.toNat i) (joinOf x.hints x.pc) id)

/-- `calli` (R150). -/
def execCalli (g : BitVec 3) (a : BitVec 6) (s : State) : Out :=
  s.issue { guard := g, vs := [(a, 2)], ss := some [] } (fun x t =>
    t.indirect x g (fun i => x.g.regs.getV2 a.toNat i) none
      (fun q => q.writeLk (fun _ => x.pc + 4) (x.lanes g.toNat)))

/-- `calli` that saves the old link (R150). -/
def execCalliSave (f : OpN) (s : State) : Out :=
  s.issue { guard := f.g, vs := [(f.d, 2), (f.a, 2)], ss := some [] } (fun x t =>
    let ls := x.lanes f.g.toNat
    t.indirect x f.g (fun i => x.g.regs.getV2 f.a.toNat i) none
      (fun q => (q.writeV2 f.d.toNat (fun i => x.g.regs.getLk i) ls).writeLk (fun _ => x.pc + 4) ls))

/-- `ret` (R150). -/
def execRet (g : BitVec 3) (s : State) : Out :=
  s.issue { guard := g, ss := some [] } (fun x t => t.indirect x g (fun i => x.g.regs.getLk i) none id)

end Sys2Proof.Machine
end

