-- ==== Sys2Proof/Machine/Sync.lean ====
section
/-!
DEFINITION. Waiting for a watch, fences and barriers (13_atomics R265 to R273): major 0x2B.
-/

namespace Sys2Proof.Machine

/-! ### mwait (R265) -/

/-- A watch of the part's slices. -/
def Ctx.watches (x : Ctx) : List Watch := x.g.watches.filter (fun w => x.part.contains w.slice)

/-- The overflow bits of the part's slices. -/
def Ctx.overflows (x : Ctx) : BitVec 8 := x.g.overflow &&& x.mask

/-- Disarm every watch of the part and clear its overflow bits. -/
def Gang.disarm (g : Gang) (x : Ctx) : Gang :=
  { g with watches := g.watches.filter (fun w => !x.part.contains w.slice), overflow := g.overflow &&& ~~~x.mask }

/-- `mwait`: with nothing armed it goes on at once; a fired watch or an overflow disarms all; else the part waits. -/
def execMwait (s : State) : Out :=
  s.issue { past := .waits, records := true } (fun x t =>
    if (x.watches.isEmpty && x.overflows == 0) || x.watches.any (·.fired) || x.overflows != 0 then
      match t.gang? x.crew x.gang with
      | some g => .next (t.retire x (g.disarm x))
      | none => .next t
    else .next (t.waitPart x 6 0 0))

/-! ### Fences (R266 to R270) -/

/-- A fence begins: the loads in flight before a full or acquire fence are bound, what a rollback restores is kept, the
fence's mark enters the store buffer, and the part runs past it. -/
def State.beginFence (s0 : State) (x : Ctx) (kind scope : Nat) : State :=
  let s := if kind = 2 then s0 else s0.bindLoads x.crew x.gang (fun f => (f.slices &&& x.mask) != 0)
  match s.gang? x.crew x.gang with
  | none => s
  | some g =>
    let f : Fence := { id := s.serial, slices := x.mask, kind := kind, scope := scope, lines := [], rollbacks := 0
                       regs := g.regs, control := g.slices, others := 0, back := false }
    (s.retire x { g with
      fences := g.fences ++ [f]
      buffer := g.buffer ++ [{ slices := x.mask, op := .fence s.serial, scope := scope, stamp := s.serial }] }).nextSerial

/-- The shape of the fences: kind 0 full, 1 acquire, 2 release. After a rollback the part runs past the same fence again;
after the second one it stays until the fence completes (R269). An earlier fence completes first (R268, R294). -/
def State.fence (s : State) (kind : Nat) (scope : BitVec 3) : Out :=
  s.issue { ss := some [] } (fun x t =>
    match x.g.fences.find? (fun f => (f.slices &&& x.mask) != 0) with
      | none => .next (t.beginFence x kind scope.toNat)
      | some f =>
        if f.back && f.slices == x.mask && decide (f.rollbacks < 2) then
          .next (t.retire x { x.g with fences := x.g.fences.map (fun h => if h.id = f.id then { h with back := false } else h) })
        else
          let t1 := t.completeFence x.crew x.gang x.mask
          if f.back && f.slices == x.mask && !t1.moved x then .next (t1.retireHere x) else .next t1)
    (fun _ => scope != 7)

def execFence (x : BitVec 3) (s : State) : Out := s.fence 0 x
def execFenceAcq (x : BitVec 3) (s : State) : Out := s.fence 1 x
def execFenceRel (x : BitVec 3) (s : State) : Out := s.fence 2 x

/-- FENCE_COMPLETE (R267): what the fence that a part runs past waits for is performed, and it completes. -/
def execFenceComplete (p : PartRef) (s : State) : Out :=
  match s.ctxOf p.crew p.gang p.slice with
  | none => .next s
  | some x =>
    match x.g.fences.find? (fun f => (f.slices &&& x.mask) != 0) with
    | none => .next s
    | some f => if f.back then .next s else .next (s.completeFence p.crew p.gang x.mask)

/-- FENCE_ROLLBACK (R269): the core's data cache evicts the first line of the speculation set. Rollbacks for a write to such a
line, or a recall of it, are part of performing them. -/
def execFenceRollback (p : PartRef) (s : State) : Out :=
  match s.ctxOf p.crew p.gang p.slice with
  | none => .next s
  | some x =>
    match x.g.fences.find? (fun f => (f.slices &&& x.mask) != 0) with
    | none => .next s
    | some f =>
      match f.lines with
      | [] => .next s
      | l :: _ => if f.back then .next s else .next (s.evictCopy x.c.core l)

/-! ### Barriers (R271 to R273) -/

/-- `bar` (R271): the part waits with code 1. -/
def execBar (n : BitVec 4) (s : State) : Out :=
  s.issue { past := .waits, records := true } (fun x t => .next ((t.arrive x 1 n.toNat 0 1).barArrive x.crew x.gang))

/-- A crew executes. -/
def Phase.executes : Phase → Bool
  | .running => true
  | .stopping => true
  | _ => false

/-- BAR_RELEASE (R271): every gang that has not exited has arrived, so the parity flips, the mask is cleared, and every
waiting slice goes on. -/
def execBarRelease (crew n : Nat) (s : State) : Out :=
  match s.crew? crew with
  | none => .next s
  | some c =>
    let key := (1, n % 16)
    if c.phase.executes && !c.liveGangs.isEmpty && c.liveGangs.all (fun p => p.2.arrivedAt key) then
      let b := SMap.getD c.barriers key.2 (0, false)
      .next (s.setCrew crew { c with
        barriers := SMap.put c.barriers key.2 (0, !b.2)
        gangs := c.gangs.map (fun p => (p.1, p.2.passWait (sliceMask p.2.liveSlices))) })
    else .next s

/-- `gbar` (R272): the group must be valid and named by the crew; the part waits with code 2, and the crew's arrival is
counted at the entry. -/
def execGbar (a : BitVec 6) (s : State) : Out :=
  s.issue { past := .waits, records := true } (fun x t =>
    match x.uslice with
    | none => .next (t.retireHere x)
    | some k =>
      let n := bitsAt (x.g.regs.getS k a.toNat) 0 8
      let e := t.groupEntry x.unit x.c.asid n
      let ok := match e.1 with
        | some (_, w) => grpValid w && (recGroups x.c.record).contains n
        | none => false
      if !ok then .next (e.2.takeTrap x { kind := .groupMembership })
      else .next (((e.2.arrive x 2 n 0 5).released x.crew x.gang x.mask 5).crewArrive x.crew))

/-- The slices of a crew that wait at a group's barrier go on; for a parked crew this is what its image is resumed with
(05_work R118). -/
def Crew.passGroup (c : Crew) (n : Nat) : Crew :=
  { c with gangs := c.gangs.map (fun p =>
      (p.1, p.2.passWait (sliceMask (p.2.liveSlices.filter (fun k => (p.2.slice k).waitKey == (2, n)))))) }

/-- GBAR_RELEASE (R272): arrived and exited members make up the group, so the phase rises and every waiting member goes
on. -/
def execGbarRelease (asid group : Nat) (s : State) : Out :=
  match s.crews.find? (fun p => p.2.asid == asid && (recGroups p.2.record).contains group) with
  | none => .next s
  | some (_, c) =>
    let u : UnitId := .cellarer (dieOfCore c.core)
    let e := s.groupEntry u asid group
    match e.1 with
    | none => .next s
    | some (p, w) =>
      if grpValid w && decide (0 < grpArrived w) && decide (grpMembers w ≤ grpArrived w + grpExited w) then
        let s1 := e.2.writeGroup u p (grpPhase w + 1) 0 (grpStarted w) (grpExited w)
        .next { s1 with crews := s1.crews.map (fun q =>
          (q.1, if q.2.asid = asid ∧ (recGroups q.2.record).contains group then q.2.passGroup group else q.2)) }
      else .next s

end Sys2Proof.Machine
end

