-- ==== Sys2Proof/Machine/Work.lean ====
section
/-!
DEFINITION. The work instructions (05_work R128 to R136): major 0x2C.
-/

namespace Sys2Proof.Machine

/-- A release at device scope for the issuing gang (R129): of the accesses that precede the instruction in the program
order of the issuing part. Each access names the slices of the part that made it; a part that split off lies within them,
and a `regang` puts the joined part in their place (14_ordering R275). -/
def State.releaseGang (s : State) (x : Ctx) : State := (s.drain x.crew x.gang x.mask 5).released x.crew x.gang x.mask 5

/-- A uniform `s` pair of the part; none when no lane is active (R128). -/
def Ctx.uniform2 (x : Ctx) (a : BitVec 6) : Option W64 := x.uslice.map (fun k => x.g.regs.getS2 k a.toNat)

/-! ### launch and spawn (R131, R132) -/

/-- The record of a task as it may be queued, with the placement its scope allows (R103, R131). -/
def Ctx.queued (x : Ctx) (addr : W64) (r : BitVec 512) (ts : List Nat) (scope : Nat) : Queued :=
  let q : Queued := { record := r, recptr := addr, asid := x.c.asid, guest := x.c.guest, onCore := none, onCluster := none
                      crew := none, rank := none, tiles := ts, die := x.die }
  match spotOf q scope with
  | .classQ _ => { q with
      onCore := if scope = 2 then some x.c.core else none
      onCluster := if scope = 3 then some (clusterOfCore x.c.core) else none }
  | _ => q

/-- A record with another arg1 (R99). -/
def withArg1 (r : BitVec 512) (v : W64) : BitVec 512 := v ++ r.extractLsb' 0 448

/-- The shape of `launch` and `spawn`: release, read, check, wait for room for all tasks, enqueue them in order. -/
def State.launchAll (s : State) (n : Need) (a : BitVec 6) (args : Ctx → Option (List W64)) : Out :=
  s.issue { n with past := .waits } (fun x t =>
    let scope := (x.hint 5).getD 4
    match x.uniform2 a with
      | none => .next (t.retireHere x)
      | some addr =>
        let t1 := t.releaseGang x
        if addr.toNat % 64 ≠ 0 then .next (t1.takeTrap x { kind := .malformedRecord })
        else
          let r := t1.readRecord x.unit x.c.asid addr
          match r.1 with
          | .error (f, va) => .next (r.2.stopUniform x .read f va)
          | .ok (rec', ts) =>
            let k := r.2.checkRecord x.die x.c.asid (recService x.c.record) rec' ts
            match k.1 with
            | some kind => .next (k.2.takeTrap x { kind := kind })
            | none =>
              let q := x.queued addr rec' ts scope
              let spot := spotOf q scope
              let qs := match args x with
                | none => [q]
                | some vs => vs.map (fun v => { q with record := withArg1 rec' v })
              if k.2.roomFor x.die spot qs.length then
                .next ((qs.foldl (fun (u : State) (m : Queued) => u.enqueue x.die m spot) k.2).retireHere x)
              else .next (k.2.waitPart x 9 (qs.length + 64 * scope) addr.toNat))
    (fun x => decide (2 ≤ (x.hint 5).getD 4) && decide ((x.hint 5).getD 4 ≤ 5))

/-- `launch` (R131). -/
def execLaunch (a : BitVec 6) (s : State) : Out := s.launchAll {} a (fun _ => none)

/-- `spawn` (R132). -/
def execSpawn (f : OpS) (s : State) : Out :=
  s.launchAll { vs := [(f.d, 2)] } f.a (fun x => some ((x.lanes 7).map (fun i => x.g.regs.getV2 f.d.toNat i)))

/-! ### jcnt (R133) -/

/-- The amount of `jcnt`: imm8, or the signed 30 bits that a kind-0 hint makes of it; none when it is illegal. -/
def Ctx.joinAmount (x : Ctx) (imm : BitVec 8) : Option Nat :=
  match x.hint 0 with
  | none => if imm = 0 then none else some imm.toNat
  | some p =>
    let v := (BitVec.ofNat 30 (p * 256 + imm.toNat)).toInt
    if 1 ≤ v then some v.toNat else none

/-- `jcnt`: a decrement at the counter's home slice, and a push at zero. -/
def execJcnt (d a : BitVec 6) (imm : BitVec 8) (s : State) : Out :=
  s.issue { past := .waits } (fun x t =>
    match x.joinAmount imm with
    | none => .next t
    | some n =>
      match x.uniform2 a with
      | none => .next (t.retireHere x)
      | some addr =>
        let t1 := t.releaseGang x
        if addr.toNat % 64 ≠ 16 then .next (t1.takeTrap x { kind := .malformedRecord })
        else
          let r := t1.placeWord x .write (some (.int .add)) 4 1 false addr
          match r.1 with
          | .error (f, va) => .next (r.2.stopUniform x .write f va)
          | .ok p =>
            if p.remote ∧ (x.g.slice x.low).remote = 0 then .next (r.2.waitPart x 3 1 0)
            else
              let u := if p.remote then r.2.nextFree else r.2
              let old := bytesNat (r.2.pieceData [(p, 4)])
              if old < n then .next (u.takeTrap x { kind := .joinUnderflow })
              else
                let u1 := if p.remote then u else u.performNat p.kind x.writer p.pa 4 (old - n)
                let dn := u1.die x.die
                let u2 := if old = n then u1.setDie x.die { dn with
                    pushes := dn.pushes ++ [{ addr := addr - 16, asid := x.c.asid, service := recService x.c.record, crew := x.crew, page := none }] }
                  else u1
                .next (u2.retireRegs x (fun q => q.writeS d.toNat (fun _ => BitVec.ofNat 32 (old - n)) x.part)))
    (fun x => (x.joinAmount imm).isSome)

/-! ### exit, yield, gquery (R134 to R136) -/

/-- Lanes of a slice exit: their bits go from its mask and from every entry of its stack (06_control R139); entries in the
spill area lose them when they are read back. -/
def Slice.exitLanes (sl : Slice) (m : BitVec 4) : Slice :=
  let live := sl.live &&& ~~~m
  { sl with
    live := live
    mask := sl.mask &&& live
    stack := sl.stack.map (fun e => { e with mask := e.mask &&& live })
    exited := live == 0 }

/-- `exit`: the active lanes never become active again; a slice whose lanes have all exited exits. -/
def execExit (s : State) : Out :=
  s.issue { past := .waits } (fun x t =>
    match t.gang? x.crew x.gang with
    | none => .next t
    | some g =>
      let g1 := g.mapSlices x.part (fun _ sl => sl.exitLanes sl.mask)
      .next ((t.retire x g1).afterExit x.crew x.gang))

/-- `yield`: the part waits with code 11 while a stop is pending. -/
def execYield (s : State) : Out :=
  s.issue { past := .waits } (fun x t =>
    if x.c.phase = .stopping ∧ x.uslice.isSome then .next (t.waitPart x 11 0 0) else .next (t.retireHere x))

/-- The value of `gquery`: members, coresident, valid, and the position of the group in the crew's record. -/
def groupWord (r : BitVec 512) (n : Nat) (e : BitVec 128) : Nat :=
  let pos := (List.range 4).find? (fun i => recGroup r i == n)
  bitsAt e 0 18 + (match pos with | some i => 2 ^ 18 + i * 2 ^ 19 | none => 0)

/-- `gquery`. -/
def execGquery (f : OpS) (s : State) : Out :=
  s.issue { past := .waits } (fun x t =>
    match x.uslice with
    | none => .next (t.retireHere x)
    | some k =>
      let n := bitsAt (x.g.regs.getS k f.a.toNat) 0 8
      let e := t.groupEntry x.unit x.c.asid n
      let v := match e.1 with
        | some (_, w) => if grpValid w then groupWord x.c.record n w else 0
        | none => 0
      .next (e.2.retireRegs x (fun q => q.writeS f.d.toNat (fun _ => BitVec.ofNat 32 v) x.part)))

end Sys2Proof.Machine
end

