-- ==== Sys2Proof/Machine/Vintner.lean ====
section
/-!
DEFINITION. The Vintner around its instructions (17_matrix R320 to R322, R326 to R334): banks and the array's queue, what
a context waits for, accesses of a context, and the choice of the context that issues.
-/

namespace Sys2Proof.Machine

/-! ### Banks (R320 to R322) -/

def Cluster.activeBank (c : Cluster) : Bank := if c.active1 then c.bank1 else c.bank0
def Cluster.shadowBank (c : Cluster) : Bank := if c.active1 then c.bank0 else c.bank1
def Cluster.setActiveBank (c : Cluster) (b : Bank) : Cluster := if c.active1 then { c with bank1 := b } else { c with bank0 := b }
def Cluster.setShadowBank (c : Cluster) (b : Bank) : Cluster := if c.active1 then { c with bank0 := b } else { c with bank1 := b }

/-- The number of the shadow bank. -/
def Cluster.shadowNumber (c : Cluster) : Nat := if c.active1 then 0 else 1

/-- A step cannot start with this bank: it is not active, or exhausted. -/
def Bank.spent (b : Bank) : Bool := decide (b.state ≠ .active) || b.count == some 0

/-- A swap may replace this active bank (R322). -/
def Bank.yields (b : Bank) : Bool := b.spent || b.count.isNone

/-- Something is still read into the bank. -/
def Bank.busy (b : Bank) : Bool := decide (b.state = .filling) || b.refill

/-- A step takes one from the bank's count (R321). -/
def Bank.use (b : Bank) : Bank := { b with count := b.count.map (· - 1) }

/-- The next operation the array would start: a queued swap is handled at the step boundary and is none (R322). -/
def VCtx.nextOp (k : VCtx) : Option ArrOp := k.queue.find? (fun o => decide (o ≠ .swap))

/-- The context's queue without its first operation that is no swap. -/
def dropOp : List ArrOp → List ArrOp
  | [] => []
  | .swap :: t => .swap :: dropOp t
  | _ :: t => t

/-- A queued swap proceeds at this boundary: the operations queued before it have started, one is queued behind it, the
shadow is ready, and the active bank gives way (R322, R335). -/
def Cluster.swapDue (c : Cluster) (k : VCtx) : Bool :=
  k.queue.head? == some .swap && k.nextOp.isSome && decide (c.shadowBank.state = .ready) && !c.shadowBank.refill
    && !c.activeBank.refill && c.activeBank.yields

/-- The banks projected past one queued operation (R338): active and shadow bank, whether a swap is queued; none when a
step finds no weights. A filling bank counts as ready. -/
def projectOp (st : Bank × Bank × Bool) (o : ArrOp) : Option (Bank × Bank × Bool) :=
  let swapped := fun (q : Bank × Bank × Bool) =>
    if q.2.2 && (decide (q.2.1.state = .ready) || decide (q.2.1.state = .filling)) && q.1.yields then
      ({ q.2.1 with state := .active }, ({} : Bank), false)
    else q
  match o with
  | .swap => some (st.1, st.2.1, true)
  | .step _ _ _ _ _ _ _ _ _ _ =>
    let q := swapped st
    if q.1.spent then none else some (q.1.use, q.2)
  | _ => some (swapped st)

/-- The projection over a queue. -/
def projectAll (st : Bank × Bank × Bool) : List ArrOp → Option (Bank × Bank × Bool)
  | [] => some st
  | o :: t =>
    match projectOp st o with
    | none => none
    | some q => projectAll q t

/-! ### Accumulators and tokens (R326, R327) -/

/-- The accumulator that an operation names: index and allocation. -/
def ArrOp.target : ArrOp → Option (Nat × Nat)
  | .swap => none
  | .step _ _ acc id _ _ _ _ _ _ => some (acc, id)
  | .zero acc id _ => some (acc, id)
  | .free acc id _ => some (acc, id)
  | .drain acc id _ _ _ _ _ _ _ _ _ _ => some (acc, id)

/-- The accumulator of an operation, if it is still the one that the operation was queued for (R337). -/
def Cluster.opAcc (c : Cluster) (o : ArrOp) : Option Acc :=
  match o.target with
  | none => none
  | some (n, id) => match SMap.find c.accs n with
    | some a => if a.id = id then some a else none
    | none => none

/-- The operation waits at the head of the queue for its token (R327). -/
def Cluster.tokenHeld (c : Cluster) (o : ArrOp) : Bool :=
  match c.opAcc o with
  | some a => a.token.isSome
  | none => false

/-- The context waits on a token at the head of its queue. -/
def Cluster.onToken (c : Cluster) (k : VCtx) : Bool := match k.nextOp with | some o => c.tokenHeld o | none => false

/-! ### What a context waits for (R329, R331) -/

/-- The context waits for a page. -/
def VCtx.onPage (k : VCtx) : Bool := match k.wait with | some (.page _ _ _) => true | _ => false

/-- A context stops at an access: a fault ends its card, a missing page is requested. -/
def State.vStop (s : State) (x : VRun) (acc : Access) (f : Fail) (va : W64) : State :=
  match f with
  | .fault k => s.vFault x k
  | _ =>
    let pg := pageOf va
    (s.vWait x (.page x.k.card.asid pg false)).unitRequest x.unit x.k.card.asid pg (f.union acc) f.leaf (.unit x.unit x.cls)

/-- Every queued operation and fill of the context is performed; a swap that no operation follows never proceeds. -/
def State.vPerformed (s : State) (x : VRun) : Bool :=
  let c := s.cluster x.cluster
  x.k.nextOp.isNone && !c.bank0.busy && !c.bank1.busy

/-- Wait until the context's operations and fills are performed: on a token it gives way, else it stays (R329). -/
def State.vAfterAll (s : State) (x : VRun) (f : State → Out) : Out :=
  if s.vPerformed x then f s
  else if (s.cluster x.cluster).onToken x.k then .next (s.vWait x .token)
  else .next s

/-- Wait for a slot of the array's queue (R334). -/
def State.vRoom (s : State) (x : VRun) (f : State → Out) : Out :=
  if x.k.queue.length < 8 then f s else .next (s.vWait x .queue)

/-- A 64-byte descriptor or a word that a context reaches as an atomic access does (R252, 18_engines R375). The faults are
those of a part, under origin 1. -/
def State.vWord (s : State) (x : VRun) (size : Nat) (va : W64) : Except (Fail × W64) Page × State :=
  let r := s.translate x.unit x.k.card.asid va .atomic
  let stop := fun (k : FaultKind) => (Except.error (Fail.fault k, va), r.2)
  match r.1 with
  | .error f => (.error (f, va), r.2)
  | .ok p =>
    if vaNat va % size ≠ 0 then stop .misalignedData
    else if p.control || (!p.local && !p.remote) then stop .protection
    else if p.kind = .ws ∨ p.kind = .pv then stop .illegalKind
    else if p.remote && !r.2.routeValid p.peer then stop .peerLost
    else if p.remote then stop .unsupportedRequest
    else if r.2.poisonedIn [(p, size)] then stop .uncorrectableData
    else (.ok p, r.2)

/-- The context's stop flag (R330): the nested scheduler has ended the time slice of the card's guest. -/
def State.vStopPending (s : State) (x : VRun) : Bool := (s.die (dieOfCluster x.cluster)).ended.contains x.k.card.guest

/-- The wait of a context is over. -/
def State.vOver (s : State) (cl : Nat) (k : VCtx) (w : VWait) : Bool :=
  let c := s.cluster cl
  let asid := k.card.asid
  match w with
  | .page _ _ _ => false
  | .fill key => match SMap.find c.tiles key with | some t => t.pending == 0 | none => true
  | .queue => decide (k.queue.length < 8)
  | .token => !c.onToken k
  | .seq va v =>
    match (s.translate (.vintner cl) asid va .read).1 with
    | .ok p => !p.local || decide (v ≤ Memory.readNat s.mem p.pa 8)
    | .error _ => true
  | .ring va =>
    match (s.translate (.vintner cl) asid va .read).1 with
    | .ok p => !p.local || !(s.descAt p).full
    | .error _ => true
  | .slice => !(s.die (dieOfCluster cl)).ended.contains k.card.guest

/-! ### VINTNER_SWITCH (R329) -/

/-- A recorded bank, emptied: what it held is read again before the context's next array operation. -/
def Bank.recorded (b : Bank) : Bank :=
  match b.state with
  | .empty => {}
  | .active => if b.count = some 0 then { b with data := [], refill := false } else { b with data := [], refill := true }
  | _ => { b with state := .filling, data := [], refill := true }

/-- The context may issue: it does not wait, or its wait is over. -/
def State.vReady (s : State) (cl : Nat) (k : VCtx) : Bool := match k.wait with | none => true | some w => s.vOver cl k w

/-- The class whose context the Vintner issues from next: the highest that does not wait. When all wait, the array goes on
with the highest that only lacks room in its queue. -/
def State.vChoice (s : State) (cl : Nat) : Option Nat :=
  let c := s.cluster cl
  let classes := [3, 2, 1, 0]
  let has := fun (p : VCtx → Bool) (n : Nat) => match SMap.find c.vctx n with | some k => p k | none => false
  match classes.find? (has (s.vReady cl)) with
  | some n => some n
  | none => classes.find? (has (fun k => decide (k.wait = some .queue) && !c.onToken k))

/-- The Vintner leaves its context: its banks are recorded with it, and emptied. -/
def Cluster.leaveContext (c : Cluster) : Cluster :=
  let c1 := match c.vcur with
    | some m => match SMap.find c.vctx m with
      | some k => { c with vctx := SMap.put c.vctx m { k with saved := some (c.bank0, c.bank1, c.active1) } }
      | none => c
    | none => c
  { c1.emptyBanks with vcur := none }

/-- The banks go with the context that leaves, and come with the one that takes over. -/
def Cluster.switchTo (c : Cluster) (n : Nat) : Cluster :=
  let c2 := { c.leaveContext with vcur := some n }
  match SMap.find c2.vctx n with
  | none => c2
  | some k =>
    let c3 := { c2 with vctx := SMap.put c2.vctx n { k with saved := none } }
    match k.saved with
    | some (b0, b1, a) => { c3 with bank0 := b0.recorded, bank1 := b1.recorded, active1 := a }
    | none => c3

/-- VINTNER_SWITCH: the Vintner goes to the context it issues from, whose wait is over. -/
def execVintnerSwitch (cluster : Nat) (s : State) : Out :=
  let cl := cluster % 64
  match s.vChoice cl with
  | none => .next s
  | some n =>
    let c := s.cluster cl
    let c1 := if c.vcur = some n then c else c.switchTo n
    let c2 := match SMap.find c1.vctx n with
      | some k => if s.vReady cl k then { c1 with vctx := SMap.put c1.vctx n { k with wait := none } } else c1
      | none => c1
    .next (s.setCluster cl c2)

/-! ### Cards (R328, R332) -/

/-- The dispatched Vintner card of a cluster and class: its die, group and the card. -/
def State.dispatchedCard (s : State) (cl cls : Nat) : Option (Nat × Nat × Card) :=
  s.dies.findSome? (fun p => p.2.groups.findSome? (fun q =>
    (q.2.cards.find? (fun k => k.vintner && k.cluster == cl && k.cls == cls && decide (k.state = .dispatched) && k.ended.isNone)).map
      (fun k => (p.1, q.1, k))))

/-- VINTNER_CARD_START (R328, R60): a context is loaded from a dispatched card, every register zero; the Vintner reads the
descriptor of its ASID (10_pages R210). -/
def execVintnerCardStart (cluster cls : Nat) (s : State) : Out :=
  let cl := cluster % 64
  match s.dispatchedCard cl (cls % 4) with
  | none => .next s
  | some (die, group, k) =>
    let c := s.cluster cl
    if (SMap.find c.vctx (cls % 4)).isSome then .next s
    else
      let run := { k with state := .running }
      let s1 := s.setGroup die group ((s.group die group).setCard run)
      .next ((s1.setCluster cl { c with vctx := SMap.put c.vctx (cls % 4) { die := die, group := group, card := run } }).loadAsid
        (.vintner cl) k.asid)

/-- The code address of a card: 0 selects the product card (R332). -/
def Card.code (c : Card) : W64 := blkWord c.block 24

/-- PROGRAM_CARD (R332): a program card runs from its code address. -/
def execProgramCard (cluster cls : Nat) (s : State) : Out :=
  let cl := cluster % 64
  let c := s.cluster cl
  match SMap.find c.vctx (cls % 4) with
  | none => .next s
  | some k =>
    if k.card.code = 0 ∨ k.prod ≠ 0 then .next s
    else .next (s.setCluster cl { c with vctx := SMap.put c.vctx (cls % 4) { k with pc := k.card.code, prod := 1 } })

end Sys2Proof.Machine
end

