-- ==== Sys2Proof/Machine/Queue.lean ====
section
/-!
DEFINITION. The queue instructions of parts and of the Vintner (18_engines R375 to R381): majors 0x2D to 0x2F.
-/

namespace Sys2Proof.Machine

/-! ### The part's side -/

/-- A release at device scope for the issuing part (R376). -/
def State.releasePart (s : State) (x : Ctx) : State := (s.drain x.crew x.gang x.mask 5).released x.crew x.gang x.mask 5

/-- The shape of the class on a part: the operand address is read, the part's earlier accesses are performed when the
instruction is a release, and the address is checked as an atomic access (R375); what the part has issued for the bytes comes
first (14_ordering R283). `size` is 64 for a descriptor, 8 for a word. -/
def State.queueOp (s : State) (a : BitVec 6) (size : Nat) (op : Option HomeOp) (rel : Bool)
    (act : Ctx → State → Nat → W64 → Page → Out) : Out :=
  s.issue { past := .waits } (fun x t =>
    match x.uslice with
    | none => .next (t.retireHere x)
    | some k =>
      let addr := x.g.regs.getS2 k a.toNat
      let t1 := if rel then t.releasePart x else t
      let r := t1.placeWord x .atomic op size size true addr
      match r.1 with
      | .error (f, va) => .next (r.2.stopUniform x .atomic f va)
      | .ok p => act x ((r.2.beforeAtomic x false size [(0, p)]).requestRead [(p, size)] x.writer) k addr p)

/-- The control word of a descriptor and an entry break R356 or R376. -/
def pushBad (ctl : Nat) (entry : W64) : Bool :=
  ctlBad ctl || (natBits ctl 6 2 == 1 && (entry.getLsbD 5 || bitsAt entry 0 2 != 0))

/-- Append an entry for a part (R376). -/
def State.partPush (s : State) (x : Ctx) (addr : W64) (p : Page) (entry : W64) : Out :=
  if pushBad (Memory.desc s.mem p.pa).ctl entry then .next (s.takeTrap x { kind := .malformedCommand })
  else
    let r := s.pushRing x.unit x.c.asid x.writer p entry
    match r.1 with
    | .done => .next (r.2.retireHere x)
    | .full => .next (r.2.waitPart x 4 0 addr.toNat)
    | .fail f va => .next (r.2.stopUniform x .write f va)

/-- A new tail breaks R377. -/
def tailBad (d : Desc) (v : Nat) : Bool := decide (v < d.tail) || (!d.grow && decide (d.head + d.size < v))

/-! ### The Vintner's side -/

/-- The same on a Vintner's context, which performs its earlier operations and fills before a release (R281). -/
def State.vQueueOp (s : State) (x : VRun) (a : BitVec 6) (size : Nat) (rel : Bool) (act : State → W64 → Page → Out) : Out :=
  let body := fun (t : State) =>
    let addr := x.k.getS2 a.toNat
    let r := t.vWord x size addr
    match r.1 with
    | .error (f, va) => .next (r.2.vStop x .atomic f va)
    | .ok p => act r.2 addr p
  if rel then s.vAfterAll x body else body s

/-- `qpush` (R376). -/
def execQpush (f : OpS) (s : State) : Out :=
  match s.cur with
  | .vintner _ =>
    s.issueV (fun x t => t.vQueueOp x f.a 64 true (fun u addr p =>
      let entry := x.k.getS2 f.d.toNat
      if pushBad (Memory.desc u.mem p.pa).ctl entry then .next (u.vFault x .malformedCommand)
      else
        let r := u.pushRing x.unit x.k.card.asid (.unit x.unit) p entry
        match r.1 with
        | .done => .next ((r.2.releasedBy (.unit x.unit)).vRetire x x.k)
        | .full => .next (r.2.vWait x (.ring addr))
        | .fail g va => .next (r.2.vStop x .write g va)))
  | _ => s.queueOp f.a 64 none true (fun x t k addr p => t.partPush x addr p (x.g.regs.getS2 k f.d.toNat))

/-- `qtail` (R377). -/
def execQtail (f : OpS) (s : State) : Out :=
  match s.cur with
  | .vintner _ =>
    s.issueV (fun x t => t.vQueueOp x f.a 64 true (fun u _ p =>
      let v := (x.k.getS2 f.d.toNat).toNat
      if tailBad (Memory.desc u.mem p.pa) v then .next (u.vFault x .malformedCommand)
      else .next (((u.releasedBy (.unit x.unit)).putAt (.unit x.unit) (p.plus 8) 8 v).vRetire x x.k)))
  | _ => s.queueOp f.a 64 none true (fun x t k _ p =>
      let v := (x.g.regs.getS2 k f.d.toNat).toNat
      if tailBad (Memory.desc t.mem p.pa) v then .next (t.takeTrap x { kind := .malformedCommand })
      else .next ((t.putAt x.writer (p.plus 8) 8 v).retireHere x))

/-- `seqwait` (R378). -/
def execSeqwait (f : OpS) (s : State) : Out :=
  match s.cur with
  | .vintner _ =>
    s.issueV (fun x t => t.vQueueOp x f.a 8 false (fun u addr p =>
      let v := (x.k.getS2 f.d.toNat).toNat
      if v ≤ Memory.readNat u.mem p.pa 8 then .next (u.vRetire x x.k) else .next (u.vWait x (.seq addr v))))
  | _ => s.queueOp f.a 8 none false (fun x t k addr p =>
      let v := (x.g.regs.getS2 k f.d.toNat).toNat
      if v ≤ Memory.readNat t.mem p.pa 8 then .next (t.retireHere x) else .next (t.waitPart x 5 v addr.toNat))

/-! ### dsub, vsub, csub (R379) -/

/-- A block with op `op` (any for 256) may be submitted to a ring. -/
def submitBad (d : Desc) (op : Nat) (block : W64) (b : BitVec 512) : Bool :=
  ctlBad d.ctl || d.cons != 1 || bitsAt block 0 6 != 0 || blkBad b || (op != 256 && blkOp b != op)

/-- The shape of the submissions: the block is read and checked, and its entry, with the crew's class, is pushed. -/
def State.submit (s : State) (f : OpS) (op : Nat) : Out :=
  s.queueOp f.a 64 none true (fun x t k addr p =>
    let block := x.g.regs.getS2 k f.d.toNat
    let r := t.unitRead x.unit x.c.asid block 64 .read
    match r.1 with
    | .error (e, va) => .next (r.2.stopUniform x .read e va)
    | .ok bs =>
      if submitBad (Memory.desc r.2.mem p.pa) op block (BitVec.ofNat 512 (bytesNat bs)) then
        .next (r.2.takeTrap x { kind := .malformedCommand })
      else r.2.partPush x addr p (block ||| BitVec.ofNat 64 (16 + 4 * recClass x.c.record)))

def execDsub (f : OpS) (s : State) : Out := s.submit f 2
def execVsub (f : OpS) (s : State) : Out := s.submit f 3
def execCsub (f : OpS) (s : State) : Out := s.submit f 256

/-! ### qhead and seqread (R380, R381) -/

/-- The head of a ring goes to every slice of the part. -/
def State.putHead (s : State) (x : Ctx) (d : BitVec 6) (v : Nat) : Out :=
  .next (s.retireRegs x (fun q => q.writeS2 d.toNat (fun _ => BitVec.ofNat 64 v) x.part))

/-- `qhead`. -/
def execQhead (f : OpS) (s : State) : Out :=
  s.queueOp f.a 64 none false (fun x t _ _ p => t.putHead x f.d (Memory.desc t.mem p.pa).head)

/-- `qhead.wait`: first it waits while the ring is empty. -/
def execQheadWait (f : OpS) (s : State) : Out :=
  s.queueOp f.a 64 none false (fun x t _ addr p =>
    let r := Memory.desc t.mem p.pa
    if r.head = r.tail then .next (t.waitPart x 4 1 addr.toNat) else t.putHead x f.d r.head)

/-- `seqread`: a read, which any port carries. -/
def execSeqread (f : OpS) (s : State) : Out :=
  s.queueOp f.a 8 (some (.int .add)) false (fun x t _ _ p =>
    if p.remote ∧ (x.g.slice x.low).remote = 0 then .next (t.waitPart x 3 1 0)
    else (t.spent [(p, 8)]).putHead x f.d (bytesNat (t.pieceData [(p, 8)])))

end Sys2Proof.Machine
end

