-- ==== Sys2Proof/Machine/Rational.lean ====
section
/-!
DEFINITION. Exact rational arithmetic for the coprocessor units (20_coprocessors R399 to R420): values with infinities
and NaN, and their one rounding to a format (04_numbers R77, R83, R84, R96).
-/

namespace Sys2Proof.Machine

/-- A value: NaN, an infinity, or a rational number with the sign that it has when it is zero. -/
inductive Ext where
  | nan
  | inf (neg : Bool)
  | fin (q : Rat) (neg : Bool)
deriving DecidableEq, Repr

/-- m × 2^e. -/
def ratScale (m : Int) (e : Int) : Rat := if 0 ≤ e then ((m * 2 ^ e.toNat : Int) : Rat) else mkRat m (2 ^ (-e).toNat)

/-- The value of a floating value. -/
def FpVal.ext : FpVal → Ext
  | .nan _ => .nan
  | .inf n => .inf n
  | .zero n => .fin 0 n
  | .num n m e => .fin (ratScale (if n then -(m : Int) else m) e) n

/-- The value of a code. -/
def FpFmt.ext (f : FpFmt) (code : Nat) : Ext := (f.value code).ext

/-- A rational that is no negative zero. -/
def Ext.of (q : Rat) : Ext := .fin q (decide (q < 0))

/-- The rational of a finite value. -/
def Ext.rat? : Ext → Option Rat
  | .fin q _ => some q
  | _ => none

/-- A value is a NaN. -/
def Ext.isNan : Ext → Bool
  | .nan => true
  | _ => false

def Ext.negate : Ext → Ext
  | .nan => .nan
  | .inf n => .inf (!n)
  | .fin q n => .fin (-q) (!n)

/-- The sign. -/
def Ext.neg : Ext → Bool
  | .nan => false
  | .inf n => n
  | .fin q n => if q = 0 then n else decide (q < 0)

/-- The exact product; 0 × ∞ has no numeric result. -/
def Ext.mul (x y : Ext) : Ext :=
  match x, y with
  | .nan, _ => .nan
  | _, .nan => .nan
  | .inf a, .inf b => .inf (a != b)
  | .inf a, .fin q n => if q = 0 then .nan else .inf (a != (Ext.fin q n).neg)
  | .fin q n, .inf b => if q = 0 then .nan else .inf ((Ext.fin q n).neg != b)
  | .fin q m, .fin r n => .fin (q * r) ((Ext.fin q m).neg != (Ext.fin r n).neg)

/-- The exact sum; ∞ − ∞ has no numeric result, and a zero sum is negative only when both terms are (R83). -/
def Ext.add (x y : Ext) : Ext :=
  match x, y with
  | .nan, _ => .nan
  | _, .nan => .nan
  | .inf a, .inf b => if a = b then .inf a else .nan
  | .inf a, _ => .inf a
  | _, .inf b => .inf b
  | .fin q m, .fin r n =>
    .fin (q + r) (if q + r = 0 then (Ext.fin q m).neg && (Ext.fin r n).neg else decide (q + r < 0))

/-- x < y; false when either is a NaN. -/
def Ext.lt (x y : Ext) : Bool :=
  match x, y with
  | .nan, _ => false
  | _, .nan => false
  | .inf a, .inf b => a && !b
  | .inf a, _ => a
  | _, .inf b => !b
  | .fin q _, .fin r _ => decide (q < r)

/-- x = y; false when either is a NaN. -/
def Ext.eq (x y : Ext) : Bool := !x.isNan && !y.isNan && !x.lt y && !y.lt x

/-- x ≤ y; false when either is a NaN. -/
def Ext.le (x y : Ext) : Bool := x.lt y || x.eq y

/-- minimumNumber and maximumNumber (R96): −0 is below +0. -/
def Ext.pick (isMax : Bool) (x y : Ext) : Ext :=
  if x.isNan then y
  else if y.isNan then x
  else
    let less := x.lt y || (x.eq y && x.neg && !y.neg)
    if less = isMax then y else x

/-- An exact value whose one rounding to a format is that of the rational. -/
def Exact.ofRat (f : FpFmt) (q : Rat) : Exact :=
  let n := q.num.natAbs
  let k := bitLen q.den + f.manBits + 4
  { neg := decide (q < 0), mant := n * 2 ^ k / q.den, exp := -(k : Int), sticky := decide (n * 2 ^ k % q.den ≠ 0) }

/-- The code of a value in a format: one rounding in a mode of R83. -/
def Ext.code (f : FpFmt) (mode : Nat) (x : Ext) : Nat :=
  match x with
  | .nan => f.nanCode
  | .inf n => f.infCode + f.zeroCode n
  | .fin q n => if q = 0 then f.zeroCode n else (roundTo f { mode := mode } (Exact.ofRat f q)).1

/-- The FP32 register of a value, rounded to nearest even. -/
def Ext.f32 (x : Ext) : W32 := BitVec.ofNat 32 (x.code .f32 0)

/-- The nearest integer, ties to the even one. -/
def rneInt (q : Rat) : Int :=
  let fl := q.floor
  let r := q - (fl : Rat)
  if r < mkRat 1 2 then fl else if mkRat 1 2 < r then fl + 1 else if fl % 2 = 0 then fl else fl + 1

/-- A weighted sum, exactly. -/
def weighted (l : List (Rat × Ext)) : Ext :=
  match l.map (fun p => (Ext.of p.1).mul p.2) with
  | [] => .fin 0 false
  | x :: t => t.foldl Ext.add x

/-- The value of an FP32 register. -/
def f32Val (w : W32) : Ext := FpFmt.f32.ext w.toNat

end Sys2Proof.Machine
end

