-- ==== Sys2Proof/Machine/Copro.lean ====
section
/-!
DEFINITION. What the coprocessor units share (20_coprocessors R390 to R393): reading memory under a call's ASID, faults
and page requests, status words, and the descriptor of a render target.

A unit's work on a call is a pure computation over the memory as it stands (`Look`), which keeps a list of what it read;
`State.touch` then leaves what those reads leave behind.
-/

namespace Sys2Proof.Machine

/-- What a unit's work may meet (R391): a fault, with its address when it has one, or a page that is not present or in
transition. -/
inductive CopStop where
  | fault (k : FaultKind) (va : Option W64)
  | page (va : W64) (f : Fail) (acc : Access)
deriving DecidableEq, Repr

/-- A unit's work: it reads memory, keeps the runs it read, and ends in a value or a stop. -/
abbrev Look := ExceptT CopStop (StateM (List (W64 × Nat)))

/-- A fault without an address. -/
def Look.bad {α : Type} (k : FaultKind) : Look α := throw (.fault k none)

/-- Check a condition of the descriptor or operand rules. -/
def Look.check (ok : Bool) (k : FaultKind) : Look Unit := if ok then pure () else throw (.fault k none)

/-- A failed translation of a unit's access: a page that its call was refused (10_pages R222) is a fault. -/
def State.copStop (s : State) (cl : Nat) (k : Call) (f : Fail) (va : W64) (acc : Access) : CopStop :=
  match f with
  | .fault e => .fault e (some va)
  | f =>
    if (s.cluster cl).refused.contains (k.id, pageOf va) then .fault .unmappedAddress (some va) else .page va f acc

/-- Read bytes for a call. -/
def State.look (s : State) (cl : Nat) (k : Call) (va : W64) (n : Nat) : Look (List Byte) := do
  modify (fun l => (va, n) :: l)
  match (s.unitRead (.coprocessor cl) k.asid va n .read).1 with
  | .ok bs => pure bs
  | .error (f, at_) => throw (s.copStop cl k f at_ .read)

/-- Check that bytes can be written for a call, and give the kind of their page. -/
def State.lookWrite (s : State) (cl : Nat) (k : Call) (va : W64) (n : Nat) (acc : Access) : Look Unit :=
  match (s.translateSpan (.coprocessor cl) k.asid va n acc (n / 4096 + 2)).1 with
  | .ok ps => if ps.any (fun p => p.1.control) then throw (.fault .protection (some va)) else pure ()
  | .error (f, at_) => throw (s.copStop cl k f at_ acc)

/-- What the reads of a call's work leave behind: translations, A bits, counts of line requests. -/
def State.touch (s : State) (u : UnitId) (asid : Nat) (l : List (W64 × Nat)) (w : Writer := .unit u) : State :=
  l.reverse.foldl (fun t r => (t.unitRead u asid r.1 r.2 .read w).2) s

/-- The unit that serves a call, as an agent (14_ordering R275). -/
def Call.writer (k : Call) (cl : Nat) : Writer := .cop cl k.unit

/-- A unit writes for a call; what does not translate is not written (notes/assumptions/37). -/
def State.callWrite (s : State) (cl : Nat) (k : Call) (va : W64) (bs : List Byte) : State :=
  (s.unitWrite (.coprocessor cl) k.asid va bs (k.writer cl)).2

/-- The unit files a page request for a call, unless it waits for the page already (R391). -/
def State.copPage (s : State) (cl : Nat) (k : Call) (va : W64) (f : Fail) (acc : Access) : State :=
  let c := s.cluster cl
  let w : Waiter := .unit (.coprocessor cl) k.id
  if (c.merge ++ c.mergeHeld).any (fun e => e.asid == k.asid && e.page == pageOf va && e.waiters.contains w) then s
  else s.unitRequest (.coprocessor cl) k.asid (pageOf va) (f.union acc) f.leaf w

/-- Run a unit's work: its result, and the state with what its reads leave. -/
def State.runLook {α : Type} (s : State) (cl : Nat) (k : Call) (m : Look α) : Except CopStop α × State :=
  let r := m.run.run []
  (r.1, s.touch (.coprocessor cl) k.asid r.2 (k.writer cl))

/-- The cause code of a fault of a unit (R391). -/
def copCause (k : FaultKind) : Nat := causeCode 3 k

/-- The status word of a fault (R390). -/
def faultStatus (k : FaultKind) : W32 := BitVec.ofNat 32 (copCause k * 2 ^ 16 + 4)

/-- The active lanes of a call, rising. -/
def Call.laneList (k : Call) : List Nat := (List.range 32).filter (fun i => k.lanes.getLsbD i)

/-- Operand n of a lane. -/
def Call.v (k : Call) (n lane : Nat) : W32 := SMap.getD k.vregs (32 * n + lane) 0

/-- Register n of the `s` block. -/
def Call.s (k : Call) (n : Nat) : W32 := k.sregs.getD n 0

/-- A pair of the `s` block. -/
def Call.s2 (k : Call) (n : Nat) : W64 := pairOf (k.s n) (k.s (n + 1))

/-- A record of lists of words, one list per lane. -/
def Call.record (k : Call) (f : Nat → List W32) (cursor : Option W32) : Record :=
  { call := k
    words := k.laneList.foldl (fun m i => ((f i).zipIdx).foldl (fun m w => SMap.setD m (32 * w.2 + i) w.1 0) m) []
    cursor := cursor }

/-- Bytes as a natural number. -/
def fieldNat (bs : List Byte) (off n : Nat) : Nat := bytesNat ((bs.drop off).take n)

/-- The FP32 value at an offset. -/
def fieldF32 (bs : List Byte) (off : Nat) : Ext := FpFmt.f32.ext (fieldNat bs off 4)

/-- A run of bytes is zero. -/
def fieldZero (bs : List Byte) (off n : Nat) : Bool := fieldNat bs off n == 0

/-! ### Render targets (R393) -/

/-- Fields of a render target. -/
def tgColour (d : BitVec 512) : W64 := d.extractLsb' 0 64
def tgDepth (d : BitVec 512) : W64 := d.extractLsb' 64 64
def tgStencil (d : BitVec 512) : W64 := d.extractLsb' 128 64
def tgWidth (d : BitVec 512) : Nat := bitsAt d 192 16
def tgHeight (d : BitVec 512) : Nat := bitsAt d 208 16
/-- RGBA16F. -/
def tgHalf (d : BitVec 512) : Bool := d.getLsbD 224
/-- Samples of a pixel. -/
def tgSamples (d : BitVec 512) : Nat := if bitsAt d 225 2 = 1 then 4 else 1
def tgOwner (d : BitVec 512) : Nat := bitsAt d 232 8
def tgStream (d : BitVec 512) : Nat := bitsAt d 256 64
def tgCommit (d : BitVec 512) : Nat := bitsAt d 320 64

/-- A render target descriptor breaks R393. -/
def tgBad (d : BitVec 512) : Bool :=
  tgWidth d == 0 || decide (16384 < tgWidth d) || tgHeight d == 0 || decide (16384 < tgHeight d)
  || decide (1 < bitsAt d 225 2) || bitsAt d 227 5 != 0 || decide (63 < tgOwner d) || bitsAt d 240 16 != 0
  || bitsAt d 288 32 != 0 || bitsAt d 445 2 != 0 || bitsAt d 448 64 != 0

/-- Read a render target: at a multiple of 64 (R391), on an RC page. -/
def State.lookTarget (s : State) (cl : Nat) (k : Call) (va : W64) : Look (BitVec 512) := do
  Look.check (bitsAt va 0 6 == 0) .coprocessorDescriptor
  let bs ← s.look cl k va 64
  match (s.translate (.coprocessor cl) k.asid va .read).1 with
  | .ok p => Look.check (decide (p.kind = .rc)) .coprocessorDescriptor
  | .error _ => pure ()
  let d := BitVec.ofNat 512 (bytesNat bs)
  Look.check (!tgBad d) .coprocessorDescriptor
  pure d

end Sys2Proof.Machine
end

