-- ==== Sys2Proof/Machine/Raster.lean ====
section
/-!
DEFINITION. The rasteriser (20_coprocessors R399 to R404): snapped vertices, covered samples in walk order, the weights
of a sample, and bins.
-/

namespace Sys2Proof.Machine

/-! ### Triangles (R399 to R401) -/

/-- A point in 1/256-pixel units. -/
abbrev Pt := Int × Int

/-- Snap a coordinate (R399). -/
def snap (x : Ext) : Option Int :=
  match x with
  | .fin q _ => let n := rneInt (256 * q); if n.natAbs ≤ 2 ^ 23 then some n else none
  | _ => none

/-- E(i, j, P). -/
def edgeFn (a b p : Pt) : Int := (b.1 - a.1) * (p.2 - a.2) - (b.2 - a.2) * (p.1 - a.1)

/-- A snapped triangle. -/
structure Tri where
  v0 : Pt
  v1 : Pt
  v2 : Pt
deriving DecidableEq, Repr

/-- A := E(0, 1, V2). -/
def Tri.area (t : Tri) : Int := edgeFn t.v0 t.v1 t.v2

/-- The order of the walk: V0, V2, V1 when A is below zero. -/
def Tri.walk (t : Tri) : Tri := if t.area < 0 then { t with v1 := t.v2, v2 := t.v1 } else t

/-- The point of sample k of a pixel (R400). -/
def samplePoint (samples x y k : Nat) : Pt :=
  let o : Nat × Nat :=
    if samples = 1 then (128, 128)
    else match k with
      | 0 => (96, 32)
      | 1 => (224, 96)
      | 2 => (32, 160)
      | _ => (160, 224)
  ((256 * x + o.1 : Nat), (256 * y + o.2 : Nat))

/-- A point is on the inner side of a directed edge (R400). -/
def edgeIn (a b p : Pt) : Bool :=
  let e := edgeFn a b p
  let dx := b.1 - a.1
  let dy := b.2 - a.2
  decide (0 < e) || (e == 0 && (decide (dy < 0) || (dy == 0 && decide (0 < dx))))

/-- A triangle in walk order covers a point. -/
def Tri.covers (t : Tri) (p : Pt) : Bool := edgeIn t.v0 t.v1 p && edgeIn t.v1 t.v2 p && edgeIn t.v2 t.v0 p

/-- The least and the greatest of three. -/
def least3 (a b c : Int) : Int := min a (min b c)
def most3 (a b c : Int) : Int := max a (max b c)

/-- The candidate range of one axis, clipped to below `n` (R401): first and last, or none. -/
def candRange (lo hi : Int) (n : Nat) : Option (Nat × Nat) :=
  let a := max 0 (lo / 256)
  let b := min ((n : Int) - 1) ((hi + 255) / 256)
  if a ≤ b then some (a.toNat, b.toNat) else none

/-- The candidate rectangle: ranges of x and y. -/
def Tri.rect (t : Tri) (w h : Nat) : Option ((Nat × Nat) × (Nat × Nat)) :=
  match candRange (least3 t.v0.1 t.v1.1 t.v2.1) (most3 t.v0.1 t.v1.1 t.v2.1) w,
        candRange (least3 t.v0.2 t.v1.2 t.v2.2) (most3 t.v0.2 t.v1.2 t.v2.2) h with
  | some a, some b => some (a, b)
  | _, _ => none

/-- Numbers a to b. -/
def upTo (a b : Nat) : List Nat := (List.range (b + 1 - a)).map (a + ·)

/-- Candidate samples in walk order: screen tiles, pixels of a tile, samples of a pixel (R401). -/
def walkSamples (xs ys : Nat × Nat) (samples : Nat) : List (Nat × Nat × Nat) :=
  (upTo (ys.1 / 8) (ys.2 / 8)).flatMap (fun ty => (upTo (xs.1 / 8) (xs.2 / 8)).flatMap (fun tx =>
    (upTo (max ys.1 (8 * ty)) (min ys.2 (8 * ty + 7))).flatMap (fun y =>
      (upTo (max xs.1 (8 * tx)) (min xs.2 (8 * tx + 7))).flatMap (fun x =>
        (List.range samples).map (fun k => (x, y, k))))))

/-- The covered samples of a triangle, numbered by their places. -/
def Tri.covered (t : Tri) (w h samples : Nat) : List (Nat × Nat × Nat) :=
  if t.area = 0 then []
  else match t.rect w h with
    | none => []
    | some (xs, ys) => (walkSamples xs ys samples).filter (fun p => t.walk.covers (samplePoint samples p.1 p.2.1 p.2.2))

/-- A pixel word (R402). -/
def pixelWord (p : Nat × Nat × Nat) : W32 := BitVec.ofNat 32 (p.1 + p.2.1 * 2 ^ 14 + p.2.2 * 2 ^ 28)

/-- The screen weights of a sample point for the original vertices. -/
def Tri.weights (t : Tri) (p : Pt) : Rat × Rat × Rat :=
  let a : Rat := (t.area : Rat)
  let m1 := (edgeFn t.v2 t.v0 p : Rat) / a
  let m2 := (edgeFn t.v0 t.v1 p : Rat) / a
  (1 - m1 - m2, m1, m2)

/-! ### rast (R402) -/

/-- What a `rast` call comes to: words of each lane, and the cursor. -/
def State.rastWork (s : State) (cl : Nat) (k : Call) : Look ((Nat → List W32) × W32) := do
  let q := fun v => f32Val (k.s (4 * v + 3))
  Look.check ((List.range 3).all (fun v => match q v with | .fin r _ => decide (0 < r) | _ => false)) .coprocessorOperand
  let ctl := k.s 13
  Look.check (bitsAt ctl 3 29 == 0) .coprocessorDescriptor
  Look.check (bitsAt ctl 0 2 != 3) .coprocessorOperand
  let xy := fun v => (snap (f32Val (k.s (4 * v))), snap (f32Val (k.s (4 * v + 1))))
  match xy 0, xy 1, xy 2 with
  | (some x0, some y0), (some x1, some y1), (some x2, some y2) =>
    let t : Tri := { v0 := (x0, y0), v1 := (x1, y1), v2 := (x2, y2) }
    let d ← s.lookTarget cl k (k.s2 14)
    let front := decide (0 < t.area) != ctl.getLsbD 2
    let cull := (bitsAt ctl 0 2 == 1 && !front) || (bitsAt ctl 0 2 == 2 && front)
    let c := (k.s 12).toNat
    let cov := if c = 0xFFFFFFFF ∨ cull then [] else t.covered (tgWidth d) (tgHeight d) (tgSamples d)
    let lanes := k.laneList
    let give := (cov.drop c).take lanes.length
    let more := decide (c + give.length < cov.length)
    let words := fun i =>
      let st := (if more then 1 else 0) + (if front then 512 else 0)
      match give[lanes.idxOf i]? with
      | none => [BitVec.ofNat 32 st]
      | some p =>
        let m := t.weights (samplePoint (tgSamples d) p.1 p.2.1 p.2.2)
        let z := weighted [(m.1, f32Val (k.s 2)), (m.2.1, f32Val (k.s 6)), (m.2.2, f32Val (k.s 10))]
        let qr := fun v => ((q v).rat?).getD 1
        let sum := m.1 * qr 0 + m.2.1 * qr 1 + m.2.2 * qr 2
        [BitVec.ofNat 32 (st + 256), pixelWord p, z.f32, (Ext.of (m.2.1 * qr 1 / sum)).f32, (Ext.of (m.2.2 * qr 2 / sum)).f32]
    pure (words, if more then BitVec.ofNat 32 (c + give.length) else 0xFFFFFFFF)
  | _, _, _ => Look.bad .coprocessorOperand

/-! ### Bins (R403, R404) -/

/-- A bin buffer descriptor. -/
structure Bins where
  base : W64
  across : Nat
  down : Nat
  capacity : Nat
deriving DecidableEq, Repr

/-- Read a bin buffer descriptor: its list base is a multiple of 4 (R391). -/
def State.lookBins (s : State) (cl : Nat) (k : Call) (va : W64) : Look Bins := do
  let bs ← s.look cl k va 64
  let b : Bins := { base := BitVec.ofNat 64 (fieldNat bs 0 8), across := fieldNat bs 8 2, down := fieldNat bs 10 2
                    capacity := fieldNat bs 12 4 }
  Look.check (bitsAt b.base 0 2 == 0 && decide (1 ≤ b.capacity) && decide (b.capacity ≤ 65535) && fieldZero bs 16 48)
    .coprocessorDescriptor
  pure b

/-- The address of word n of bin (bx, by). -/
def Bins.word (b : Bins) (bx by_ n : Nat) : W64 :=
  b.base + BitVec.ofNat 64 ((by_ * b.across + bx) * (4 * (b.capacity + 1)) + 4 * n)

/-- What the next primitive of a `rastbin` call comes to: full bins, or the bins to append to, each with its count. -/
def State.binWork (s : State) (cl : Nat) (k : Call) (b : Bins) (d : BitVec 512) (p : Nat) :
    Look (Option (List (W64 × W64))) := do
  let bs ← s.look cl k (k.s2 0 + BitVec.ofNat 64 (48 * p)) 48
  let xy := fun v => (snap (fieldF32 bs (16 * v)), snap (fieldF32 bs (16 * v + 4)))
  match xy 0, xy 1, xy 2 with
  | (some x0, some y0), (some x1, some y1), (some x2, some y2) =>
    let t : Tri := { v0 := (x0, y0), v1 := (x1, y1), v2 := (x2, y2) }
    match (if t.area = 0 then none else t.rect (tgWidth d) (tgHeight d)) with
    | none => pure (some [])
    | some (xs, ys) =>
      let hit := ((upTo (ys.1 / 64) (ys.2 / 64)).filter (fun j => decide (j < b.down))).flatMap (fun j =>
        ((upTo (xs.1 / 64) (xs.2 / 64)).filter (fun i => decide (i < b.across))).map (fun i => (i, j)))
      let counts ← hit.mapM (fun q => do
        let c ← s.look cl k (b.word q.1 q.2 0) 4
        pure (q, bytesNat c))
      if counts.any (fun q => decide (b.capacity ≤ q.2)) then pure none
      else
        counts.forM (fun q => do
          s.lookWrite cl k (b.word q.1.1 q.1.2 0) 4 .atomic
          s.lookWrite cl k (b.word q.1.1 q.1.2 (q.2 + 1)) 4 .write)
        pure (some (counts.map (fun q => (b.word q.1.1 q.1.2 0, b.word q.1.1 q.1.2 (q.2 + 1)))))
  | _, _, _ => Look.bad .coprocessorOperand

/-- Append a primitive to a bin: the entry, then its count by an atomic at its home slice (R403). -/
def State.binAppend (s : State) (cl : Nat) (k : Call) (p : Nat) (q : W64 × W64) : State :=
  let u : UnitId := .coprocessor cl
  let s1 := (s.unitWrite u k.asid q.2 (natBytes 4 p)).2
  let r := s1.translate u k.asid q.1 .atomic
  match r.1 with
  | .ok pg => if pg.local then (r.2.atomic pg.kind (.unit u) (.int .add) pg.pa 4 1 0).2.2 else r.2
  | .error _ => r.2

/-- Where a `rastbin` call comes to: done or full with its last word, a fault at a primitive, or a page it waits for at a
primitive. -/
inductive BinEnd where
  | status (st p : Nat)
  | fault (k : FaultKind) (p : Nat)
  | page (p : Nat) (va : W64) (f : Fail) (acc : Access)
deriving DecidableEq, Repr

/-- Bin `n` primitives from p. -/
def State.binRun (s : State) (cl : Nat) (k : Call) (b : Bins) (d : BitVec 512) (p : Nat) : Nat → BinEnd × State
  | 0 => (.status 0 p, s)
  | n + 1 =>
    let r := s.runLook cl k (s.binWork cl k b d p)
    match r.1 with
    | .error (.fault e _) => (.fault e p, r.2)
    | .error (.page va f acc) => (.page p va f acc, r.2)
    | .ok none => (.status 3 p, r.2)
    | .ok (some l) => (l.foldl (fun t q => t.binAppend cl k p q) r.2).binRun cl k b d (p + 1) n

/-- The counts that `binflush` clears, each of which it may write (R404). -/
def State.flushWork (s : State) (cl : Nat) (k : Call) : Look (List W64) := do
  let b ← s.lookBins cl k (k.s2 0)
  let ws := (List.range (b.across * b.down)).map (fun n => b.word n 0 0)
  ws.forM (fun w => s.lookWrite cl k w 4 .write)
  pure ws

end Sys2Proof.Machine
end

