-- ==== Sys2Proof/Machine/Pixel.lean ====
section
/-!
DEFINITION. The depth and stencil unit and the blender (20_coprocessors R405 to R408): their state words, and one lane's
step on its sample.
-/

namespace Sys2Proof.Machine

/-! ### State words -/

/-- The state of a `zs` call breaks R405: a reserved bit is set. -/
def zsBad (k : Call) : Bool := bitsAt (k.s 0) 18 14 != 0 || bitsAt (k.s 1) 24 8 != 0

/-- The state of a `blnd` call breaks R407: a reserved bit, op or factor. -/
def blndBad (k : Call) : Bool :=
  let w := k.s 0
  bitsAt w 24 8 != 0 || bitsAt (k.s 1) 4 28 != 0 || decide (4 < bitsAt w 0 3) || decide (4 < bitsAt w 3 3)
  || [6, 10, 14, 18].any (fun b => decide (9 < bitsAt w b 4))

/-- A call is a `blnd`. -/
def Call.isBlend (k : Call) : Bool := k.minor == 2

/-- LAST of a depth or blend call. -/
def Call.last (k : Call) : Bool := (k.s 0).getLsbD (if k.isBlend then 22 else 17)

/-- Pixel and sample of a pixel word (R402). -/
def pixelX (w : W32) : Nat := bitsAt w 0 14
def pixelY (w : W32) : Nat := bitsAt w 14 14
def pixelK (w : W32) : Nat := bitsAt w 28 2

/-- A pixel word lies in the target (R406; notes/assumptions/33). -/
def pixelOk (d : BitVec 512) (w : W32) : Bool :=
  decide (pixelX w < tgWidth d) && decide (pixelY w < tgHeight d) && decide (pixelK w < tgSamples d)

/-- The number of a sample's element in each buffer (R393). -/
def pixelElem (d : BitVec 512) (w : W32) : Nat := (pixelY w * tgWidth d + pixelX w) * tgSamples d + pixelK w

/-- The number of a pixel's screen tile (R397). -/
def pixelTile (w : W32) : Nat := pixelY w / 8 * 2048 + pixelX w / 8

/-! ### zs (R405, R406) -/

/-- A compare code on an order. -/
def compareCode (code : Nat) (lt eq : Bool) : Bool :=
  match code with
  | 0 => false
  | 1 => lt
  | 2 => eq
  | 3 => lt || eq
  | 4 => !lt && !eq
  | 5 => !eq
  | 6 => !lt
  | _ => true

/-- The depth compare: a NaN z fails; against a stored NaN "not equal" and "always" pass. -/
def depthPass (code : Nat) (z stored : Ext) : Bool :=
  if z.isNan then false
  else if stored.isNan then code == 5 || code == 7
  else compareCode code (z.lt stored) (z.eq stored)

/-- A stencil op on 8 bits. -/
def stencilOp (op st ref : Nat) : Nat :=
  match op with
  | 0 => st
  | 1 => 0
  | 2 => ref
  | 3 => min 255 (st + 1)
  | 4 => st - 1
  | 5 => 255 - st
  | 6 => (st + 1) % 256
  | _ => (st + 255) % 256

/-- A write of a sample: address, bytes. -/
abbrev SampleWrite := W64 × List Byte

/-- The address of an element of a buffer. -/
def elemAddr (base : W64) (n size : Nat) : W64 := base + BitVec.ofNat 64 (n * size)

/-- A `zs` lane's step: its status word, and its writes. -/
def State.zsWork (s : State) (cl : Nat) (k : Call) (d : BitVec 512) (lane elem : Nat) : Look (W32 × List SampleWrite) := do
  let w := k.s 0
  let ref := bitsAt (k.s 1) 0 8
  let rmask := (k.s 1).extractLsb' 8 8
  let wmask := (k.s 1).extractLsb' 16 8
  let sen := w.getLsbD 4
  let za := elemAddr (tgDepth d) elem 4
  let sa := elemAddr (tgStencil d) elem 1
  let st ← if tgStencil d = 0 then pure 0 else (do let b ← s.look cl k sa 1; pure (bytesNat b))
  let stored ← if tgDepth d = 0 then pure 0 else (do let b ← s.look cl k za 4; pure (bytesNat b))
  let a := (BitVec.ofNat 8 ref &&& rmask).toNat
  let b := (BitVec.ofNat 8 st &&& rmask).toNat
  let sp := !sen || tgStencil d == 0 || compareCode (bitsAt w 5 3) (decide (a < b)) (a == b)
  let z := k.v 2 lane
  let zp := tgDepth d == 0 || depthPass (bitsAt w 0 3) (f32Val z) (FpFmt.f32.ext stored)
  let pass := sp && zp
  let op := if pass then bitsAt w 14 3 else if sp then bitsAt w 11 3 else bitsAt w 8 3
  let zw := pass && w.getLsbD 3 && tgDepth d != 0
  let sw := sen && tgStencil d != 0
  let st1 : Byte := (BitVec.ofNat 8 (stencilOp op st ref) &&& wmask) ||| (BitVec.ofNat 8 st &&& ~~~ wmask)
  if zw then s.lookWrite cl k za 4 .write
  if sw then s.lookWrite cl k sa 1 .write
  pure (if pass then 256 else 0, (if zw then [(za, natBytes 4 z.toNat)] else []) ++ (if sw then [(sa, [st1])] else []))

/-! ### blnd (R407, R408) -/

/-- A value clamped to [0, 1], NaN read as 0. -/
def clamp01 (x : Ext) : Ext :=
  match x with
  | .nan => .fin 0 false
  | x => if x.lt (.fin 0 false) then .fin 0 false else if (Ext.fin 1 false).lt x then .fin 1 false else x

/-- 1 − x. -/
def oneMinus (x : Ext) : Ext := (Ext.fin 1 false).add x.negate

/-- A factor for a channel, from the source and destination colours (R407). -/
def factor (code : Nat) (src dst : Nat → Ext) (ch : Nat) : Ext :=
  match code with
  | 0 => .fin 0 false
  | 1 => .fin 1 false
  | 2 => src ch
  | 3 => oneMinus (src ch)
  | 4 => src 3
  | 5 => oneMinus (src 3)
  | 6 => dst ch
  | 7 => oneMinus (dst ch)
  | 8 => dst 3
  | _ => oneMinus (dst 3)

/-- The exact result of a channel (R407). -/
def blendValue (w : W32) (src dst : Nat → Ext) (ch : Nat) : Ext :=
  if !w.getLsbD 23 then src ch
  else
    let alpha := ch == 3
    let op := bitsAt w (if alpha then 3 else 0) 3
    let x := (src ch).mul (factor (bitsAt w (if alpha then 14 else 6) 4) src dst ch)
    let y := (dst ch).mul (factor (bitsAt w (if alpha then 18 else 10) 4) src dst ch)
    match op with
    | 0 => x.add y
    | 1 => x.add y.negate
    | 2 => y.add x.negate
    | 3 => (src ch).pick false (dst ch)
    | _ => (src ch).pick true (dst ch)

/-- The 8-bit code of a value in [0, 1]: rne(255 × x). -/
def unorm8 (x : Ext) : Nat :=
  match clamp01 x with
  | .fin q _ => (rneInt (255 * q)).toNat
  | _ => 0

/-- The value of an 8-bit code. -/
def unormVal (c : Nat) : Ext := .fin (mkRat c 255) false

/-- A `blnd` lane's step: its status word, and its writes. A target without a colour buffer has nothing to read or write
(notes/assumptions/34). -/
def State.blndWork (s : State) (cl : Nat) (k : Call) (d : BitVec 512) (lane elem : Nat) : Look (W32 × List SampleWrite) := do
  let mask := k.s 1
  if tgColour d = 0 then pure (0, [])
  else
    let half := tgHalf d
    let size := if half then 8 else 4
    let at_ := elemAddr (tgColour d) elem size
    let bs ← s.look cl k at_ size
    let raw := fun ch => f32Val (k.v (2 + ch) lane)
    let src := fun ch => if half then raw ch else clamp01 (raw ch)
    let dst := fun ch => if half then FpFmt.h16.ext (fieldNat bs (2 * ch) 2) else unormVal (fieldNat bs ch 1)
    let chans := (List.range 4).filter (fun ch => mask.getLsbD ch)
    let ws := chans.map (fun ch =>
      let v := blendValue (k.s 0) src dst ch
      if half then (at_ + BitVec.ofNat 64 (2 * ch), natBytes 2 (v.code .h16 0))
      else (at_ + BitVec.ofNat 64 ch, natBytes 1 (unorm8 v)))
    ws.forM (fun q => s.lookWrite cl k q.1 q.2.length .write)
    pure (0, ws)

end Sys2Proof.Machine
end

