-- ==== Sys2Proof/Machine/Texture.lean ====
section
/-!
DEFINITION. The texture filter (20_coprocessors R409 to R412).
-/

namespace Sys2Proof.Machine

/-- A texture descriptor (R409). -/
structure Tex where
  base : W64
  width : Nat
  height : Nat
  /-- RGBA16F. -/
  half : Bool
  levels : Nat
  sampler : W32
deriving DecidableEq, Repr

/-- Read a texture descriptor: at a multiple of 32, with its level 0 at a multiple of 256. -/
def State.lookTex (s : State) (cl : Nat) (k : Call) (va : W64) : Look Tex := do
  Look.check (bitsAt va 0 5 == 0) .coprocessorDescriptor
  let bs ← s.look cl k va 32
  let t : Tex := { base := BitVec.ofNat 64 (fieldNat bs 0 8), width := fieldNat bs 8 2, height := fieldNat bs 10 2
                   half := fieldNat bs 12 1 % 2 == 1, levels := fieldNat bs 13 1, sampler := BitVec.ofNat 32 (fieldNat bs 16 4) }
  let side := fun n => decide (1 ≤ n) && decide (n ≤ 16384)
  Look.check (bitsAt t.base 0 8 == 0 && side t.width && side t.height && decide (fieldNat bs 12 1 < 2)
    && decide (1 ≤ t.levels) && decide (t.levels ≤ 15) && fieldZero bs 14 2 && fieldZero bs 20 12) .coprocessorDescriptor
  pure t

/-- Width and height of a level. -/
def Tex.wide (t : Tex) (l : Nat) : Nat := max 1 (t.width / 2 ^ l)
def Tex.high (t : Tex) (l : Nat) : Nat := max 1 (t.height / 2 ^ l)
/-- Bytes of a texel. -/
def Tex.size (t : Tex) : Nat := if t.half then 8 else 4

/-- The offset of a level: each starts at the end of the one before, rounded up to a multiple of 256. -/
def Tex.level (t : Tex) : Nat → Nat
  | 0 => 0
  | l + 1 => (t.level l + t.wide l * t.high l * t.size + 255) / 256 * 256

/-- The sampler word breaks R410. -/
def samplerBad (w : W32) : Bool := bitsAt w 7 25 != 0 || bitsAt w 0 2 == 3 || bitsAt w 2 2 == 3

/-- Wrap an index into [0, n) (R410). -/
def wrapIndex (mode : Nat) (n : Nat) (i : Int) : Nat :=
  match mode with
  | 0 => (i % n).toNat
  | 1 => (max 0 (min ((n : Int) - 1) i)).toNat
  | _ => let m := (i % (2 * n)).toNat; if m < n then m else 2 * n - 1 - m

/-- The nearest index of a coordinate, wrapped. An infinite coordinate clamps; under repeat and mirror the spec gives no
index (notes/assumptions/31). -/
def nearest (free key mode n : Nat) (u : Ext) : Nat :=
  match u with
  | .nan => wrapIndex mode n 0
  | .fin q _ => wrapIndex mode n (q * (n : Rat)).floor
  | .inf neg => if mode = 1 then (if neg then 0 else n - 1) else Config.infiniteTexel free key % n

/-- The quantised bilinear coordinate Q (R411). -/
def bilinear (n : Nat) (u : Ext) : Int :=
  match u with
  | .nan => rneInt (256 * (0 - mkRat 1 2))
  | .fin q _ => max (-2 ^ 30) (min (2 ^ 30) (rneInt (256 * (q * (n : Rat) - mkRat 1 2))))
  | .inf neg => if neg then -2 ^ 30 else 2 ^ 30

/-- The level of a lookup (R411). -/
def texLevel (t : Tex) (lod : Ext) : Nat :=
  match lod with
  | .nan => 0
  | .fin q _ => (max 0 (min ((t.levels : Int) - 1) (rneInt q))).toNat
  | .inf neg => if neg then 0 else t.levels - 1

/-- The four texels of a bilinear lookup, with their 16-bit weights. -/
def bilinearTaps (t : Tex) (l : Nat) (w : W32) (u v : Ext) : List ((Nat × Nat) × Nat) :=
  let qx := bilinear (t.wide l) u
  let qy := bilinear (t.high l) v
  let fu := (qx % 256).toNat
  let fv := (qy % 256).toNat
  let x := fun (d : Int) => wrapIndex (bitsAt w 0 2) (t.wide l) (qx / 256 + d)
  let y := fun (d : Int) => wrapIndex (bitsAt w 2 2) (t.high l) (qy / 256 + d)
  [((x 0, y 0), (256 - fu) * (256 - fv)), ((x 1, y 0), fu * (256 - fv)), ((x 0, y 1), (256 - fu) * fv), ((x 1, y 1), fu * fv)]

/-- The channels of a texel. -/
def State.texel (s : State) (cl : Nat) (k : Call) (t : Tex) (l : Nat) (p : Nat × Nat) : Look (List Ext) := do
  let bs ← s.look cl k (t.base + BitVec.ofNat 64 (t.level l + (p.2 * t.wide l + p.1) * t.size)) t.size
  pure ((List.range 4).map (fun ch => if t.half then FpFmt.h16.ext (fieldNat bs (2 * ch) 2) else unormVal (fieldNat bs ch 1)))

/-- A filtered lookup: R, G, B, A, each rounded once to FP32 (R411); `key` names the lookup. -/
def State.sample (s : State) (cl : Nat) (k : Call) (t : Tex) (w : W32) (key : Nat) (u v lod : Ext) : Look (List W32) := do
  let l := texLevel t lod
  let taps : List ((Nat × Nat) × Nat) :=
    if w.getLsbD 4 then (bilinearTaps t l w u v).filter (fun p => p.2 != 0)
    else [((nearest s.free (2 * key) (bitsAt w 0 2) (t.wide l) u, nearest s.free (2 * key + 1) (bitsAt w 2 2) (t.high l) v), 65536)]
  let texels ← taps.mapM (fun p => do let c ← s.texel cl k t l p.1; pure (mkRat p.2 65536, c))
  pure ((List.range 4).map (fun ch => (weighted (texels.map (fun q => (q.1, q.2.getD ch .nan)))).f32))

/-- The uniform operands of a texture call: the descriptor and the sampler word (R412). -/
def State.texUniform (s : State) (cl : Nat) (k : Call) : Look Tex := do
  Look.check (k.s 3 == 0) .coprocessorDescriptor
  Look.check (!samplerBad (k.s 2)) .coprocessorDescriptor
  s.lookTex cl k (k.s2 0)

/-- One lane of `tex` (0), `texg` (1) or `texq` (2): its record. -/
def State.texLane (s : State) (cl : Nat) (k : Call) (t : Tex) (lane : Nat) : Look (List W32) :=
  let w := k.s 2
  let op := fun n => f32Val (k.v n lane)
  match k.minor with
  | 0 => do
    let c ← s.sample cl k t w lane (op 0) (op 1) (op 2)
    pure (0 :: c)
  | 1 => do
    let l := texLevel t (op 2)
    let c ← (bilinearTaps t l w (op 0) (op 1)).mapM (fun p => s.texel cl k t l p.1)
    pure (0 :: c.map (fun q => (q.getD (bitsAt w 5 2) .nan).f32))
  | _ =>
    let l := (k.v 0 lane).toNat
    let n := fun (x : Nat) => if l < t.levels then BitVec.ofNat 32 x else 0
    pure [0, n (t.wide l), n (t.high l), BitVec.ofNat 32 t.levels]

end Sys2Proof.Machine
end

