-- ==== Sys2Proof/Machine/Traverse.lean ====
section
/-!
DEFINITION. The ray traversal unit (20_coprocessors R413 to R420): rays, boxes, the exact triangle test, alpha tests, the
walk of a tree, and procedural candidates.
-/

namespace Sys2Proof.Machine

/-! ### Rays and boxes (R416) -/

/-- A triple of rationals. -/
structure V3 where
  x : Rat
  y : Rat
  z : Rat
deriving DecidableEq, Repr

/-- Component a of a triple. -/
def V3.at_ (v : V3) (a : Nat) : Rat := match a with | 0 => v.x | 1 => v.y | _ => v.z

/-- A ray with its interval. -/
structure Ray where
  o : V3
  d : V3
  tmin : Rat
  tmax : Rat
deriving DecidableEq, Repr

/-- The ray of a lane: every component is finite, d is not 0, and tmin does not exceed tmax (R416). -/
def Call.ray (k : Call) (lane : Nat) : Option Ray :=
  match (List.range 8).mapM (fun n => (f32Val (k.v n lane)).rat?) with
  | some [ox, oy, oz, lo, dx, dy, dz, hi] =>
    if (dx = 0 ∧ dy = 0 ∧ dz = 0) ∨ hi < lo then none
    else some { o := ⟨ox, oy, oz⟩, d := ⟨dx, dy, dz⟩, tmin := lo, tmax := hi }
  | _ => none

/-- The box in 24 bytes at an offset: min x, y, z, max x, y, z; none for one that is never entered (R413). -/
def boxOf (bs : List Byte) (off : Nat) : Option (List (Ext × Ext)) :=
  let l := (List.range 3).map (fun a => (fieldF32 bs (off + 4 * a), fieldF32 bs (off + 12 + 4 * a)))
  if l.any (fun p => p.1.isNan || p.2.isNan || p.2.lt p.1) then none else some l

/-- The greater and the lesser of two values that are no NaN. -/
def Ext.max2 (x y : Ext) : Ext := if x.lt y then y else x
def Ext.min2 (x y : Ext) : Ext := if y.lt x then y else x

/-- The values of t for which a ray lies between two planes of an axis. -/
def slab (o d : Rat) (b : Ext × Ext) : Option (Ext × Ext) :=
  let at_ := fun (e : Ext) => ((e.add (.fin (-o) false)).mul (.fin (1 / d) (decide (d < 0))))
  if d = 0 then (if b.1.le (Ext.of o) && (Ext.of o).le b.2 then some (.inf true, .inf false) else none)
  else
    let p := at_ b.1
    let q := at_ b.2
    some (p.min2 q, p.max2 q)

/-- The exact slab interval of a box, or none when it is empty. -/
def Ray.slabs (r : Ray) (b : List (Ext × Ext)) : Option (Ext × Ext) :=
  let one := fun (acc : Option (Ext × Ext)) (p : Nat × (Ext × Ext)) =>
    match acc, slab (r.o.at_ p.1) (r.d.at_ p.1) p.2 with
    | some a, some c => some (a.1.max2 c.1, a.2.min2 c.2)
    | _, _ => none
  match (b.zipIdx.map (fun p => (p.2, p.1))).foldl one (some (.inf true, .inf false)) with
  | some i => if i.2.lt i.1 then none else some i
  | none => none

/-- The slab interval of a box that meets [tmin, hi]. -/
def Ray.meets (r : Ray) (hi : Rat) (b : Option (List (Ext × Ext))) : Option (Ext × Ext) :=
  match b with
  | none => none
  | some l =>
    match r.slabs l with
    | some i => if i.1.le (Ext.of hi) && (Ext.of r.tmin).le i.2 then some i else none
    | none => none

/-! ### The triangle test (R417) -/

/-- The exact result of the test of a triangle that the ray hits. -/
structure TriHit where
  t : Rat
  w1 : Rat
  w2 : Rat
  back : Bool
deriving DecidableEq, Repr

/-- A point projected along the ray: px, py, pz. -/
def Ray.project (r : Ray) (v : V3) : V3 :=
  let ad := fun a => (if r.d.at_ a < 0 then -(r.d.at_ a) else r.d.at_ a)
  let k := if ad 1 ≤ ad 0 ∧ ad 2 ≤ ad 0 then 0 else if ad 2 ≤ ad 1 then 1 else 2
  let a := (k + 1) % 3
  let b := (k + 2) % 3
  let kx := if r.d.at_ k < 0 then b else a
  let ky := if r.d.at_ k < 0 then a else b
  let p := fun n => v.at_ n - r.o.at_ n
  let dk := r.d.at_ k
  ⟨p kx - r.d.at_ kx / dk * p k, p ky - r.d.at_ ky / dk * p k, p k / dk⟩

/-- An edge from p to q, reversed when det is below zero, takes the points on it. -/
def edgeTakes (back : Bool) (p q : V3) : Bool :=
  let ex := if back then p.x - q.x else q.x - p.x
  let ey := if back then p.y - q.y else q.y - p.y
  decide (ey < 0) || (ey == 0 && decide (0 < ex))

/-- The test of a triangle. -/
def Ray.triangle (r : Ray) (v0 v1 v2 : V3) : Option TriHit :=
  let p0 := r.project v0
  let p1 := r.project v1
  let p2 := r.project v2
  let u := p1.x * p2.y - p1.y * p2.x
  let v := p2.x * p0.y - p2.y * p0.x
  let w := p0.x * p1.y - p0.y * p1.x
  let det := u + v + w
  if det = 0 then none
  else
    let back := decide (det < 0)
    let inside := fun (e : Rat) (a b : V3) => if e = 0 then edgeTakes back a b else decide (e < 0) == back
    if inside u p1 p2 && inside v p2 p0 && inside w p0 p1 then
      let t := (u * p0.z + v * p1.z + w * p2.z) / det
      if r.tmin ≤ t ∧ t ≤ r.tmax then some { t := t, w1 := v / det, w2 := w / det, back := back } else none
    else none

/-! ### Leaf entries (R414, R418) -/

/-- A hit that was accepted. -/
structure Hit where
  hit : TriHit
  prim : Nat
  addr : Nat
deriving DecidableEq, Repr

/-- A hit goes before another (R419). -/
def Hit.before (a b : Hit) : Bool :=
  decide (a.hit.t < b.hit.t) || (a.hit.t == b.hit.t && (decide (a.prim < b.prim) || (a.prim == b.prim && decide (a.addr < b.addr))))

/-- The vertex at an offset of an entry, when it is finite: a triangle that has none is missed, for no edge function of it
has a sign (notes/assumptions/35). -/
def vertexOf (bs : List Byte) (off : Nat) : Option V3 :=
  match (fieldF32 bs off).rat?, (fieldF32 bs (off + 4)).rat?, (fieldF32 bs (off + 8)).rat? with
  | some x, some y, some z => some ⟨x, y, z⟩
  | _, _, _ => none

/-- The alpha test of a candidate (R418): 255 × alpha is compared with the threshold exactly. -/
def State.alphaTest (s : State) (cl : Nat) (k : Call) (lane : Nat) (bs : List Byte) (addr : Nat) (h : TriHit) : Look Bool := do
  let threshold := fieldNat bs 47 1
  if fieldNat bs 40 1 % 2 = 0 ∨ threshold = 0 then pure true
  else
    Look.check (k.s2 2 != 0) .coprocessorDescriptor
    let t ← s.lookTex cl k (k.s2 2 + BitVec.ofNat 64 (32 * fieldNat bs 44 3))
    Look.check (!samplerBad t.sampler) .coprocessorDescriptor
    let uv := fun c => FpFmt.f32.ext ((weighted ([(1 - h.w1 - h.w2, 0), (h.w1, 1), (h.w2, 2)].map (fun (p : Rat × Nat) =>
      (p.1, FpFmt.h16.ext (fieldNat bs (48 + 4 * p.2 + 2 * c) 2))))).code .f32 0)
    let c ← s.sample cl k t t.sampler (lane + 32 * addr) (uv 0) (uv 1) (.fin 0 false)
    pure ((Ext.of (threshold : Rat)).le ((Ext.fin 255 false).mul (f32Val (c.getD 3 0))))

/-- Entry n of a triangle leaf block, against the best hit so far. Every hit is tested, one behind the best too: the fault of
its sample is the lane's (R415, R418). -/
def State.triEntry (s : State) (cl : Nat) (k : Call) (r : Ray) (lane : Nat) (best : Option Hit) (addr : Nat) : Look (Option Hit) := do
  let bs ← s.look cl k (BitVec.ofNat 64 addr) 64
  Look.check (fieldNat bs 40 4 < 2 && fieldZero bs 60 4) .coprocessorDescriptor
  match vertexOf bs 0, vertexOf bs 12, vertexOf bs 24 with
  | some a, some b, some c =>
    match r.triangle a b c with
    | none => pure best
    | some h =>
      let x : Hit := { hit := h, prim := fieldNat bs 36 4, addr := addr }
      let ok ← s.alphaTest cl k lane bs addr h
      pure (if ok && (match best with | some y => x.before y | none => true) then some x else best)
  | _, _, _ => pure best

/-- A procedural candidate (R420): its slab interval, entry address and identifier. -/
structure Cand where
  te : Ext
  tx : Ext
  addr : Nat
  ident : Nat
deriving DecidableEq, Repr

/-- Entry n of a procedural leaf block, for the interval [tmin, hi]. -/
def State.procEntry (s : State) (cl : Nat) (k : Call) (r : Ray) (hi : Rat) (addr : Nat) : Look (List Cand) := do
  let bs ← s.look cl k (BitVec.ofNat 64 addr) 64
  Look.check (fieldZero bs 36 24 && fieldZero bs 60 4) .coprocessorDescriptor
  pure (match r.meets hi (boxOf bs 0) with
    | some i => [{ te := i.1, tx := i.2, addr := addr, ident := fieldNat bs 24 4 }]
    | none => [])

/-! ### The walk (R413, R419) -/

/-- The children of an inner node: type, address, entries and box. -/
def State.lookNode (s : State) (cl : Nat) (k : Call) (addr : Nat) : Look (List (Nat × Nat × Nat × Option (List (Ext × Ext)))) := do
  let bs ← s.look cl k (BitVec.ofNat 64 addr) 128
  let kids := (List.range 4).map (fun j =>
    let e := fieldNat bs (96 + 8 * j) 8
    (e % 4, e / 128 * 128, e / 4 % 32, boxOf bs (24 * j)))
  Look.check (kids.all (fun c => match c.1 with
    | 0 => c.2.1 == 0 && c.2.2.1 == 0
    | 1 => c.2.2.1 == 0
    | _ => c.2.2.1 != 0)) .coprocessorDescriptor
  pure kids

/-- The upper end of the interval of the candidates: tmax, or the t of the result (R420). -/
def Ray.upper (r : Ray) (best : Option Hit) : Rat := match best with | some h => h.hit.t | none => r.tmax

/-- Walk the tree below an inner node, child by child, over the whole interval of the ray, so that what is read does not depend
on the order (notes/assumptions/36); `fuel` is how many nodes a path may still hold. -/
def State.walkHits (s : State) (cl : Nat) (k : Call) (r : Ray) (lane : Nat) : Nat → Nat → Option Hit → Look (Option Hit)
  | 0, _, _ => Look.bad .coprocessorDescriptor
  | fuel + 1, addr, best => do
    let kids ← s.lookNode cl k addr
    kids.foldlM (fun b c =>
      match r.meets r.tmax c.2.2.2 with
      | none => pure b
      | some _ =>
        match c.1 with
        | 1 => s.walkHits cl k r lane fuel c.2.1 b
        | 2 => (List.range c.2.2.1).foldlM (fun b n => s.triEntry cl k r lane b (c.2.1 + 64 * n)) b
        | _ => pure b) best

/-- The procedural candidates below an inner node, in the order of the walk. -/
def State.walkCands (s : State) (cl : Nat) (k : Call) (r : Ray) (hi : Rat) : Nat → Nat → Look (List Cand)
  | 0, _ => Look.bad .coprocessorDescriptor
  | fuel + 1, addr => do
    let kids ← s.lookNode cl k addr
    kids.foldlM (fun l c =>
      match r.meets hi c.2.2.2 with
      | none => pure l
      | some _ =>
        match c.1 with
        | 1 => do let m ← s.walkCands cl k r hi fuel c.2.1; pure (l ++ m)
        | 3 => (List.range c.2.2.1).foldlM (fun l n => do let m ← s.procEntry cl k r hi (c.2.1 + 64 * n); pure (l ++ m)) l
        | _ => pure l) []

/-- A candidate goes before another (R420). -/
def Cand.before (a b : Cand) : Bool := a.te.lt b.te || (a.te.eq b.te && decide (a.addr < b.addr))

/-- Insert a candidate in order. -/
def insertCand (c : Cand) : List Cand → List Cand
  | [] => [c]
  | x :: t => if c.before x then c :: x :: t else x :: insertCand c t

/-- The uniform operands of a traversal call (R415, R420). -/
def Call.travUniform (k : Call) : Look Unit := do
  Look.check (bitsAt (k.s2 0) 0 7 == 0) .coprocessorDescriptor
  Look.check (bitsAt (k.s2 2) 0 5 == 0) .coprocessorDescriptor
  if k.minor = 1 then
    Look.check (bitsAt (k.s 6) 8 24 == 0 && k.s 7 == 0) .coprocessorDescriptor
    Look.check (bitsAt (k.s 6) 0 8 != 0) .coprocessorOperand
    if bitsAt (k.s2 4) 0 4 ≠ 0 then throw (.fault .misalignedData (some (k.s2 4)))

/-- The record of a hit or a miss (R419). The spec gives no weights on a miss (notes/assumptions/30). -/
def hitWords (free lane : Nat) (best : Option Hit) (spilt : Bool) : List W32 :=
  let st := fun (n : Nat) => BitVec.ofNat 32 (n + if spilt then 1024 else 0)
  match best with
  | some h => [st (256 + if h.hit.back then 512 else 0), (Ext.of h.hit.t).f32, (Ext.of h.hit.w1).f32, (Ext.of h.hit.w2).f32,
               BitVec.ofNat 32 h.prim]
  | none => [st 0, BitVec.ofNat 32 FpFmt.f32.infCode, Config.recordWord free (64 + lane), Config.recordWord free (96 + lane), 0xFFFFFFFF]

/-- One lane of `trav` (0) or `travc` (1): its record, and the bytes it writes. -/
def State.travLane (s : State) (cl : Nat) (k : Call) (lane : Nat) : Look (List W32 × List (W64 × List Byte)) := do
  match k.ray lane with
  | none => Look.bad .coprocessorOperand
  | some r =>
    let root := (k.s2 0).toNat
    let best ← s.walkHits cl k r lane 64 root none
    if k.minor = 0 then pure (hitWords s.free lane best false, [])
    else
      let cs ← s.walkCands cl k r (r.upper best) 64 root
      let l := cs.foldl (fun l c => insertCand c l) []
      let c := bitsAt (k.s 6) 0 8
      let area := k.s2 4 + BitVec.ofNat 64 (lane * c * 16)
      let ws := (l.take c).zipIdx.map (fun p =>
        (area + BitVec.ofNat 64 (16 * p.2), natBytes 4 p.1.ident ++ natBytes 4 (p.1.te.code .f32 2) ++ natBytes 4 (p.1.tx.code .f32 3)
          ++ natBytes 4 0))
      ws.forM (fun q => s.lookWrite cl k q.1 16 .write)
      pure (hitWords s.free lane best (decide (c < l.length)) ++ [BitVec.ofNat 32 l.length], ws)

end Sys2Proof.Machine
end

