-- ==== Sys2Proof/Machine/Calls.lean ====
section
/-!
DEFINITION. Coprocessor calls (20_coprocessors R386 to R398): issue, the units' service of their queues, ordering tokens,
reorder windows, the steps of held lanes, and the return of records.
-/

namespace Sys2Proof.Machine

/-! ### Issue (R387 to R389) -/

/-- What the table of R387 says of a call: its unit, major and minor, posted or not, and how many `v` operands, `s`
registers and record registers it has. -/
structure CallShape where
  unit : CopUnit
  major : Nat
  minor : Nat
  posted : Bool := false
  nv : Nat
  ns : Nat
  nd : Nat

/-- The physical place of a render target, as a key of its owner's table. -/
def targetKey (p : Page) : Nat := p.pa + (if p.remote then (p.peer + 1) * 2 ^ 48 else 0)

/-- The cluster a call goes to (R386), with the key of its target and what the reading of the descriptor leaves: the
issuing core's, or the owner of the target that the call names. A target that cannot be read is met by the unit of the
issuing core's own cluster. -/
def State.callCluster (s : State) (own asid major : Nat) (va : W64) : Nat × Nat × State :=
  if major ≠ 0x35 ∨ bitsAt va 0 6 ≠ 0 then (own, 0, s)
  else
    let u : UnitId := .coprocessor own
    let r := s.unitRead u asid va 64 .read
    match r.1, (r.2.translate u asid va .read).1 with
    | .ok bs, .ok p => (if fieldNat bs 29 1 < 64 then fieldNat bs 29 1 else own, targetKey p, r.2)
    | _, _ => (own, 0, r.2)

/-- Record words and operands: the `v` operands of the active lanes. -/
def Ctx.callOperands (x : Ctx) (a nv : Nat) (ls : List Nat) : SMap W32 :=
  ((List.range nv).flatMap (fun j => ls.map (fun i => (j, i)))).foldl (fun m p =>
    SMap.setD m (32 * p.1 + p.2) (x.g.regs.getV (a + p.1) p.2) 0) []

/-- A take of tokens that would exceed the 4,096 live ones, with the takes queued before it, waits (R395); one that faults does
not. -/
def takeWaits (c : Cluster) (key n : Nat) (ctl : W32) : Bool :=
  let draw := match SMap.find c.targets key with | some t => t.draw | none => 0
  !ctl.getLsbD 0 && !(ctl.getLsbD 1 && draw == 4095) && decide (4096 < c.liveCount key + c.takesQueued key + n)

/-- Issue a call (R389): the part's earlier accesses are released, the call waits for room in the unit's queue and is
accepted. A part whose call is held by a reorder window waits until every lane has entered (R397). -/
def State.call (s : State) (h : CallShape) (g : BitVec 3) (d a b : BitVec 6) : Out :=
  s.issue { guard := g, vs := [(a, h.nv), (d, h.nd)], past := .waits, records := true } (fun x t =>
    let t1 := t.releasePart x
    let ls := x.lanes g.toNat
    match ls with
    | [] => .next (t1.retireHere x)
    | i :: _ =>
      let block := x.g.regs.block (i / 4) b.toNat h.ns
      let own := clusterOfCore x.c.core
      let at_ := t1.callCluster own x.c.asid h.major (pairOf (block.getD 2 0) (block.getD 3 0))
      let t2 := at_.2.2
      let cl := at_.1
      let c := t2.cluster cl
      if 16 ≤ c.queued h.unit then .next (t2.waitPart x 8 (8 * (cl + 1) + copCode h.unit) 0)
      else if h.major = 0x35 ∧ h.minor = 0 ∧ takeWaits c at_.2.1 ls.length (block.getD 0 0) then
        .next (t2.waitPart x 8 (8 * (cl + 1) + 1 + 1024 * ls.length) at_.2.1)
      else
        let n := t2.nextCall
        let k : Call :=
          { id := n, unit := h.unit, major := h.major, minor := h.minor, posted := h.posted, crew := x.crew, gang := x.gang
            slices := x.mask, lanes := laneMask ls, asid := x.c.asid, dest := d.toNat, base := b.toNat, sregs := block
            vregs := x.callOperands a.toNat h.nv ls, cluster := own, target := at_.2.1 }
        let t3 : State := { t2.setCluster cl { c with calls := c.calls ++ [k] } with nextCall := n + 1 }
        let t4 := match t3.gang? x.crew x.gang with
          | some q =>
            if h.posted then t3
            else
              let p : PendingRecord :=
                { call := n, slices := x.mask, reg := d.toNat, count := h.nd
                  cursor := if h.major = 0x34 ∧ h.minor = 0 then some (b.toNat + 12) else none }
              t3.setGang x.crew x.gang { q with records := q.records ++ [p] }
          | none => t3
        if h.major = 0x35 ∧ h.minor ≠ 0 then .next (t4.waitPart x 8 0 n) else .next (t4.retireHere x))

/-- `rast` (R402). -/
def execRast (g : BitVec 3) (d b : BitVec 6) (s : State) : Out :=
  s.call { unit := .raster, major := 0x34, minor := 0, nv := 0, ns := 16, nd := 5 } g d 0 b
/-- `rastbin` (R403). -/
def execRastbin (g : BitVec 3) (d b : BitVec 6) (s : State) : Out :=
  s.call { unit := .raster, major := 0x34, minor := 1, nv := 0, ns := 8, nd := 2 } g d 0 b
/-- `binflush` (R404). -/
def execBinflush (g : BitVec 3) (d b : BitVec 6) (s : State) : Out :=
  s.call { unit := .raster, major := 0x34, minor := 2, nv := 0, ns := 2, nd := 1 } g d 0 b
/-- `ctok` (R395). -/
def execCtok (f : OpC) (s : State) : Out :=
  s.call { unit := .depth, major := 0x35, minor := 0, nv := 1, ns := 4, nd := 2 } f.g f.d f.a f.b
/-- `zs` (R405, R406). -/
def execZs (f : OpC) (s : State) : Out :=
  s.call { unit := .depth, major := 0x35, minor := 1, nv := 3, ns := 4, nd := 1 } f.g f.d f.a f.b
/-- `zs.p` (R392, R406). -/
def execZsP (g : BitVec 3) (a b : BitVec 6) (s : State) : Out :=
  s.call { unit := .depth, major := 0x35, minor := 1, posted := true, nv := 3, ns := 4, nd := 0 } g 0 a b
/-- `blnd` (R407, R408). -/
def execBlnd (f : OpC) (s : State) : Out :=
  s.call { unit := .blend, major := 0x35, minor := 2, nv := 6, ns := 4, nd := 1 } f.g f.d f.a f.b
/-- `blnd.p` (R392, R408). -/
def execBlndP (g : BitVec 3) (a b : BitVec 6) (s : State) : Out :=
  s.call { unit := .blend, major := 0x35, minor := 2, posted := true, nv := 6, ns := 4, nd := 0 } g 0 a b
/-- `tex` (R411, R412). -/
def execTex (f : OpC) (s : State) : Out :=
  s.call { unit := .texture, major := 0x36, minor := 0, nv := 3, ns := 4, nd := 5 } f.g f.d f.a f.b
/-- `texg` (R412). -/
def execTexg (f : OpC) (s : State) : Out :=
  s.call { unit := .texture, major := 0x36, minor := 1, nv := 3, ns := 4, nd := 5 } f.g f.d f.a f.b
/-- `texq` (R412). -/
def execTexq (f : OpC) (s : State) : Out :=
  s.call { unit := .texture, major := 0x36, minor := 2, nv := 1, ns := 4, nd := 4 } f.g f.d f.a f.b
/-- `trav` (R413 to R419). -/
def execTrav (f : OpC) (s : State) : Out :=
  s.call { unit := .traversal, major := 0x37, minor := 0, nv := 8, ns := 4, nd := 5 } f.g f.d f.a f.b
/-- `travc` (R420). -/
def execTravc (f : OpC) (s : State) : Out :=
  s.call { unit := .traversal, major := 0x37, minor := 1, nv := 8, ns := 8, nd := 6 } f.g f.d f.a f.b

/-! ### The part's side of a wait for a window (R397) -/

/-- The part of a call that waits for its lanes to enter goes on: the instruction is over. A parked part's image is told
(05_work R116). -/
def State.callGoesOn (s : State) (k : Call) : State :=
  match s.crew? k.crew, s.gang? k.crew k.gang with
  | some c, some g =>
    let ks := (slicesOf k.slices).filter (fun j =>
      match (g.slice j).wait with
      | some w => w.code == 8 && w.num == 0 && w.operand == k.id
      | none => false)
    if ks.isEmpty then s
    else
      let g1 := g.passWait (sliceMask ks)
      let img := ks.flatMap (fun j =>
        let o := sliceOffset c k.gang j
        let x := g1.slice j
        [(o, natBytes 8 x.pc.toNat), (o + 8, natBytes 8 (x.part + 256 * x.depth)), (o + 16, zeros 16)])
      (s.setGang k.crew k.gang g1).imageStore k.crew c img
  | _, _ => s

/-! ### The end of a call -/

/-- A call leaves its queue; its record, when it has one, is on its way. -/
def State.endCall (s : State) (cl : Nat) (k : Call) (r : Option Record) : State :=
  let c := s.cluster cl
  s.setCluster cl { c with
    calls := c.calls.filter (fun q => q.id != k.id)
    refused := c.refused.filter (fun p => p.1 != k.id)
    records := c.records ++ (match r with | some q => if k.posted then [] else [q] | none => []) }

/-- Write a value at an address for the owner of a target, with release at `.dev`: the WS tags of the unit's lines clear
(14_ordering R284, R301). A write that does not translate has no effect (notes/assumptions/37). -/
def State.ownerWrite (s : State) (cl : Nat) (u : CopUnit) (asid : Nat) (va : W64) (v : Nat) : State :=
  ((s.releasedBy (.cop cl u)).unitWrite (.coprocessor cl) asid va (natBytes 8 v) (.cop cl u)).2

/-- Set a target's fault word unless it is set (R392, R393). A fault without an address leaves that field open
(notes/assumptions/32). -/
def State.faultWord (s : State) (cl : Nat) (u : CopUnit) (asid : Nat) (target : W64) (kind : FaultKind) (va : Option W64) : State :=
  let at_ := target + 48
  let r := s.unitRead (.coprocessor cl) asid at_ 8 .read (.cop cl u)
  match r.1 with
  | .ok bs =>
    if bytesNat bs / 2 ^ 63 = 1 then r.2
    else
      let a := match va with | some v => vaNat v | none => (Config.faultWordAddress s.free).toNat
      r.2.nextFree.ownerWrite cl u asid at_ (a + copCause kind * 2 ^ 52 + 2 ^ 63)
  | .error _ => r.2

/-- A fault of a call's uniform operands: every active lane faults (R391). A posted call sets the fault word of its target
(R392); a part that waits for a window goes on. -/
def State.callFault (s : State) (cl : Nat) (k : Call) (kind : FaultKind) (va : Option W64) : State :=
  let s1 := s.endCall cl k (some (k.record (fun _ => [faultStatus kind]) none))
  let s2 := if k.posted then s1.faultWord cl k.unit k.asid (k.s2 2) kind va else s1
  if k.major = 0x35 then s2.callGoesOn k else s2

/-- How the work on a call stops: a fault ends it, a page holds it. -/
def State.callStop (s : State) (cl : Nat) (k : Call) (e : CopStop) : State :=
  match e with
  | .fault kind va => s.callFault cl k kind va
  | .page va f acc => s.copPage cl k va f acc

/-! ### Tokens (R394 to R396) -/

/-- Enter a target in its owner's table. -/
def State.setTarget (s : State) (cl key : Nat) (t : Target) : State :=
  let c := s.cluster cl
  s.setCluster cl { c with targets := SMap.put c.targets key t }

/-- The commit word as the tokens give it: the lowest token that is live or carried by a held lane that is not performed,
else the next token of the stream (R396; notes/assumptions/38). -/
def Cluster.commitOf (c : Cluster) (key : Nat) (t : Target) : Nat :=
  let open' := t.live ++ (c.held.filter (fun h => h.target == key && !h.done)).map (·.token)
  match open' with
  | [] => t.draw * 2 ^ 20 + t.next
  | x :: r => r.foldl min x

/-- COMMIT_WORD_UPDATE (R396): the word rises only, each change written with release. -/
def State.commitTarget (s : State) (cl : Nat) (u : CopUnit) (key : Nat) : State :=
  let c := s.cluster cl
  match SMap.find c.targets key with
  | none => s
  | some t =>
    let n := c.commitOf key t
    if n ≤ t.commit then s
    else (s.setTarget cl key { t with commit := n }).ownerWrite cl u t.asid (t.va + 40) n

/-- A token is retired; lanes that a window kept for it alone leave (R397). -/
def State.retireTokens (s : State) (cl key : Nat) (toks : List Nat) : State :=
  let c := s.cluster cl
  match SMap.find c.targets key with
  | none => s
  | some t => s.setTarget cl key { t with live := t.live.filter (fun x => !toks.contains x) }

/-- A token stands in the reorder window of a tile: a lane of it has entered, and the token is live or a lane of it for the tile
is not performed (R397). -/
def Cluster.inWindow (c : Cluster) (key tile token : Nat) : Bool :=
  let mine := c.held.filter (fun h => h.target == key && h.tile == some tile && h.token == token)
  let live := match SMap.find c.targets key with | some t => t.live.contains token | none => false
  mine.any (fun h => h.entered) && (live || mine.any (fun h => !h.done))

/-- Lanes that the owner no longer holds: performed and answered, and out of their windows. -/
def State.sweepHeld (s : State) (cl : Nat) : State :=
  let c := s.cluster cl
  let kept := fun (h : HeldLane) => !h.done || !h.sent || (match h.tile with | some t => c.inWindow h.target t h.token | none => false)
  s.setCluster cl { c with held := c.held.filter kept }

/-- The target a call names, as its owner has it: cached while tokens are live, else read anew (R393, R395). -/
def State.ownTarget (s : State) (cl : Nat) (k : Call) (acc : Access) : Look (Nat × Target) := do
  let va := k.s2 2
  let d ← s.lookTarget cl k va
  if acc = .write then s.lookWrite cl k va 64 .write
  match (s.translate (.coprocessor cl) k.asid va .read).1 with
  | .error (.fault e) => throw (.fault e (some va))
  | .error f => throw (.page va f .read)
  | .ok p =>
    let key := targetKey p
    let fresh : Target :=
      { asid := k.asid, va := va, desc := d, live := [], draw := tgStream d / 2 ^ 20, next := tgStream d % 2 ^ 20
        stream := tgStream d, commit := tgCommit d }
    match SMap.find (s.cluster cl).targets key with
    | none => pure (key, fresh)
    | some t =>
      if !t.live.isEmpty then pure (key, t)
      else if t.stream = tgStream d ∧ t.commit = tgCommit d then pure (key, { t with asid := k.asid, va := va, desc := d })
      else pure (key, fresh)

/-- Take a token for each lane, rising: the lanes' words, the live tokens, and the next index (R395). -/
def takeTokens (draw : Nat) : List Nat → Nat → List (Nat × List W32) × List Nat × Nat
  | [], next => ([], [], next)
  | i :: t, next =>
    if 2 ^ 20 - 1 < next then
      let r := takeTokens draw t next
      ((i, [faultStatus .coprocessorOperand]) :: r.1, r.2)
    else
      let r := takeTokens draw t (next + 1)
      ((i, [0, BitVec.ofNat 32 (draw * 2 ^ 20 + next)]) :: r.1, (draw * 2 ^ 20 + next) :: r.2.1, r.2.2)

/-- Retire the token of each lane, rising (R395). -/
def retireLanes (tok : Nat → Nat) : List Nat → List Nat → List (Nat × List W32) × List Nat
  | [], live => ([], live)
  | i :: t, live =>
    if live.contains (tok i) then
      let r := retireLanes tok t (live.filter (fun x => x != tok i))
      ((i, [0, 0]) :: r.1, r.2)
    else
      let r := retireLanes tok t live
      ((i, [faultStatus .tokenOrder]) :: r.1, r.2)

/-- The words of a lane in a list. -/
def laneWords (l : List (Nat × List W32)) (i : Nat) : List W32 :=
  match l.find? (fun p => p.1 == i) with
  | some p => p.2
  | none => []

/-- An earlier depth or blend call of the part has lanes that have not entered their windows (R395). -/
def Cluster.entering (c : Cluster) (k : Call) : Bool :=
  let mine := fun (q : Call) => q.crew == k.crew && q.gang == k.gang && (q.slices &&& k.slices) != 0 && decide (q.id < k.id)
  c.calls.any (fun q => mine q && q.major == 0x35 && q.minor != 0) || c.held.any (fun h => !h.entered && mine h.call)

/-- Serve a `ctok` (R395): a take is one step of the stream at the owner. -/
def State.serveCtok (s : State) (cl : Nat) (k : Call) : State :=
  let ctl := k.s 0
  let r := s.runLook cl k (do
    Look.check (bitsAt ctl 2 30 == 0 && k.s 1 == 0) .coprocessorDescriptor
    s.ownTarget cl k .write)
  match r.1 with
  | .error e => r.2.callStop cl k e
  | .ok (key, t) =>
    if ctl.getLsbD 0 then
      if (r.2.cluster cl).entering k then s
      else
        let q := retireLanes (fun i => (k.v 0 i).toNat) k.laneList t.live
        let s1 := (r.2.setTarget cl key { t with live := q.2 }).endCall cl k (some (k.record (laneWords q.1) none))
        (s1.commitTarget cl k.unit key).sweepHeld cl
    else if ctl.getLsbD 1 && t.draw == 4095 then r.2.callFault cl k .coprocessorOperand none
    else if 4096 < t.live.length + k.laneList.length then s
    else
      let draw := if ctl.getLsbD 1 then t.draw + 1 else t.draw
      let q := takeTokens draw k.laneList (if ctl.getLsbD 1 then 0 else t.next)
      let word := draw * 2 ^ 20 + q.2.2 % 2 ^ 20
      let t1 : Target := { t with live := t.live ++ q.2.1, draw := draw, next := q.2.2, stream := word }
      let s1 := (r.2.setTarget cl key t1).ownerWrite cl k.unit k.asid (t.va + 32) word
      (s1.endCall cl k (some (k.record (laneWords q.1) none))).commitTarget cl k.unit key

/-! ### Depth and blend calls (R397, R398) -/

/-- The tokens of the window of a tile (R397). -/
def Cluster.window (c : Cluster) (key tile : Nat) : List Nat :=
  ((c.held.filter (fun h => h.target == key && h.tile == some tile)).map (·.token)).eraseDups.filter (c.inWindow key tile)

/-- Every lane of a depth or blend call is performed: its record returns, and LAST retires the lanes' tokens (R405, R407). -/
def State.lanesDone (s : State) (cl : Nat) (k : Call) (key : Nat) : State :=
  let c := s.cluster cl
  let mine := c.held.filter (fun h => h.call.id == k.id)
  if mine.any (fun h => !h.done) then s
  else
    let word := fun i => [((mine.find? (fun h => h.lane == i)).map (·.result)).getD 0]
    let s1 := s.endCall cl k (some (k.record word none))
    let c1 := s1.cluster cl
    let s2 := s1.setCluster cl { c1 with held := c1.held.map (fun h => if h.call.id = k.id then { h with sent := true } else h) }
    let s3 := if k.last then s2.retireTokens cl key (mine.map (·.token)) else s2
    (s3.commitTarget cl k.unit key).sweepHeld cl

/-- The lanes of a call as they are held at the owner: a token that is not live, or a pixel outside the target, faults the
lane at once (R391, R406). -/
def heldLanes (k : Call) (key : Nat) (t : Target) (order : Nat) : List HeldLane :=
  k.laneList.zipIdx.map (fun p =>
    let w := k.v 0 p.1
    let tok := (k.v 1 p.1).toNat
    let bad : Option FaultKind :=
      if !t.live.contains tok then some .tokenOrder else if !pixelOk t.desc w then some .coprocessorOperand else none
    { call := k, lane := p.1, target := key, tile := if bad.isNone then some (pixelTile w) else none
      sample := pixelElem t.desc w, token := tok, entered := bad.isSome, done := bad.isSome, sent := false
      result := match bad with | some e => faultStatus e | none => 0
      order := order + p.2 })

/-- Serve a `zs` or a `blnd`: its lanes are held for their tiles. -/
def State.serveLanes (s : State) (cl : Nat) (k : Call) : State :=
  let r := s.runLook cl k (do
    Look.check (if k.isBlend then !blndBad k else !zsBad k) .coprocessorDescriptor
    s.ownTarget cl k .read)
  match r.1 with
  | .error e => r.2.callStop cl k e
  | .ok (key, t) =>
    let hs := heldLanes k key t r.2.serial
    let s1 := r.2.setTarget cl key t
    let c := s1.cluster cl
    let s2 : State := { s1.setCluster cl { c with
        calls := c.calls.filter (fun q => q.id != k.id)
        held := c.held ++ hs } with serial := r.2.serial + hs.length }
    let s3 := if k.posted then
        (hs.filter (·.done)).foldl (fun u h =>
          u.faultWord cl k.unit k.asid t.va (if t.live.contains h.token then .coprocessorOperand else .tokenOrder) none) s2
      else s2
    let s4 := if hs.any (fun h => !h.entered) then s3 else s3.callGoesOn k
    s4.lanesDone cl k key

/-- WINDOW_ENTRY (R397): a lane enters its tile's window; when it is the last of its call, the part goes on. -/
def execWindowEntry (cluster idx : Nat) (s : State) : Out :=
  let cl := cluster % 64
  let c := s.cluster cl
  match c.held[idx]? with
  | none => .next s
  | some h =>
    match h.tile with
    | none => .next s
    | some tile =>
      let win := c.window h.target tile
      let live := match SMap.find c.targets h.target with | some t => t.live | none => []
      let lowest := live.contains h.token && live.all (fun t => decide (h.token ≤ t))
      if h.entered || !(win.contains h.token || decide (win.length < 63) || lowest) then .next s
      else
        let s1 := s.setCluster cl { c with held := c.held.map (fun q => if q = h then { q with entered := true } else q) }
        if (s1.cluster cl).held.any (fun q => q.call.id == h.call.id && !q.entered) then .next s1
        else .next (s1.callGoesOn h.call)

/-- A held lane may be performed (R398): every token below its own is retired, every lane held for its sample with a lower
token is performed, and so is every earlier lane of the sample with the same token. -/
def Cluster.performable (c : Cluster) (h : HeldLane) : Bool :=
  let live := match SMap.find c.targets h.target with | some t => t.live | none => []
  h.entered && !h.done && h.tile.isSome && live.all (fun t => decide (h.token ≤ t)) &&
    !c.held.any (fun q => !q.done && q.target == h.target && q.tile.isSome && q.sample == h.sample &&
      ((q.entered && decide (q.token < h.token)) || (q.token == h.token && decide (q.order < h.order))))

/-- A held lane is done, with its status word. -/
def State.laneDone (s : State) (cl : Nat) (h : HeldLane) (w : W32) : State :=
  let c := s.cluster cl
  (s.setCluster cl { c with held := c.held.map (fun q => if q.order = h.order ∧ q.call.id = h.call.id then { q with done := true, result := w } else q) }).lanesDone
    cl h.call h.target

/-- LANE_PERFORM (R398, R406, R408): the lane reads and writes its sample as one step at the owner. -/
def execLanePerform (cluster idx : Nat) (s : State) : Out :=
  let cl := cluster % 64
  let c := s.cluster cl
  match c.held[idx]? with
  | none => .next s
  | some h =>
    match SMap.find c.targets h.target with
    | none => .next s
    | some t =>
      if !c.performable h then .next s
      else
        let k := h.call
        let r := s.runLook cl k (if k.isBlend then s.blndWork cl k t.desc h.lane h.sample else s.zsWork cl k t.desc h.lane h.sample)
        match r.1 with
        | .error (.page va f acc) => .next (r.2.copPage cl k va f acc)
        | .error (.fault kind va) =>
          let s1 := if k.posted then r.2.faultWord cl k.unit t.asid t.va kind va else r.2
          .next ((s1.laneDone cl h (faultStatus kind)).commitTarget cl k.unit h.target)
        | .ok (w, ws) =>
          let s1 := ws.foldl (fun u q => u.callWrite cl k q.1 q.2) r.2
          .next ((s1.laneDone cl h w).commitTarget cl k.unit h.target)

/-! ### COPROCESSOR_SERVE (R386) -/

/-- Work on lanes one by one: each lane's record, or its fault; pages that lanes wait for (R391). -/
def State.perLane {α : Type} (s : State) (cl : Nat) (k : Call) (f : Nat → Look α) (fault : FaultKind → α) :
    List Nat → List (Nat × α) × List CopStop × State
  | [] => ([], [], s)
  | i :: t =>
    let r := s.runLook cl k (f i)
    let q := r.2.perLane cl k f fault t
    match r.1 with
    | .ok a => ((i, a) :: q.1, q.2)
    | .error (.fault e _) => ((i, fault e) :: q.1, q.2)
    | .error p => (q.1, p :: q.2.1, q.2.2)

/-- Serve a call that returns a record for each lane on its own: texture and traversal. -/
def State.serveLaneCall {α : Type} (s : State) (cl : Nat) (k : Call) (uniform : Look α)
    (work : α → Nat → Look (List W32 × List (W64 × List Byte))) : State :=
  let u := s.runLook cl k uniform
  match u.1 with
  | .error e => u.2.callStop cl k e
  | .ok a =>
    let r := u.2.perLane cl k (work a) (fun e => ([faultStatus e], [])) k.laneList
    match r.2.1 with
    | [] =>
      let s1 := (r.1.flatMap (fun p => p.2.2)).foldl (fun v q => v.callWrite cl k q.1 q.2) r.2.2
      (s1.endCall cl k (some (k.record (laneWords (r.1.map (fun p => (p.1, p.2.1)))) none))).nextFree
    | ps => ps.foldl (fun v e => v.callStop cl k e) r.2.2

/-- Serve a `rast`. -/
def State.serveRast (s : State) (cl : Nat) (k : Call) : State :=
  let r := s.runLook cl k (s.rastWork cl k)
  match r.1 with
  | .error e => r.2.callStop cl k e
  | .ok (f, cursor) => r.2.endCall cl k (some (k.record f (some cursor)))

/-- Serve a `rastbin`: it goes as far as its pages let it, and keeps its place. -/
def State.serveRastbin (s : State) (cl : Nat) (k : Call) : State :=
  let u := s.runLook cl k (do
    let b ← s.lookBins cl k (k.s2 4)
    let d ← s.lookTarget cl k (k.s2 6)
    pure (b, d))
  match u.1 with
  | .error e => u.2.callStop cl k e
  | .ok (b, d) =>
    let r := u.2.binRun cl k b d (k.s 2).toNat (k.s 3).toNat
    let fin := fun (w : W32) (p : Nat) => r.2.endCall cl k (some (k.record (fun _ => [w, BitVec.ofNat 32 p]) none))
    match r.1 with
    | .status st p => fin (BitVec.ofNat 32 st) p
    | .fault e p => fin (faultStatus e) p
    | .page p va f acc =>
      let c := r.2.cluster cl
      let left := (k.s 3).toNat - (p - (k.s 2).toNat)
      let k1 := { k with sregs := (k.sregs.set 2 (BitVec.ofNat 32 p)).set 3 (BitVec.ofNat 32 left) }
      (r.2.setCluster cl { c with calls := c.calls.map (fun q => if q.id = k.id then k1 else q) }).copPage cl k va f acc

/-- Serve a `binflush`. -/
def State.serveBinflush (s : State) (cl : Nat) (k : Call) : State :=
  let r := s.runLook cl k (s.flushWork cl k)
  match r.1 with
  | .error e => r.2.callStop cl k e
  | .ok ws =>
    let s1 := ws.foldl (fun u w => u.callWrite cl k w (natBytes 4 0)) r.2
    s1.endCall cl k (some (k.record (fun _ => [0]) none))

/-- A call that its target could not route goes on to the owner once the target can be read, when the owner's queue has
room (R386), and for a take its tokens have (R395). -/
def State.reroute (s : State) (cl : Nat) (k : Call) : Option State :=
  if k.major ≠ 0x35 then none
  else
    let a := s.callCluster cl k.asid k.major (k.s2 2)
    if a.1 = cl then none
    else if 16 ≤ (a.2.2.cluster a.1).queued k.unit
        ∨ (k.minor = 0 ∧ takeWaits (a.2.2.cluster a.1) a.2.1 k.laneList.length (k.s 0)) then some s
    else
      let c := a.2.2.cluster cl
      let s1 := a.2.2.setCluster cl { c with calls := c.calls.filter (fun q => q.id != k.id) }
      let o := s1.cluster a.1
      some (s1.setCluster a.1 { o with calls := o.calls ++ [{ k with target := a.2.1 }] })

/-- COPROCESSOR_SERVE: a unit takes the next call from its queue, in acceptance order. -/
def execCoprocessorServe (cluster : Nat) (u : CopUnit) (s : State) : Out :=
  let cl := cluster % 64
  match (s.cluster cl).calls.find? (fun k => decide (k.unit = u)) with
  | none => .next s
  | some k =>
    match s.reroute cl k with
    | some t => .next t
    | none =>
      .next (match u with
        | .raster => if k.minor = 0 then s.serveRast cl k else if k.minor = 1 then s.serveRastbin cl k else s.serveBinflush cl k
        | .depth => if k.minor = 0 then s.serveCtok cl k else s.serveLanes cl k
        | .blend => s.serveLanes cl k
        | .texture => s.serveLaneCall cl k (s.texUniform cl k) (fun t i => do let w ← s.texLane cl k t i; pure (w, []))
        | .traversal => s.serveLaneCall cl k k.travUniform (fun _ i => s.travLane cl k i))

/-! ### CALL_RECORD_ARRIVAL (R389, R390) -/

/-- The registers a record writes: `v` register and lane, with the value. -/
def Record.vWrites (r : Record) (count : Nat) : List (Nat × Nat × W32) :=
  (List.range count).flatMap (fun j => r.call.laneList.map (fun i => (r.call.dest + j, i, SMap.getD r.words (32 * j + i) 0)))

/-- Write a record into the registers of a gang. -/
def Regs.takeRecord (q : Regs) (r : Record) (count : Nat) : Regs :=
  let q1 := (r.vWrites count).foldl (fun q w => q.setV w.1 w.2.1 w.2.2) q
  match r.cursor with
  | some c => (slicesOf r.call.slices).foldl (fun q j => q.setS j (r.call.base + 12) c) q1
  | none => q1

/-- CALL_RECORD_ARRIVAL: the record is written into the calling lanes' registers, or into the park image (05_work R116), and
the waits for it end. -/
def execCallRecordArrival (cluster idx : Nat) (s : State) : Out :=
  let cl := cluster % 64
  let c := s.cluster cl
  match c.records[idx]? with
  | none => .next s
  | some r =>
    let k := r.call
    -- calls of one part to one unit return in issue order (R386)
    if (c.records.take idx).any (fun q => q.call.unit == k.unit && q.call.crew == k.crew && q.call.gang == k.gang
        && (q.call.slices &&& k.slices) != 0) then .next s
    else
      let s1 := s.setCluster cl { c with records := c.records.eraseIdx idx }
      match s1.crew? k.crew, s1.gang? k.crew k.gang with
      | some w, some g =>
        match g.records.find? (fun p => p.call == k.id) with
        | none => .next s1
        | some p =>
          let slices := g.slices.map (fun x =>
            match x.wait with
            | some q => if q.code = 3 ∧ q.num = 0 then { x with wait := none } else x
            | none => x)
          let g1 := { g with regs := g.regs.takeRecord r p.count, records := g.records.filter (fun p => p.call != k.id), slices := slices }
          let o := 256 + k.gang * gangBlock (recRegs w.record)
          let img := (r.vWrites p.count).map (fun q => (o + 0x1400 + 128 * q.1 + 4 * q.2.1, natBytes 4 q.2.2.toNat))
            ++ (match r.cursor with
                | some v => (slicesOf k.slices).map (fun j => (sliceOffset w k.gang j + 64 + 4 * (k.base + 12), natBytes 4 v.toNat))
                | none => [])
          .next ((s1.setGang k.crew k.gang g1).imageStore k.crew w img)
      | _, _ => .next s1

end Sys2Proof.Machine
end

