-- ==== Sys2Proof/Machine/Ports.lean ====
section
/-!
DEFINITION. The ports (24_ports R450 to R456): requests that arrive through the host, storage and peer ports, requests
that are not woken in time, links, and the loss of a module.
-/

namespace Sys2Proof.Machine

/-! ### Host and storage (R452) -/

/-- The inbound window that a BAR2 request falls in as a whole: an enabled one whose bus range holds it, the lowest if
several do. -/
def State.windowOf (s : State) (o size : Nat) : Option Nat :=
  (List.range 8).find? (fun w =>
    let b := (SMap.getD s.ports.bus w 0).toNat
    SMap.getD s.ports.wen w false && decide (b ≤ o) && decide (o + size ≤ b + (SMap.getD s.ports.size w 0).toNat))

/-- BAR2 holds 64 GiB (R450). -/
def bar2Size : Nat := 2 ^ 36

/-- HOST_INBOUND_REQUEST: at VBASE(w) + o − BUS(w) under ASID(w); outside every enabled window it completes with
Unsupported Request. -/
def execHostInboundRequest (q : PortReq) (s : State) : Out :=
  if !s.portEn 0 then .next s
  else if !portListed q false ∨ bar2Size < q.addr + q.size then .next (s.answer q.requester .unsupported)
  else match s.windowOf q.addr q.size with
    | none => .next (s.answer q.requester .unsupported)
    | some w =>
      let va := SMap.getD s.ports.vbase w 0 + BitVec.ofNat 64 q.addr - SMap.getD s.ports.bus w 0
      .next (s.arriveInbound { q := q, storage := false, asid := SMap.getD s.ports.wasid w 0, va := va, page := none, since := s.clock })

/-- STORAGE_INBOUND_REQUEST: a drive's bus address is a virtual address under `STORASID`. -/
def execStorageInboundRequest (q : PortReq) (s : State) : Out :=
  if !s.portEn 1 then .next s
  else if !portListed q true then .next (s.answer q.requester .unsupported)
  else .next (s.arriveInbound
    { q := q, storage := true, asid := s.ports.storasid, va := BitVec.ofNat 64 q.addr, page := none, since := s.clock })

/-- A millisecond in clocks of the main clock of 1.2 GHz (R462). -/
def msClocks : Nat := 1200000

/-- INBOUND_TIMEOUT: a held request was not woken within its port's TOUT. Its cause is that of a page that stays not
present (10_pages R222). -/
def execInboundTimeout (idx : Nat) (s : State) : Out :=
  match s.ports.held[idx]? with
  | none => .next s
  | some h =>
    if h.page.isSome ∧ h.since + s.tout (if h.storage then 1 else 0) * msClocks ≤ s.clock then
      let t := (s.setHeld idx none).refuseInbound h .unmappedAddress
      .next (t.pumpInbound t.ports.held.length 0)
    else .next s

/-! ### Peers (R453, R454) -/

/-- The peer port that carries traffic of a module: the primary while its link is up, else a valid alternate. -/
def State.peerRoute (s : State) (m : Nat) : Option Nat :=
  let r := SMap.getD s.ports.route m 0
  if !r.getLsbD 7 then none
  else if SMap.getD s.ports.up (2 + bitsAt r 0 3) false then some (bitsAt r 0 3)
  else if r.getLsbD 6 then some (bitsAt r 3 3)
  else none

/-- The floating operation of a code major × 16 + fn, with its size (13_atomics R258). -/
def floatingOf (code : Nat) : Option (HomeOp × Nat) :=
  let fn := code % 16
  let op := match fn % 3 with | 0 => FloatOp.add | 1 => FloatOp.min | _ => FloatOp.max
  if code / 16 ≠ 0x28 ∧ code / 16 ≠ 0x29 then none
  else match fn / 3 with
    | 0 => some (.float op .f32, 4)
    | 1 => some (.float op .f64, 8)
    | 2 => some (.float op .bf16x2, 4)
    | 3 => some (.float op .h16x2, 4)
    | 4 => some (.float op .bf16, 2)
    | _ => none

/-- The operation on the owner's home slice that a peer request of an atomic names, where the link's mode carries it. -/
def peerOp (ualink : Bool) (q : PortReq) : Option HomeOp :=
  match q.op with
  | .atomic op =>
    if ualink then
      if (q.size = 4 ∨ q.size = 8 ∨ (q.size = 16 ∧ op = .cas)) ∧ q.addr % q.size = 0 then some (.int op) else none
    else if portCas op q.addr q.size then some (.int op) else none
  | .floating code =>
    match floatingOf code with
    | some (op, n) => if ualink ∧ q.size = n ∧ q.addr % n = 0 then some op else none
    | none => none
  | _ => none

/-- A peer request lies in this module's DRAM, outside its attribute table, within one line (R453, R454, 10_pages R216). -/
def State.peerPlace (s : State) (q : PortReq) : Bool :=
  decide (q.addr + q.size ≤ dramEnd) && decide (q.size ≤ 128) && (q.size == 0 || lineOf q.addr == lineOf (q.addr + q.size - 1))
    && !s.inAttrTable 0 q.addr

/-- PEER_INBOUND_REQUEST: performed by the owning home slice, or refused with Unsupported Request. A posted write of PCI
Express mode has no answer; its zero-length read is a release of the module (R454). The request's address is physical: R453 sends
an access at the physical address of its leaf, while R211 lists the peer ports among the units that take an ASID
(notes/assumptions/43). -/
def execPeerInboundRequest (source : Nat) (q : PortReq) (s : State) : Out :=
  let refused : Out := .next (s.answer q.requester .unsupported)
  match s.peerRoute source with
  | none => refused
  | some p =>
    let ualink := s.portMode (2 + p) == 2
    if s.ports.lost.contains source ∨ !s.peerPlace q then refused
    else
      let k := kindOf (s.attrOf 0 q.addr).toNat
      let bad := s.poisoned.contains (lineOf q.addr)
      match q.op with
      | .read =>
        if q.size ≠ 0 ∧ bad then .next (s.answer q.requester .poisoned)
        else
          let s1 := if q.size = 0 then (if ualink then s else s.releasedBy (.module source)) else s.request (lineOf q.addr) (.module source)
          .next (s1.answer q.requester (.data (Memory.readBytes s.mem q.addr q.size)))
      | .write =>
        let s1 := s.performBytes k (.module source) (byteWrites q.addr q.size q.value.toNat)
        .next (if ualink then s1.answer q.requester .done else s1)
      | _ =>
        match peerOp ualink q with
        | none => refused
        | some op =>
          if !atomicKind k then refused
          else if bad then .next (s.answer q.requester .poisoned)
          else .next (s.portAtomic (.module source) k op q.addr q)

/-! ### Links and modules (R453, R455, R456) -/

/-- Store UP of a port. -/
def State.setUp (s : State) (port : Nat) (b : Bool) : State :=
  { s with ports := { s.ports with up := SMap.setD s.ports.up port b false } }

/-- LINK_DOWN: the link's retries are exhausted; a type-3 record with link-down, and traffic moves to alternate routes. -/
def execLinkDown (port : Nat) (s : State) : Out :=
  if port < 10 ∧ SMap.getD s.ports.up port false then
    .next ((s.setUp port false).pushFault 0 (faultRec (causeCode 5 .linkDown) 3 0 0))
  else .next s

/-- PORT_ENABLE: EN of `PORTCFG` is written 1, which starts link training. -/
def execPortEnable (port : Nat) (s : State) : Out :=
  if port < 10 then .next { s with ports := { s.ports with en := SMap.put s.ports.en port true } } else .next s

/-- LINK_UP: an enabled port's link has trained. -/
def execLinkUp (port : Nat) (s : State) : Out :=
  if port < 10 ∧ s.portEn port ∧ s.portMode port ≠ 0 then .next (s.setUp port true) else .next s

/-- MODULE_LOST: no traffic from a module over any route for 1 ms. -/
def execModuleLost (module : Nat) (s : State) : Out :=
  if module < 1024 ∧ module ≠ s.ports.devid then
    .next { s with ports := { s.ports with lost := (module :: s.ports.lost).eraseDups } }
  else .next s

end Sys2Proof.Machine
end

