-- ==== Sys2Proof/Machine/Checkpoint.lean ====
section
/-!
DEFINITION. Coordinated checkpoints and rollback, as this module sees them (24_ports R457, R458, 14_ordering R297): the
calls, readiness and copies of the other modules arrive as events. A freeze image here holds the memory of its cut too:
it is what the undo logs and the freeze image restore together (notes/assumptions/45).
-/

namespace Sys2Proof.Machine

/-- CHECKPOINT_TIMER: as coordinator, this module calls the next cut once PER ms have passed since its last call. -/
def execCheckpointTimer (s : State) : Out :=
  let per := s.ports.ckper.toNat
  if per ≠ 0 ∧ s.phase = .idle ∧ s.called = none ∧ s.calledAt + per * msClocks ≤ s.clock then
    .next { s with called := some s.cut, calledAt := s.clock }
  else .next s

/-- CUT: CUT(n) arrives, and the module freezes: no agent issues until GO. -/
def execCut (n : Nat) (s : State) : Out :=
  if s.phase = .idle ∧ (s.called = none ∨ s.called = some n) then
    .next { s with phase := .frozen, cut := n, called := none, frozenAt := s.clock }
  else .next s

/-- A part waits for the completion of a remote access. -/
def Gang.awaits (g : Gang) : Bool :=
  g.slices.any (fun x => !x.exited && match x.wait with | some w => w.code == 3 && w.num == 1 && x.remote == 0 | none => false)

/-- No access is outstanding: no store is buffered, no load, no fill and no remote access under way. -/
def State.quiet (s : State) : Bool :=
  s.fills.isEmpty
    && s.crews.all (fun c => c.2.gangs.all (fun g => g.2.buffer.isEmpty && g.2.loads.all (fun f => f.failed.isSome) && !g.2.awaits))
    && s.harts.all (fun h => h.2.buffer.isEmpty)
    && s.clusters.all (fun c => decide (c.2.bank0.state ≠ .filling) && decide (c.2.bank1.state ≠ .filling))

/-- READY: the buffered stores are performed; once no access is outstanding, the module answers READY(n). -/
def execReady (s : State) : Out :=
  if s.phase = .frozen then
    let t := s.drainAll
    .next (if t.quiet then { t with phase := .ready } else t)
  else .next s

/-- A freeze's length is added to the deadline of every pending stop (R457 step 3). -/
def Crew.thaw (c : Crew) (n : Nat) : Crew := { c with deadline := c.deadline.map (· + n) }

/-- GO: the module writes its freeze image, opens an undo log, and resumes; its copy to BUDDY's store begins. -/
def execGo (s : State) : Out :=
  if s.phase = .ready then
    let t : State := { s with crews := s.crews.map (fun c => (c.1, c.2.thaw (s.clock - s.frozenAt))) }
    .next { t with
      phase := .copying, copied := []
      images := (t.cut, t.toDevice) :: t.images.filter (fun q => q.1 != t.cut) }
  else .next s

/-- CHECKPOINT_COPY_COMPLETE: a module's copy of cut n is complete. -/
def execCheckpointCopyComplete (module : Nat) (s : State) : Out :=
  if s.phase = .copying then .next { s with copied := (module :: s.copied).eraseDups } else .next s

/-- COMMIT: COMMIT(n) arrives, when every copy is complete: `CKCUT` becomes n, and the log of the cut before goes. -/
def execCommit (n : Nat) (s : State) : Out :=
  if s.phase = .copying ∧ s.cut = n ∧ s.copied.contains s.ports.devid then
    .next { s with
      phase := .idle, cut := n + 1, copied := []
      images := s.images.filter (fun q => q.1 == n)
      ports := { s.ports with ckcut := n } }
  else .next s

/-- ROLLBACK: after the loss of a module, this one returns to the state it held at cut `CKCUT`; the ports are never rolled
back (R459), and a type-3 record of kind peer-lost holds the cut in its detail. -/
def execRollback (s : State) : Out :=
  let c := s.ports.ckcut
  match s.images.find? (fun q => q.1 == c) with
  | none => .next s
  | some q =>
    if s.ports.lost.isEmpty then .next s
    else
      let t : State := { s with
        toDevice := q.2
        phase := .idle, cut := c + 1, called := none, calledAt := q.2.clock, copied := []
        images := s.images.filter (fun p => p.1 == c)
        ports := { s.ports with lost := [] } }
      .next (t.pushFault 0 { faultRec (causeCode 5 .peerLost) 3 0 0 with detail := c })

end Sys2Proof.Machine
end

