-- ==== Sys2Proof/Machine/Collective.lean ====
section
/-!
DEFINITION. Collectives over the active lanes of a part: `pfold`, `pmask`, `prank` (06_control R153), `lfetch` (R154),
and the gang reductions and scans in the trees of 04_numbers R94 and R95 (13_atomics R249).
-/

namespace Sys2Proof.Machine

/-! ### Predicate collectives (R153) -/

/-- The active lanes, and those of them whose predicate is 1. -/
def Ctx.selected (x : Ctx) (guard p : Nat) : List Nat := (x.lanes guard).filter (fun i => x.g.regs.getP p i)

/-- pD := f(number selected, number active) in every active lane. -/
def State.pfold (s : State) (f : OpPp) (test : Nat → Nat → Bool) : Out :=
  s.issue { guard := f.g, ss := some [] } (fun x t =>
    let ls := x.lanes f.g.toNat
    let v := test (x.selected f.g.toNat f.a.toNat).length ls.length
    .next (t.retireRegs x (fun q => q.writeP f.p.toNat (fun _ => v) ls)))

def execPfoldEvery (f : OpPp) (s : State) : Out := s.pfold f (fun n a => n == a)
def execPfoldSome (f : OpPp) (s : State) : Out := s.pfold f (fun n _ => decide (1 ≤ n))
def execPfoldOdd (f : OpPp) (s : State) : Out := s.pfold f (fun n _ => n % 2 == 1)
def execPfoldAgree (f : OpPp) (s : State) : Out := s.pfold f (fun n a => n == 0 || n == a)

/-- vD := f(selected lanes, lane) in every active lane. -/
def State.pgather (s : State) (f : OpPv) (val : List Nat → Nat → W32) : Out :=
  s.issue { guard := f.g, vs := [(f.d, 1)], ss := some [] } (fun x t =>
    let sel := x.selected f.g.toNat f.a.toNat
    .next (t.retireRegs x (fun q => q.writeV f.d.toNat (val sel) (x.lanes f.g.toNat))))

def execPmask (f : OpPv) (s : State) : Out := s.pgather f (fun sel _ => laneMask sel)
def execPmaskBelow (f : OpPv) (s : State) : Out := s.pgather f (fun sel i => laneMask (sel.filter (fun j => decide (j < i))))
def execPrank (f : OpPv) (s : State) : Out :=
  s.pgather f (fun sel i => BitVec.ofNat 32 (sel.filter (fun j => decide (j < i))).length)
def execPrankTotal (f : OpPv) (s : State) : Out := s.pgather f (fun sel _ => BitVec.ofNat 32 sel.length)

/-! ### Lane fetches (R154) -/

/-- vD of lane i := vA of the lane that `pick` chooses from i and the selector, where that lane is active. -/
def State.lfetch (s : State) (f : OpA) (pick : Nat → W32 → Int) : Out :=
  s.issue { guard := f.g, vs := [(f.d, 1), (f.a, 1)] ++ needB f.k f.b 1, ss := some (needS f.k f.b 1) } (fun x t =>
    .next (t.laneMove x f.g f.d f.a (fun i => pick i (x.g.regs.srcB f.k f.b i))))

def execLfetchAt (f : OpA) (s : State) : Out := s.lfetch f (fun _ c => (c.toNat : Int))
def execLfetchOff (f : OpA) (s : State) : Out := s.lfetch f (fun i c => (i : Int) + c.toInt)
def execLfetchFlip (f : OpA) (s : State) : Out := s.lfetch f (fun i c => ((i ^^^ c.toNat : Nat) : Int))
def execLfetchHead (f : OpA) (s : State) : Out :=
  s.lfetch f (fun i c => if c.toNat ≤ 5 then ((i - i % 2 ^ c.toNat : Nat) : Int) else -1)

/-! ### Reductions and scans (R94, R95, R249) -/

/-- Join two operands, either of which may be absent; the flags of an operation that is made. -/
def joinOp (op : Nat → Nat → Nat × Nat) : Option Nat → Option Nat → Option Nat × Nat
  | some a, some b => let r := op a b; (some r.1, r.2)
  | none, some b => (some b, 0)
  | a, none => (a, 0)

/-- One step of the tree of R94 at distance d. -/
def redStep (op : Nat → Nat → Nat × Nat) (d : Nat) (t : List (Option Nat) × Nat) : List (Option Nat) × Nat :=
  let rs := (List.range 32).map (fun i =>
    if i % (2 * d) = 0 then joinOp op (t.1.getD i none) (t.1.getD (i + d) none) else (t.1.getD i none, 0))
  (rs.map (·.1), orFlags (t.2 :: rs.map (·.2)))

/-- One step of the scan of R95 at distance d: every lane reads what the previous step left. -/
def scanStep (op : Nat → Nat → Nat × Nat) (d : Nat) (t : List (Option Nat) × Nat) : List (Option Nat) × Nat :=
  let rs := (List.range 32).map (fun i =>
    if d ≤ i then joinOp op (t.1.getD (i - d) none) (t.1.getD i none) else (t.1.getD i none, 0))
  (rs.map (·.1), orFlags (t.2 :: rs.map (·.2)))

/-- The operands of the 32 lanes: present in active lanes. -/
def operands (ls : List Nat) (val : Nat → Nat) : List (Option Nat) :=
  (List.range 32).map (fun i => if ls.contains i then some (val i) else none)

/-- The values a `gred` delivers to each lane, and its flags. -/
def gredTree (op : Nat → Nat → Nat × Nat) (t : List (Option Nat)) : List (Option Nat) × Nat :=
  let r := [1, 2, 4, 8, 16].foldl (fun a d => redStep op d a) (t, 0)
  (List.replicate 32 (r.1.getD 0 none), r.2)

/-- The values a `gscan` delivers to each lane, and its flags. -/
def gscanTree (op : Nat → Nat → Nat × Nat) (t : List (Option Nat)) : List (Option Nat) × Nat :=
  [1, 2, 4, 8, 16].foldl (fun a d => scanStep op d a) (t, 0)

/-- A reduction or a scan of the active lanes' A into their d (R249); `wide` forms take pairs. -/
def State.collective (s : State) (f : OpN) (wide : Bool) (tree : List (Option Nat) → List (Option Nat) × Nat) : Out :=
  let n := if wide then 2 else 1
  s.issue { guard := f.g, vs := [(f.d, n), (f.a, n)], ss := some [] } (fun x t =>
    let r := x.g.regs
    let ls := x.lanes f.g.toNat
    let v := tree (operands ls (fun i => if wide then (r.getV2 f.a.toNat i).toNat else (r.getV f.a.toNat i).toNat))
    let out := fun i => (v.1.getD i none).getD 0
    .next (t.finishFlags x v.2 (fun q =>
      if wide then q.writeV2 f.d.toNat (fun i => BitVec.ofNat 64 (out i)) ls
      else q.writeV f.d.toNat (fun i => BitVec.ofNat 32 (out i)) ls)))

/-- The operations of the minors (R249), as values with flags. -/
def pureOp (f : W32 → W32 → W32) (a b : Nat) : Nat × Nat := ((f (BitVec.ofNat 32 a) (BitVec.ofNat 32 b)).toNat, 0)

def execGredAddS32 (f : OpN) (s : State) : Out := s.collective f false (gredTree (pureOp (fun a b => a + b)))
def execGredMinS32 (f : OpN) (s : State) : Out := s.collective f false (gredTree (pureOp (minS 32)))
def execGredMaxS32 (f : OpN) (s : State) : Out := s.collective f false (gredTree (pureOp (maxS 32)))
def execGredMinN32 (f : OpN) (s : State) : Out := s.collective f false (gredTree (pureOp (minN 32)))
def execGredMaxN32 (f : OpN) (s : State) : Out := s.collective f false (gredTree (pureOp (maxN 32)))
def execGredAnd (f : OpN) (s : State) : Out := s.collective f false (gredTree (pureOp (fun a b => a &&& b)))
def execGredOr (f : OpN) (s : State) : Out := s.collective f false (gredTree (pureOp (fun a b => a ||| b)))
def execGredXor (f : OpN) (s : State) : Out := s.collective f false (gredTree (pureOp (fun a b => a ^^^ b)))
def execGredAddF32 (f : OpN) (s : State) : Out := s.collective f false (gredTree (fpAdd .f32 {}))
def execGredMinF32 (f : OpN) (s : State) : Out := s.collective f false (gredTree (fpMinMax .f32 {} false))
def execGredMaxF32 (f : OpN) (s : State) : Out := s.collective f false (gredTree (fpMinMax .f32 {} true))
def execGredAddF64 (f : OpN) (s : State) : Out := s.collective f true (gredTree (fpAdd .f64 {}))
def execGredMinF64 (f : OpN) (s : State) : Out := s.collective f true (gredTree (fpMinMax .f64 {} false))
def execGredMaxF64 (f : OpN) (s : State) : Out := s.collective f true (gredTree (fpMinMax .f64 {} true))

def execGscanAddS32 (f : OpN) (s : State) : Out := s.collective f false (gscanTree (pureOp (fun a b => a + b)))
def execGscanMinS32 (f : OpN) (s : State) : Out := s.collective f false (gscanTree (pureOp (minS 32)))
def execGscanMaxS32 (f : OpN) (s : State) : Out := s.collective f false (gscanTree (pureOp (maxS 32)))
def execGscanMinN32 (f : OpN) (s : State) : Out := s.collective f false (gscanTree (pureOp (minN 32)))
def execGscanMaxN32 (f : OpN) (s : State) : Out := s.collective f false (gscanTree (pureOp (maxN 32)))
def execGscanAnd (f : OpN) (s : State) : Out := s.collective f false (gscanTree (pureOp (fun a b => a &&& b)))
def execGscanOr (f : OpN) (s : State) : Out := s.collective f false (gscanTree (pureOp (fun a b => a ||| b)))
def execGscanXor (f : OpN) (s : State) : Out := s.collective f false (gscanTree (pureOp (fun a b => a ^^^ b)))
def execGscanAddF32 (f : OpN) (s : State) : Out := s.collective f false (gscanTree (fpAdd .f32 {}))
def execGscanMinF32 (f : OpN) (s : State) : Out := s.collective f false (gscanTree (fpMinMax .f32 {} false))
def execGscanMaxF32 (f : OpN) (s : State) : Out := s.collective f false (gscanTree (fpMinMax .f32 {} true))
def execGscanAddF64 (f : OpN) (s : State) : Out := s.collective f true (gscanTree (fpAdd .f64 {}))
def execGscanMinF64 (f : OpN) (s : State) : Out := s.collective f true (gscanTree (fpMinMax .f64 {} false))
def execGscanMaxF64 (f : OpN) (s : State) : Out := s.collective f true (gscanTree (fpMinMax .f64 {} true))

end Sys2Proof.Machine
end

