-- ==== Sys2Proof/Machine/Quant.lean ====
section
/-!
DEFINITION. Writing block formats (04_numbers R92), and the terms of the matrix array (R98, 17_matrix R323 to R325): the
Vintner and the Decanter share them.
-/

namespace Sys2Proof.Machine

/-! ### Values -/

/-- The value of a source as a floating value. -/
def Source.val : Source → FpVal
  | .fp v => v
  | .int n => if n = 0 then .zero false else .num (decide (n < 0)) n.natAbs 0

/-- The exact product with a scale; NaNs, infinities and zeros as in a multiplication (R92, 18_engines R372). A product that
sets the invalid flag, of a signalling NaN or of 0 and ∞, is a signalling NaN: what converts it sets the flag (R77). -/
def FpVal.times (x s : FpVal) : FpVal :=
  match x, s with
  | .nan a, .nan b => .nan (a || b)
  | .nan a, _ => .nan a
  | _, .nan a => .nan a
  | .inf _, .zero _ => .nan true
  | .zero _, .inf _ => .nan true
  | .inf a, y => .inf (a != y.neg)
  | y, .inf b => .inf (y.neg != b)
  | .zero a, y => .zero (a != y.neg)
  | y, .zero b => .zero (y.neg != b)
  | .num a m e, .num b n f => .num (a != b) (m * n) (e + f)

/-- ⌊log2⌋ of a finite value that is not zero. -/
def FpVal.lead : FpVal → Option Int
  | .num _ m e => some (e + (bitLen m : Int) - 1)
  | _ => none

/-- An infinity. -/
def FpVal.isInf : FpVal → Bool
  | .inf _ => true
  | _ => false

/-! ### Quantising (R92) -/

/-- The exponent of a square, before it is held to 0 to 254. -/
def quantExp (xs : List FpVal) : Int :=
  match xs.filterMap FpVal.lead with
  | [] => if xs.any FpVal.isInf then 254 else 0
  | l :: t => t.foldl max l + 128

/-- One mantissa under the held exponent E: its code in w bits, and its flags. -/
def quantOne (w : Nat) (r : Rnd) (raw e : Int) (x : FpVal) : Nat × Nat :=
  let mmax : Int := 2 ^ (w - 1) - 1
  let signed := fun (n : Int) => if x.neg then -n else n
  match x with
  | .inf _ => (intCode w (signed mmax), 1)
  | .nan _ => (0, 1)
  | v =>
    let q := roundAt r.mode v.exact (e - 127 - ((w : Int) - 1))
    if mmax < (q.1 : Int) then
      (intCode w (signed mmax), 16 + (if 254 < raw then 4 else 0) + (if raw < 0 then 8 else 0))
    else (intCode w (signed (q.1 : Int)), if q.2 then 16 + (if raw < 0 then 8 else 0) else 0)

/-- A square of block format: exponent byte, mantissa codes, flags. -/
def quantTile (w : Nat) (r : Rnd) (xs : List FpVal) : Nat × List Nat × Nat :=
  if xs.any FpVal.isNan then (255, xs.map (fun _ => 0), 1)
  else
    let raw := quantExp xs
    let e : Int := max 0 (min 254 raw)
    let ms := xs.map (quantOne w r raw e)
    (e.toNat, ms.map (·.1), ms.foldl (fun a m => a ||| m.2) 0)

/-- Codes of w bits as one bit string (R79), in bytes. -/
def packCodes (w : Nat) (ms : List Nat) : List Byte :=
  natBytes (ms.length * w / 8) ((ms.mapIdx (fun i m => m * 2 ^ (i * w))).foldl (· + ·) 0)

/-! ### The A operand, the B block, the step (R323 to R325, R98) -/

/-- Mantissa bits of a wa code. -/
def waBits : Nat → Nat
  | 0 => 8
  | 1 => 6
  | 2 => 4
  | 3 => 3
  | _ => 2

/-- Bytes an A tile must hold (R323). -/
def aTileBytes (m wa : Nat) : Nat := 2048 + m * 96 * wa

/-- The number of the A square of a row and K column. -/
def aSquare (edge m k : Nat) : Nat := m / edge * (768 / edge) + k / edge

/-- The mantissa and the exponent byte of an element of an A tile. -/
def aElem (rd : Nat → Byte) (wa edge m k : Nat) : Int × Nat :=
  let t := aSquare edge m k
  let q := m % edge * edge + k % edge
  (readInt wa true (bitString rd (2048 + t * (edge * edge * wa / 8)) (q * wa) wa), (rd t).toNat)

/-- The element number, within its unit, of the K row and N column of a B block (R324). -/
def bIndex (geo k n : Nat) : Nat :=
  if geo = 3 then (k / 96 * 32 + n / 32) * stripeElems + k % 96 * 32 + n % 32
  else
    let t := tileEdge geo
    (k / t * (1024 / t) + n / t) * (t * t) + k % t * t + n % t

/-- The mantissa and the exponent byte of an element of a B block. -/
def bElem (rd : Nat → Byte) (fmt geo k n : Nat) : Int × Nat :=
  let w := elemBits fmt
  let un := (unitN rd 0).getD 2
  let b := blockSpot fmt geo un (bIndex geo k n)
  let m := if geo = 3 then stripeMantissa w un (regionNat rd b.data 16) rd b else bitString rd b.data b.bit w
  (readInt w true m, (rd b.exp).toNat)

/-- A unit of stripes is well formed: its N, its reserved bytes and the masks of every stripe that it holds (R82, R324). -/
def bWellFormed (rd : Nat → Byte) (fmt geo : Nat) : Bool :=
  if geo = 3 then
    match unitN rd 0 with
    | none => false
    | some n => (List.range (stripesPerUnit (elemBits fmt) n)).all (fun s =>
        stripeOk (regionNat rd (s * stripeBytes (elemBits fmt) n) 16) n)
  else true

/-- One term is added to an FP32 code (R98): its integer sum, the exponents of the two squares and their mantissa bits. -/
def addTerm (old : Nat) (sum : Int) (ea eb wa wb : Nat) : Nat × Nat :=
  if ea = 255 ∨ eb = 255 then (FpFmt.f32.nanCode, 1)
  else
    let v : FpVal :=
      if sum = 0 then .zero false
      else .num (decide (sum < 0)) sum.natAbs ((ea : Int) - 127 - ((wa : Int) - 1) + ((eb : Int) - 127 - ((wb : Int) - 1)))
    fpAddV .f32 {} (FpFmt.f32.value old) v

/-- One output element of a step: the terms of its tile pairs in increasing K, with flags. -/
def stepElem (a : Nat → Int × Nat) (b : Nat → Int × Nat) (wa wb len : Nat) (old : Nat) : Nat × Nat :=
  (List.range (768 / len)).foldl (fun (acc : Nat × Nat) (j : Nat) =>
    let ks := (List.range len).map (j * len + ·)
    let sum := ks.foldl (fun (t : Int) k => t + (a k).1 * (b k).1) 0
    let r := addTerm acc.1 sum (a (j * len)).2 (b (j * len)).2 wa wb
    (r.1, acc.2 ||| r.2)) (old, 0)

end Sys2Proof.Machine
end

