-- ==== Sys2Proof/Machine/Decanter.lean ====
section
/-!
DEFINITION. The Decanter (18_engines R369 to R374): cards, where their elements lie, units, chunks, and the switch between
cards.

The work of a unit is a pure computation over the memory as it stands, as that of the coprocessor units is
(Machine/Copro.lean).
-/

namespace Sys2Proof.Machine

/-! ### Cards (R369, R370) -/

/-- What a card's payload names. -/
structure DecCard where
  src : W64
  dst : W64
  cols : Nat
  rows : Nat
  ps : Nat
  pd : Nat
  scale : W64
  st : Nat
  dt : Nat
  rnd : Rnd
  dk : Nat
  scl : Nat
  wa : Nat
  ta : Nat
deriving DecidableEq, Repr

/-- The payload of a card. -/
def Card.dec (c : Card) : DecCard :=
  let w := fun n => bitsAt c.block (8 * n)
  { src := blkWord c.block 24, dst := blkWord c.block 32, cols := w 40 16, rows := w 42 16, ps := w 44 16, pd := w 46 16
    scale := blkWord c.block 48, st := bitsAt c.block 448 4, dt := bitsAt c.block 452 4
    rnd := { mode := bitsAt c.block 456 2, sat := c.block.getLsbD 458 }
    dk := bitsAt c.block 459 2, scl := bitsAt c.block 461 3, wa := bitsAt c.block 464 3
    ta := if c.block.getLsbD 467 then 32 else 16 }

/-- Raw bytes are copied. -/
def DecCard.raw (d : DecCard) : Bool := d.st == 15

/-- The codes and sizes of a card break R369 to R371, whatever its pages are. -/
def DecCard.bad (d : DecCard) : Bool :=
  d.cols == 0 || d.rows == 0 || decide (d.ps < d.cols) || decide (d.pd < d.cols) || d.dk == 3
  || decide (4 < d.scl) || (d.scl != 0 && (d.scale == 0 || bitsAt d.scale 0 2 != 0)) || (d.dk == 1 && !d.raw)
  || (d.dk == 2 && (d.raw || decide (4 < d.wa) || d.cols != 768 || d.rows % d.ta != 0 || decide (512 < d.rows)))

/-! ### Reading -/

/-- Why the Decanter's work stops: the access that failed, how, and at which address. -/
abbrev DecErr := Access × Fail × W64

/-- The Decanter's work on a unit. -/
abbrev DecLook := ExceptT DecErr (StateM (List (W64 × Nat)))

/-- A fault at an address. -/
def DecLook.bad {α : Type} (k : FaultKind) (va : W64) : DecLook α := throw (.read, .fault k, va)

/-- A format and a geometry. -/
abbrev FmtGeo := Nat × Nat

/-- The page of an address, for a base (R371). -/
def State.decPage (s : State) (cl asid : Nat) (va : W64) (acc : Access) : DecLook Page :=
  match (s.translate (.decanter cl) asid va acc).1 with
  | .ok p => if p.control then throw (acc, .fault .protection, va) else pure p
  | .error f => throw (acc, f, va)

/-- Pages carry the format of the base, and a block format pages of a unit at least (R81, R202). -/
def pageFits (fg : FmtGeo) (p : Page) : Bool :=
  p.fmt == fg.1 && p.geo == fg.2 && (!blockFormat fg.1 || decide (unitBytes ≤ p.size))

/-- Read bytes on pages of a format; for the bytes of scales `fg` is none. -/
def State.decRead (s : State) (cl asid : Nat) (fg : Option FmtGeo) (va : W64) (n : Nat) : DecLook (List Byte) := do
  modify (fun l => (va, n) :: l)
  match (s.unitRead (.decanter cl) asid va n .read).1 with
  | .error e => throw (.read, e)
  | .ok bs =>
    match fg with
    | none => pure bs
    | some q =>
      let p ← s.decPage cl asid va .read
      if pageFits q p then pure bs else throw (.read, .fault .formatMismatch, va)

/-- Check that bytes can be written on pages of a format. -/
def State.decWrite (s : State) (cl asid : Nat) (fg : FmtGeo) (va : W64) (n : Nat) : DecLook Unit := do
  match (s.translateSpan (.decanter cl) asid va n .write (n / 4096 + 2)).1 with
  | .error e => throw (.write, e)
  | .ok ps =>
    if ps.any (fun p => p.1.control) then throw (.write, .fault .protection, va)
    else if ps.all (fun p => pageFits fg p.1) then pure ()
    else throw (.write, .fault .formatMismatch, va)

/-! ### Where elements lie (R371) -/

/-- What is known of the source or the destination: base, format and geometry, type of a format-0 page, pitch, and the N of
the unit at the base for stripes. -/
structure Side where
  base : W64
  fg : FmtGeo
  typ : Nat
  pitch : Nat
  n : Nat
deriving DecidableEq, Repr

/-- Bits of an element of a linear side. -/
def Side.bits (d : Side) : Nat :=
  if d.fg.1 = 0 then (match RegType.ofCode d.typ with | some t => t.bits | none => 8) else elemBits d.fg.1

/-- First byte, length and bit of linear element e. -/
def Side.linear (d : Side) (e : Nat) : Nat × Nat × Nat :=
  (e * d.bits / 8, max 1 (d.bits / 8), if d.bits = 4 then e % 2 * 4 else 0)

/-- The element number of (r, c) of a block side, in its units. -/
def Side.blockIndex (d : Side) (r c : Nat) : Nat :=
  if d.fg.2 = 3 then (r / 96 * (d.pitch / 32) + c / 32) * stripeElems + r % 96 * 32 + c % 32
  else
    let t := tileEdge d.fg.2
    (r / t * (d.pitch / t) + c / t) * (t * t) + r % t * t + c % t

/-- The side's base and pitch fit its geometry. -/
def Side.fits (d : Side) : Bool :=
  if blockFormat d.fg.1 then d.pitch % (if d.fg.2 = 3 then 32 else tileEdge d.fg.2) == 0 else true

/-- The N of the unit that a stripe lies in, which must be the base's (R371). -/
def State.sideN (s : State) (cl asid : Nat) (d : Side) (unit : Nat) : DecLook Unit := do
  let va := d.base + BitVec.ofNat 64 (unit * unitBytes + dataBytes)
  let bs ← s.decRead cl asid (some d.fg) va 16
  if unitN (fun o => bs.getD (o - dataBytes) 0) 0 = some d.n then pure () else DecLook.bad .malformedBlock va

/-- The first sixteen bytes of a stripe, well formed. -/
def State.stripeWord (s : State) (cl asid : Nat) (d : Side) (b : BlockSpot) : DecLook Nat := do
  s.sideN cl asid d b.unit
  let va := d.base + BitVec.ofNat 64 (b.unit * unitBytes + b.data)
  let bs ← s.decRead cl asid (some d.fg) va 16
  if stripeOk (bytesNat bs) d.n then pure (bytesNat bs) else DecLook.bad .malformedBlock va

/-- The exact value of the source element (r, c) (R372). -/
def State.srcElem (s : State) (cl asid : Nat) (d : Side) (r c : Nat) : DecLook Source := do
  if blockFormat d.fg.1 then
    let w := elemBits d.fg.1
    let b := blockSpot d.fg.1 d.fg.2 d.n (d.blockIndex r c)
    let at_ := fun (o : Nat) => d.base + BitVec.ofNat 64 (b.unit * unitBytes + o)
    let ex ← s.decRead cl asid (some d.fg) (at_ b.exp) 1
    let bits := fun (o bit : Nat) => do
      let bs ← s.decRead cl asid (some d.fg) (at_ (o + bit / 8)) ((bit % 8 + w + 7) / 8)
      pure (natBits (bytesNat bs) (bit % 8) w)
    let m ← if d.fg.2 = 3 then (do
        let word ← s.stripeWord cl asid d b
        match stripeBit w d.n word b with
        | some bit => bits (b.data + 16) bit
        | none => pure 0)
      else bits b.data b.bit
    pure (blockValue w m (bytesNat ex))
  else
    let q := d.linear (r * d.pitch + c)
    let bs ← s.decRead cl asid (some d.fg) (d.base + BitVec.ofNat 64 q.1) q.2.1
    let code := natBits (bytesNat bs) q.2.2 d.bits
    pure (if d.fg.1 = 0 then (match RegType.ofCode d.typ with | some t => t.source {} code | none => .int code)
      else linearValue d.fg.1 code)

/-- Rows and columns of a scale block (R372). -/
def DecCard.scaleBlock (d : DecCard) : Nat × Nat :=
  match d.scl with
  | 1 => (1, d.cols)
  | 2 => (1, 32)
  | 3 => (16, 16)
  | _ => (32, 32)

/-- The source element with its scale (R372). -/
def State.scaledElem (s : State) (cl asid : Nat) (d : DecCard) (q : Side) (r c : Nat) : DecLook Source := do
  let x ← s.srcElem cl asid q r c
  if d.scl = 0 then pure x
  else
    let (bh, bw) := d.scaleBlock
    let bs ← s.decRead cl asid none (d.scale + BitVec.ofNat 64 (4 * (r / bh * ((d.cols + bw - 1) / bw) + c / bw))) 4
    pure (.fp (x.val.times (FpFmt.f32.value (bytesNat bs))))

/-! ### Plans (R371) -/

/-- A card with its sides; `tile` is the key of a tile destination. -/
structure DecPlan where
  card : DecCard
  src : Side
  dst : Side
  tile : Option Nat
deriving DecidableEq, Repr

/-- A side as its base page gives it, checked (R202, R371). -/
def State.side (s : State) (cl asid : Nat) (base : W64) (typ pitch : Nat) (raw : Bool) (acc : Access) : DecLook Side := do
  let p ← s.decPage cl asid base acc
  let d : Side := { base := base, fg := (p.fmt, p.geo), typ := typ, pitch := pitch, n := 0 }
  let need := if raw || p.fmt == 0 then 1 else if blockFormat p.fmt then unitBytes else max 1 (elemBits p.fmt / 8)
  if vaNat base % need ≠ 0 then DecLook.bad .misalignedData base
  else if !raw && !d.fits then DecLook.bad .malformedCommand base
  else if p.geo = 3 && !raw then
    let va := base + BitVec.ofNat 64 dataBytes
    let bs ← s.decRead cl asid (some d.fg) va 16
    match unitN (fun o => bs.getD (o - dataBytes) 0) 0 with
    | some n => pure { d with n := n }
    | none => DecLook.bad .malformedBlock va
  else pure d

/-- The tile destination of a card. -/
def State.decTile (s : State) (cl : Nat) (k : DecSlot) : Option Tile :=
  match k.tileKey with
  | some key => SMap.find (s.cluster cl).tiles key
  | none => none

/-- Read what a card's chunks need to know, or the fault of a card that breaks R371. -/
def State.decPlan (s : State) (cl : Nat) (k : DecSlot) : DecLook DecPlan := do
  let c := k.card.dec
  let asid := k.card.asid
  if c.bad then DecLook.bad .malformedCommand 0
  else
    let src ← s.side cl asid c.src c.st c.ps c.raw .read
    if c.raw && c.dk != 1 && src.fg.1 != 0 then DecLook.bad .malformedCommand c.src
    else if c.dk = 0 then
      let dst ← s.side cl asid c.dst c.dt c.pd c.raw .write
      let edge := tileEdge dst.fg.2
      let odd := if blockFormat dst.fg.1 then
          (if dst.fg.2 = 3 then c.rows % 96 != 0 || c.cols % 32 != 0 else c.rows % edge != 0 || c.cols % edge != 0)
        else false
      -- raw bytes go from a format-0 page to a format-0 page, and only raw bytes have type 15
      let type := (c.raw && (c.dt != 15 || dst.fg.1 != 0)) || (!c.raw && dst.fg.1 == 0 && c.dt == 15)
      if odd || type then DecLook.bad .malformedCommand c.dst
      else pure { card := c, src := src, dst := dst, tile := none }
    else
      let dst : Side := { base := c.dst, fg := (0, 0), typ := 15, pitch := c.cols, n := 0 }
      let h := bitsAt k.card.block 256 12
      match s.decTile cl k with
      | some t =>
        let size := 2 ^ t.k * 1024
        let small := if c.dk = 1 then decide (size < c.rows * c.cols)
          else t.fmt != 0 || decide (size < aTileBytes c.rows (waBits c.wa))
        if natBits h 10 2 ≠ 1 || small then DecLook.bad .malformedCommand c.dst
        else pure { card := c, src := src, dst := dst, tile := k.tileKey }
      | none => DecLook.bad .malformedCommand c.dst

/-! ### Units (R372, R373) -/

/-- Edges of a unit: rows and columns. -/
def DecPlan.unit (p : DecPlan) : Nat × Nat :=
  if p.card.dk = 2 then (p.card.ta, p.card.ta)
  else if p.card.dk = 1 then (1, 1)
  else if blockFormat p.dst.fg.1 then (if p.dst.fg.2 = 3 then (96, 32) else (tileEdge p.dst.fg.2, tileEdge p.dst.fg.2))
  else (1, 1)

/-- Units in a row of units, and in all. -/
def DecPlan.perRow (p : DecPlan) : Nat := p.card.cols / p.unit.2
def DecPlan.total (p : DecPlan) : Nat := p.card.rows / p.unit.1 * p.perRow

/-- What a unit writes: runs of bytes with the bits of each that are written, in memory or in the tile, and its flags. -/
structure UnitOut where
  mem : List (W64 × List Byte × Byte) := []
  tile : List (Nat × List Byte) := []
  flags : Nat := 0
deriving DecidableEq, Repr

/-- The values of a square whose first element is (r, c), row by row. -/
def State.squareOf (s : State) (cl asid : Nat) (p : DecPlan) (r c edge : Nat) : DecLook (List FpVal) :=
  (List.range (edge * edge)).mapM (fun q => do
    let x ← s.scaledElem cl asid p.card p.src (r + q / edge) (c + q % edge)
    pure x.val)

/-- The K rows of a group word that are present, by row of the stripe. -/
def rowPresent (word row : Nat) : Bool := (natBits word (12 * (row / 12)) 12).testBit (row % 12)

/-- A value is not zero. -/
def FpVal.nonzero : FpVal → Bool
  | .zero _ => false
  | _ => true

/-- The work of unit (i, j) of a card (R372). -/
def State.unitWork (s : State) (cl asid : Nat) (p : DecPlan) (i j : Nat) : DecLook UnitOut := do
  let c := p.card
  let d := p.dst
  let at_ := fun (o : Nat) => d.base + BitVec.ofNat 64 o
  if c.dk = 1 then
    let bs ← s.decRead cl asid (some p.src.fg) (c.src + BitVec.ofNat 64 (i * c.ps + j)) 1
    pure { tile := [(i * c.cols + j, bs)] }
  else if c.dk = 2 then
    let w := waBits c.wa
    let xs ← s.squareOf cl asid p (i * c.ta) (j * c.ta) c.ta
    let q := quantTile w c.rnd xs
    let t := i * (768 / c.ta) + j
    pure { tile := [(t, [BitVec.ofNat 8 q.1]), (2048 + t * (c.ta * c.ta * w / 8), packCodes w q.2.1)], flags := q.2.2 }
  else if c.raw then
    let bs ← s.decRead cl asid (some p.src.fg) (c.src + BitVec.ofNat 64 (i * c.ps + j)) 1
    s.decWrite cl asid d.fg (at_ (i * c.pd + j)) 1
    pure { mem := [(at_ (i * c.pd + j), bs, 255)] }
  else if !blockFormat d.fg.1 then
    let x ← s.scaledElem cl asid c p.src i j
    let v := if d.fg.1 = 0 then (match RegType.ofCode d.typ with | some t => convert t c.rnd x | none => (0, 0))
      else linearCode d.fg.1 c.rnd x
    let q := d.linear (i * c.pd + j)
    s.decWrite cl asid d.fg (at_ q.1) q.2.1
    pure { mem := [(at_ q.1, natBytes q.2.1 (v.1 % 2 ^ d.bits * 2 ^ q.2.2), if d.bits = 4 then BitVec.ofNat 8 (15 * 2 ^ q.2.2) else 255)]
           flags := v.2 }
  else if d.fg.2 = 3 then
    let w := elemBits d.fg.1
    let b := blockSpot d.fg.1 3 d.n (d.blockIndex (96 * i) (32 * j))
    let word ← s.stripeWord cl asid d b
    let xs ← (List.range 3).mapM (fun t => s.squareOf cl asid p (96 * i + 32 * t) (32 * j) 32)
    let present := fun (t q : Nat) => rowPresent word (32 * t + q / 32)
    let qs := xs.zipIdx.map (fun x => quantTile w c.rnd (x.1.zipIdx.map (fun y => if present x.2 y.2 then y.1 else .zero false)))
    let lost := xs.zipIdx.any (fun x => x.1.zipIdx.any (fun y => !present x.2 y.2 && y.1.nonzero))
    let rows := (List.range 96).filter (rowPresent word)
    let ws := rows.zipIdx.map (fun r =>
      (at_ (b.unit * unitBytes + b.data + 16 + r.2 * (4 * w)),
        packCodes w ((((qs.getD (r.1 / 32) (0, [], 0)).2.1).drop (r.1 % 32 * 32)).take 32), (255 : Byte)))
    let es := qs.zipIdx.map (fun q => (at_ (b.unit * unitBytes + b.exp + q.2), [(BitVec.ofNat 8 q.1.1 : Byte)], (255 : Byte)))
    (ws ++ es).forM (fun q => s.decWrite cl asid d.fg q.1 q.2.1.length)
    pure { mem := ws ++ es, flags := qs.foldl (fun f q => f ||| q.2.2) (if lost then 16 else 0) }
  else
    let w := elemBits d.fg.1
    let t := tileEdge d.fg.2
    let b := squareSpot w t (d.blockIndex (t * i) (t * j))
    let xs ← s.squareOf cl asid p (t * i) (t * j) t
    let q := quantTile w c.rnd xs
    let codes := packCodes w q.2.1
    let ws : List (W64 × List Byte × Byte) :=
      [(at_ (b.unit * unitBytes + b.data), codes, 255), (at_ (b.unit * unitBytes + b.exp), [BitVec.ofNat 8 q.1], 255)]
    ws.forM (fun q => s.decWrite cl asid d.fg q.1 q.2.1.length)
    pure { mem := ws, flags := q.2.2 }

/-- Perform the writes of a unit. -/
def State.decPerform (s : State) (cl asid : Nat) (tile : Option Nat) (o : UnitOut) : State :=
  let s1 := o.mem.foldl (fun (t : State) w =>
    let r := t.translateSpan (.decanter cl) asid w.1 w.2.1.length .write (w.2.1.length / 4096 + 2)
    match r.1 with
    | .ok ps => r.2.performPages (.unit (.decanter cl)) ((pieceWrites ps w.2.1).map (fun q => (q.1, { q.2 with bits := w.2.2 })))
    | .error _ => r.2) s
  match tile with
  | none => s1
  | some key =>
    let c := s1.cluster cl
    match SMap.find c.tiles key with
    | none => s1
    | some t =>
      let data := o.tile.foldl (fun m w => (w.2.zipIdx).foldl (fun m b => SMap.setD m (w.1 + b.2) b.1 0) m) t.data
      s1.setCluster cl { c with tiles := SMap.put c.tiles key { t with data := data } }

/-! ### Chunks (R373, R374) -/

/-- Run units from number n: the state and the flags, or the first fault. -/
def State.runUnits (s : State) (cl asid : Nat) (p : DecPlan) (flags n : Nat) : Nat → Except DecErr (State × Nat)
  | 0 => .ok (s, flags)
  | fuel + 1 =>
    let r := (s.unitWork cl asid p (n / p.perRow) (n % p.perRow)).run.run []
    match r.1 with
    | .error e => .error e
    | .ok o =>
      ((s.touch (.decanter cl) asid r.2).decPerform cl asid p.tile o).runUnits cl asid p (flags ||| o.flags) (n + 1) fuel

/-- Every page that the units from number n touch translates, before the chunk starts (R373). -/
def State.tryUnits (s : State) (cl asid : Nat) (p : DecPlan) (n : Nat) : Nat → Except DecErr Unit
  | 0 => .ok ()
  | fuel + 1 =>
    match ((s.unitWork cl asid p (n / p.perRow) (n % p.perRow)).run.run []).1 with
    | .error e => .error e
    | .ok _ => s.tryUnits cl asid p (n + 1) fuel

/-- A card's cursor entry (R373). -/
def DecSlot.cursor (k : DecSlot) : BitVec 256 :=
  BitVec.ofNat 256 (k.card.addr.toNat + k.row * 2 ^ 64 + k.col * 2 ^ 96 + k.card.asid * 2 ^ 128 + k.flags.toNat * 2 ^ 144 + k.state * 2 ^ 152)

/-- Write a card's cursor entry. -/
def State.writeCursor (s : State) (cl cls : Nat) (k : DecSlot) : State :=
  let d := s.die (dieOfCluster cl)
  s.setDie (dieOfCluster cl) { d with cursors := SMap.put d.cursors (4 * (cl % 16) + cls) k.cursor }

/-- Store a card's slot. -/
def State.setDec (s : State) (cl cls : Nat) (k : DecSlot) : State :=
  let c := s.cluster cl
  s.setCluster cl { c with dec := SMap.put c.dec cls k }

/-- The card the Decanter works on next (R365, R373): its own while its guest's time slice lasts and no card of a higher
class can go on, else one of the chosen guest, of the highest class. -/
def State.decChoice (s : State) (cl : Nat) : Option Nat :=
  let c := s.cluster cl
  let d := s.die (dieOfCluster cl)
  let ready := [3, 2, 1, 0].filter (fun n => match SMap.find c.dec n with | some k => k.page.isNone && k.ahead == 0 | none => false)
  let guestOf := fun n => match SMap.find c.dec n with | some k => k.card.guest | none => 0
  let fresh := match d.choose ((List.range 64).filter (fun g => ready.any (fun n => guestOf n == g))) with
    | some g => ready.find? (fun n => guestOf n == g)
    | none => none
  match c.decCur with
  | some n =>
    if ready.contains n && !d.ended.contains (guestOf n) then some (ready.headD n) else fresh
  | none => fresh

/-- DECANTER_SWITCH (R373): the cursor of the card that is left is written, and the other is resumed at its own. -/
def State.decSwitch (s : State) (cl n : Nat) : State :=
  let c := s.cluster cl
  if c.decCur = some n then s
  else
    let s1 := match c.decCur with
      | some m => match SMap.find c.dec m with
        | some k => let k1 := { k with state := 2 }; (s.setDec cl m k1).writeCursor cl m k1
        | none => s
      | none => s
    let c1 := s1.cluster cl
    let s2 := s1.setCluster cl { c1 with decCur := some n }
    match SMap.find c.dec n with
    | some k => let k1 := { k with state := 1 }; (s2.setDec cl n k1).writeCursor cl n k1
    | none => s2

/-- A card stops before a chunk (R374): it ends with a fault, or is suspended at its cursor for a page. -/
def State.decStop (s : State) (cl n : Nat) (k : DecSlot) (e : DecErr) : State :=
  match e with
  | (_, .fault k, va) => s.endDecanter cl n (causeCode 2 k) va
  | (acc, f, va) =>
    let k1 := { k with state := 2, page := some (pageOf va) }
    ((s.setDec cl n k1).writeCursor cl n k1).unitRequest (.decanter cl) k.card.asid (pageOf va) (f.union acc) f.leaf (.unit (.decanter cl) n)

/-- DECANTER_CHUNK (R373): the next chunk of `units` whole units, at least one, of the card the Decanter works on. -/
def execDecanterChunk (cluster units : Nat) (s : State) : Out :=
  let cl := cluster % 64
  match s.decChoice cl with
  | none => .next s
  | some n =>
    let s1 := s.decSwitch cl n
    match SMap.find (s1.cluster cl).dec n with
    | none => .next s1
    | some k =>
      let asid := k.card.asid
      let r := (s1.decPlan cl k).run.run []
      let s2 := s1.touch (.decanter cl) asid r.2
      match r.1 with
      | .error e => .next (s2.decStop cl n k e)
      | .ok p =>
        let at_ := k.row * p.perRow + k.col
        let m := min (max 1 units) (p.total - at_)
        match s2.tryUnits cl asid p at_ m with
        | .error e => .next (s2.decStop cl n k e)
        | .ok _ =>
          match s2.runUnits cl asid p k.flags.toNat at_ m with
          | .error e => .next (s2.decStop cl n k e)
          | .ok (s3, flags) =>
            let next := at_ + m
            let k1 := { k with row := next / p.perRow, col := next % p.perRow, flags := BitVec.ofNat 5 flags }
            let s4 := (s3.setDec cl n k1).nextFree
            .next (if p.total ≤ next then s4.endDecanter cl n 0 0 else s4)

end Sys2Proof.Machine
end

