-- ==== Sys2Proof/Machine/Fetch.lean ====
section
/-!
DEFINITION. What stands around an instruction: whose turn it is (notes/assumptions/1), the pops before an issue
(06_control R142), debug breakpoints (22_system R440), the fetch and its translation (10_pages R214, R219), the decoder,
and the rules of a hint group (03_encoding R67 to R69).

`prepare` builds no instruction of its own but RESERVED_WORD and DEBUG_BREAKPOINT; it is `noncomputable` for the reason
Sys2Proof/Decode.lean gives.
-/

namespace Sys2Proof.Machine

/-- What a turn comes to before an instruction acts: an instruction of the agent that `cur` names, an event of no row, or nothing
more. -/
inductive Prep where
  | run (i : Instr) (s : State)
  | more (m : Other) (s : State)
  | done (s : State)

/-- The hint kinds a word accepts, with the payloads its class admits (R67, 07_integer R157). -/
def accepts (w : W32) (kind payload : Nat) : Bool :=
  let op := bitsAt w 26 6
  let fn := bitsAt w 18 4
  let fn6 := bitsAt w 20 6
  match kind with
  | 0 => op == 0x01 || op == 0x02 || op == 0x0D || op == 0x0E || op == 0x0F || (op == 0x2C && fn6 == 2)
      || (op == 0x30 && fn6 == 0)
  | 1 => op == 0x01 || (op == 0x03 && fn == 0)
  | 2 => (decide (0x10 ≤ op) && decide (op ≤ 0x15)) || op == 0x1F || (op == 0x22 && fn == 9)
      || (op == 0x08 && fn == 15 && (payload == 0 || payload == 4))
  | 3 => (decide (0x1C ≤ op) && decide (op ≤ 0x1F)) || (op == 0x20 && (fn6 == 2 || (decide (5 ≤ fn6) && payload % 8 == 0)))
      || (op == 0x09 && fn == 13 && payload / 8 == 0)
  | 4 => true
  | 5 => (decide (0x1C ≤ op) && decide (op ≤ 0x1F)) || (op == 0x20 && fn6 != 2)
      || (decide (0x24 ≤ op) && decide (op ≤ 0x2A)) || (op == 0x2C && (fn6 == 0 || fn6 == 1))
  | 6 => op == 0x1E || op == 0x1F || (op == 0x22 && (fn == 8 || fn == 9))
  | _ => false

/-- Every pending hint is accepted by the word; a hint word itself is judged when it issues (R68). -/
def hintsAccepted (w : W32) (hs : List W32) : Bool :=
  bitsAt w 26 6 == 0x3E || hs.all (fun h => accepts w (bitsAt h 22 4) (bitsAt h 0 22))

/-- The instruction a word is, in the light of its hints: any breach is a word that is not an instruction (R68, R71). -/
noncomputable def instrOf (w : W32) (hs : List W32) : Instr :=
  match decode w with
  | .ok i => if hintsAccepted w hs then i else .reservedWord w
  | .error _ => .reservedWord w

/-- The debug breakpoint that a group at an address meets (R440). -/
def Die.breakpoint (d : Die) (asid : Nat) (pc : W64) : Option Nat :=
  (List.range 4).find? (fun n =>
    let b := SMap.getD d.dbgbp n 0
    b.getLsbD 0 && bitsAt b 2 50 == vaNat pc / 4 && (b.getLsbD 1 || bitsAt b 64 16 == asid))

/-- Settle the slices of a part, lowest first (R142). -/
def State.settleAll (s : State) (x : Ctx) : List Nat → Except PopFault (List (Nat × Slice)) × State
  | [] => (.ok [], s)
  | k :: t =>
    let r := s.settle x.crew x.gang k x.c (x.g.slice k) 300
    match r.1 with
    | .error e => (.error e, r.2)
    | .ok sl =>
      let q := r.2.settleAll x t
      match q.1 with
      | .error e => (.error e, q.2)
      | .ok l => (.ok ((k, sl) :: l), q.2)

/-- The pops before a part issues: a new state, and whether the part stands as it was. -/
def State.settlePart (s : State) (x : Ctx) : Bool × State :=
  if !x.hints.isEmpty then (true, s)
  else
    let r := s.settleAll x x.part
    match r.1 with
    | .error (.fail f va) => (false, r.2.stopFrame x f va .read)
    | .error .misaligned => (false, r.2.takeTrap x { kind := .misalignedCode })
    | .ok slices =>
      if slices.all (fun p => p.2 == x.g.slice p.1) then (true, r.2)
      else
        let g1 := { x.g with slices := slices.foldl (fun (l : List Slice) (p : Nat × Slice) => l.set p.1 p.2) x.g.slices }
        let s1 := r.2.setGang x.crew x.gang (g1.split x.part)
        let left := slices.any (fun p => p.2.exited)
        (false, if left then s1.afterExit x.crew x.gang else s1)

/-- A part may issue: its crew runs or is stopping, and it does not wait. -/
def Ctx.ready (x : Ctx) : Bool :=
  (decide (x.c.phase = .running) || decide (x.c.phase = .stopping)) && (x.g.slice x.low).wait.isNone

/-- The word at a translated address. -/
def State.fetchWord (s : State) (p : Page) : W32 × State :=
  let ps := [(p, 4)]
  (BitVec.ofNat 32 (bytesNat (s.pieceData ps)), s.spent ps)

/-- The words of a hint group from an address on: every hint word, and the first word that is none (R69). A word that does
not translate ends it. -/
def State.groupWords (s : State) (x : Ctx) (pc : W64) : Nat → Nat
  | 0 => 0
  | n + 1 =>
    match (s.translate x.unit x.c.asid pc .execute).1 with
    | .ok p => if bitsAt (s.fetchWord p).1 26 6 = 0x3E then s.groupWords x (pc + 4) n + 1 else 1
    | .error _ => 1

/-- The part with the length of its whole group, for a trap that comes before every word of the group has issued: a skip
goes behind all of the group (R69, 22_system R428). -/
def State.wholeGroup (s : State) (x : Ctx) : Ctx := { x with len := 4 * (x.hints.length + s.groupWords x x.pc (2 ^ 50)) }

/-- Why no instruction is fetched from a translated address (10_pages R219, R225, 22_system R424, R430, R431): the control space
admits a service crew only (notes/assumptions/72); a module to which no route is valid; an address outside another module's DRAM; a marked line. -/
def State.fetchFault (s : State) (service : Bool) (p : Page) : Option Trap :=
  if p.control && !service then some { kind := .instructionFetch, detail := FaultKind.protection.code }
  else if p.remote && !s.routeValid p.peer then some { kind := .instructionFetch, detail := FaultKind.peerLost.code }
  else if p.remote && decide (dramEnd ≤ p.pa) then some { kind := .unsupportedRequest }
  else if s.poisonedIn [(p, 4)] then some { kind := .uncorrectableData }
  else none

/-- A part's issue: breakpoint, fetch, decode (R440, R214, R219). -/
noncomputable def State.issuePart (s : State) (x : Ctx) : Prep :=
  let bp := if x.hints.isEmpty && !(x.g.slice x.low).unchecked then (s.die x.die).breakpoint x.c.asid x.pc else none
  match bp with
  | some n => .run (.debugBreakpoint n) s
  | none =>
    let r := s.translate x.unit x.c.asid x.pc .execute
    match r.1 with
    | .error (.fault k) => .done (r.2.takeTrap x { kind := .instructionFetch, detail := k.code })
    | .error f => .done (r.2.requestPages x true [(x.pc, f, .execute)])
    | .ok p =>
      match r.2.fetchFault (recService x.c.record) p with
      | some t => .done (r.2.takeTrap x t)
      | none =>
        let w := (r.2.requestRead [(p, 4)] (.gang x.crew x.gang x.mask)).fetchWord p
        .run (instrOf w.1 x.hints) w.2

/-- A load of the part has failed: the lanes that have their data keep them, the others join the replay mask, and the part takes
the load's fault at the load (09_memory R194, 22_system R424). -/
def State.takeFailure (s : State) (x : Ctx) (f : Flight) (k : FaultKind) : State :=
  let done := f.lanes.filter FlightLane.bound
  let rest := f.lanes.filter (fun l => !l.bound)
  let va := match rest.find? (fun l => l.bytes.any (fun b => b.away.isSome)) with | some l => l.va | none => 0
  let uniform := match f.dest with | .uniform _ _ => true | _ => false
  let g0 := x.g.land { f with lanes := done }
  let g1 := (if uniform then { g0 with regs := x.g.regs } else g0).mapSlices x.part
    (fun _ sl => { sl with pc := f.start, hints := [] })
  let old := match SMap.find g1.replay x.low with | some (m, _) => m | none => 0
  let mask := old ||| laneMask (rest.map (·.lane))
  let g2 := if uniform then g1 else { g1 with replay := SMap.put g1.replay x.low (mask, va) }
  let s1 := s.setGang x.crew x.gang g2
  match s1.ctxOf x.crew x.gang x.low with
  | none => s1
  | some y =>
    let lanes := if uniform then laneMask (x.lanes 7)
      else laneMask ((rest.filter (fun l => l.bytes.any (fun b => b.away.isSome))).map (·.lane))
    s1.takeTrapAt { y with len := f.len } { kind := k } va lanes

/-- A load of the part that holds it: one that has failed, or one that may still fail or is an acquire (05_work R113,
14_ordering R282). -/
def Ctx.held (x : Ctx) : Option Flight :=
  x.g.loads.find? (fun f => (f.slices &&& x.mask) != 0 && (f.holds || f.failed.isSome))

/-- A part's turn: a load that holds it comes first; a pop that changes the part is a turn of its own. -/
noncomputable def State.preparePart (s : State) (crew gang slice : Nat) : Prep :=
  match s.ctxOf crew gang slice with
  | none => .done s
  | some x =>
    if !x.ready then .done s
    else
      match x.held with
      | some f =>
        match f.failed with
        | some k => .done (s.takeFailure x f k)
        | none => .done (s.waitData x)
      | none =>
        let q := s.settlePart x
        if q.1 then q.2.issuePart x else .done q.2

/-- A Vintner's turn: a program card's context fetches under the card's ASID (17_matrix R332); a product card's takes its
steps as PRODUCT_CARD, and a program begins with PROGRAM_CARD. -/
noncomputable def State.prepareVintner (s : State) (cl : Nat) : Prep :=
  match s.vRun? cl with
  | none => .done s
  | some x =>
    if x.k.card.block.extractLsb' 192 64 = 0 ∨ x.k.prod = 0 then .done s
    else if bitsAt x.pc 0 2 ≠ 0 then .done (s.vFault x .misalignedCode)
    else
      let r := s.translate x.unit x.k.card.asid x.pc .execute
      match r.1 with
      | .error (.fault _) => .done (r.2.vFault x .instructionFetch)
      | .error f =>
        let pg := pageOf x.pc
        .done ((r.2.vWait x (.page x.k.card.asid pg true)).unitRequest x.unit x.k.card.asid pg (f.union .execute) f.leaf
          (.unit x.unit x.cls))
      | .ok p =>
        match r.2.fetchFault false p with
        | some t => .done (r.2.vFault x t.kind)
        | none =>
          let w := (r.2.requestRead [(p, 4)] (.unit x.unit)).fetchWord p
          .run (instrOf w.1 x.k.hints) w.2

/-- What the world outside does to a module that has shut down, has not started, or is in recovery: starts, the image of
BAR0, the SPDM responder (24_ports R460 to R462). -/
def outsideEvent : Instr → Bool
  | .powerOn => true
  | .hostColdStart => true
  | .hostWarmStart => true
  | .firmwareImageWrite _ => true
  | .getVersion => true
  | .getCapabilities => true
  | .negotiateAlgorithms _ _ => true
  | .getDigests => true
  | .getCertificate _ => true
  | .challenge _ => true
  | .getMeasurements _ => true
  | .thermalThrottle _ => true
  | .thermalShutdown _ => true
  | .powerLimitThrottle => true
  | .powerLimitRelease => true
  | _ => false

/-- What goes on in a frozen module besides: outstanding accesses come to their end, the links, and the checkpoint itself
(24_ports R457). -/
def frozenEvent : Instr → Bool
  | .homeSliceWrite _ _ _ => true
  | .loadDataArrival _ => true
  | .completionTimeout _ => true
  | .tfillComplete _ => true
  | .bankFillComplete _ => true
  | .fenceComplete _ => true
  | .ready => true
  | .linkDown _ => true
  | .linkUp _ => true
  | .moduleLost _ => true
  | .rollback => true
  | i => outsideEvent i

/-- What goes on between READY and GO: nothing is issued (R457). -/
def readyEvent : Instr → Bool
  | .go => true
  | .linkDown _ => true
  | .linkUp _ => true
  | .moduleLost _ => true
  | .rollback => true
  | i => outsideEvent i

/-- The module has started and has not shut down. -/
def State.started (s : State) : Bool := decide (s.start.step = 6) && !s.start.recovery && !s.power.shutdown

/-- The agents issue: the module has started, and no checkpoint has frozen it. -/
def State.issues (s : State) : Bool := s.started && decide (s.phase ≠ .frozen) && decide (s.phase ≠ .ready)

/-- An event may happen now. -/
def State.admits (s : State) (i : Instr) : Bool :=
  if !s.started then outsideEvent i
  else match s.phase with
    | .frozen => frozenEvent i
    | .ready => readyEvent i
    | _ => true

/-- An event of no row may happen now: in a frozen module, only what ends outstanding accesses. -/
def State.admitsMore (s : State) (m : Other) : Bool :=
  s.started && match s.phase, m with
    | .frozen, .evict _ _ => true
    | .frozen, .hartPerform _ _ => true
    | .frozen, .corrected _ => true
    | .frozen, _ => false
    | .ready, _ => false
    | _, _ => true

/-- A clock's turn: `clock64` rises, and guests are charged while agents run. -/
def State.tick (s : State) : State :=
  let n := Config.elapsed s.free
  let t : State := { s with clock := s.clock + n, free := s.free + 1 }
  if s.issues then t.accrue n else t

/-- The turn of the agent that `cur` names. -/
noncomputable def State.prepareCur (s : State) : Prep :=
  if !s.issues then .done s
  else match s.cur with
    | .gang c g k => s.preparePart c g k
    | .vintner cl => s.prepareVintner cl
    | .none => .done s

/-- Take the next turn of the agenda: the agent whose turn it is becomes `cur`; with no turn left, `cur` goes on. -/
noncomputable def prepare (s : State) : Prep :=
  let s1 : State := { s.tick with late := none }
  match s1.agenda with
  | .event i :: rest =>
    if (encode i).isNone && s1.admits i then .run i { s1 with agenda := rest } else .done { s1 with agenda := rest }
  | .more m :: rest =>
    if s1.admitsMore m then .more m { s1 with agenda := rest } else .done { s1 with agenda := rest }
  | .issue c g k :: rest => ({ s1 with agenda := rest, cur := .gang c g k } : State).prepareCur
  | .issueLate c g k n :: rest => ({ s1 with agenda := rest, cur := .gang c g k, late := some n } : State).prepareCur
  | .vissue cl :: rest => ({ s1 with agenda := rest, cur := .vintner cl } : State).prepareCur
  | [] => s1.prepareCur

/-! ### Hint words and words that are not instructions (R66, R68, R71) -/

/-- A hint word joins the pending hints, unless two are pending or one of its kind is (R68). -/
def State.hintWord (s : State) (kind : Nat) (y : BitVec 22) : Out :=
  let w : W32 := 0x3E#6 ++ BitVec.ofNat 4 kind ++ y
  let bad := fun (hs : List W32) => decide (2 ≤ hs.length) || hs.any (fun h => bitsAt h 22 4 == kind)
  s.issueBoth { ss := some [] } true
    (fun x t =>
      if bad x.hints then .next (t.illegal (t.wholeGroup x))
      else match t.gang? x.crew x.gang with
        | some g => .next (t.setGang x.crew x.gang
            (g.mapSlices x.part (fun _ sl => { sl with pc := x.pc + 4, hints := x.hints ++ [w] })))
        | none => .next t)
    (fun x t =>
      if bad x.k.hints then .next (t.vFault x .illegalEncoding)
      else .next (t.setV x { x.k with pc := x.pc + 4, hints := x.k.hints ++ [w] }))

def execHintImmediate (y : BitVec 22) (s : State) : Out := s.hintWord 0 y
def execHintJoin (y : BitVec 22) (s : State) : Out := s.hintWord 1 y
def execHintRounding (y : BitVec 22) (s : State) : Out := s.hintWord 2 y
def execHintScalePolicy (y : BitVec 22) (s : State) : Out := s.hintWord 3 y
def execHintPriority (y : BitVec 22) (s : State) : Out := s.hintWord 4 y
def execHintScope (y : BitVec 22) (s : State) : Out := s.hintWord 5 y
def execHintFormat (y : BitVec 22) (s : State) : Out := s.hintWord 6 y

/-- RESERVED_WORD: the illegal-encoding fault, of origin 0 or 1 (R71, R72). -/
def execReservedWord (_w : BitVec 32) (s : State) : Out :=
  s.issueBoth { ss := some [] } true (fun x t => .next (t.illegal (t.wholeGroup x))) (fun x t => .next (t.vFault x .illegalEncoding))

/-- DEBUG_BREAKPOINT: the breakpoint fault before any word of the group acts; detail [8] and the register (R440). -/
def execDebugBreakpoint (n : Nat) (s : State) : Out :=
  s.issue { ss := some [] } (fun x t => .next (t.takeTrap (t.wholeGroup x) { kind := .breakpoint, detail := 256 + n % 4 }))

end Sys2Proof.Machine
end

