-- ==== Sys2Proof/Machine/Float.lean ====
section
/-!
DEFINITION. The floating-point class (08_floating_point R170 to R186). The operations on codes, with their rounding and
their flags, stand in Machine/Numbers.lean; the shapes of the instructions in Machine/Operands.lean.
-/

namespace Sys2Proof.Machine

/-! ### Bits [15:0] alone, and both halves (R182, R183) -/

/-- An operation on bits [15:0]; bits [31:16] of the result are zero (R182). -/
def scalar16 (f : Nat → Nat → Nat → Nat × Nat) (a b d : Nat) : Nat × Nat := f (a % 65536) (b % 65536) (d % 65536)

/-- An operation on each half on its own, the flags of both ORed (R183). -/
def packed16 (f : Nat → Nat → Nat → Nat × Nat) (a b d : Nat) : Nat × Nat :=
  let lo := f (a % 65536) (b % 65536) (d % 65536)
  let hi := f (a / 65536 % 65536) (b / 65536 % 65536) (d / 65536 % 65536)
  (lo.1 + 65536 * hi.1, lo.2 ||| hi.2)

/-! ### Major 0x10 -/

def execAddF32 (f : OpA) (s : State) : Out := s.fp f (fun r a b _ => fpAdd .f32 r a b)
def execSubF32 (f : OpA) (s : State) : Out := s.fp f (fun r a b _ => fpSub .f32 r a b)
def execMulF32 (f : OpA) (s : State) : Out := s.fp f (fun r a b _ => fpMul .f32 r a b)
def execFmaF32 (f : OpA) (s : State) : Out := s.fp f (fun r a b d => fpFma .f32 r false a b d)
def execFnmaF32 (f : OpA) (s : State) : Out := s.fp f (fun r a b d => fpFma .f32 r true a b d)
def execMinF32 (f : OpA) (s : State) : Out := s.fp f (fun r a b _ => fpMinMax .f32 r false a b)
def execMaxF32 (f : OpA) (s : State) : Out := s.fp f (fun r a b _ => fpMinMax .f32 r true a b)
def execAbsF32 (f : OpU) (s : State) : Out := s.fpUnary f (fun _ b => fpSign .f32 b false)
def execNegF32 (f : OpU) (s : State) : Out := s.fpUnary f (fun _ b => fpSign .f32 b (!FpFmt.signOf .f32 b))
def execRcpF32 (f : OpU) (s : State) : Out := s.fpUnary f (fun r b => fpRcp .f32 r b)
def execRsqrtF32 (f : OpU) (s : State) : Out := s.fpUnary f (fun r b => fpRsqrt .f32 r b)
def execSqrtF32 (f : OpU) (s : State) : Out := s.fpUnary f (fun r b => fpSqrt .f32 r b)
def execExp2F32 (f : OpU) (s : State) : Out := s.fpUnary f (fun r b => fpExp2 .f32 r b)
def execLog2F32 (f : OpU) (s : State) : Out := s.fpUnary f (fun r b => fpLog2 .f32 r b)
def execCopysignF32 (f : OpA) (s : State) : Out := s.fp f (fun _ a b _ => fpSign .f32 a (FpFmt.signOf .f32 b))

/-! ### Major 0x11 -/

def execAddF64 (f : OpA) (s : State) : Out := s.fpWide f (fun r a b _ => fpAdd .f64 r a b)
def execSubF64 (f : OpA) (s : State) : Out := s.fpWide f (fun r a b _ => fpSub .f64 r a b)
def execMulF64 (f : OpA) (s : State) : Out := s.fpWide f (fun r a b _ => fpMul .f64 r a b)
def execFmaF64 (f : OpA) (s : State) : Out := s.fpWide f (fun r a b d => fpFma .f64 r false a b d)
def execFnmaF64 (f : OpA) (s : State) : Out := s.fpWide f (fun r a b d => fpFma .f64 r true a b d)
def execMinF64 (f : OpA) (s : State) : Out := s.fpWide f (fun r a b _ => fpMinMax .f64 r false a b)
def execMaxF64 (f : OpA) (s : State) : Out := s.fpWide f (fun r a b _ => fpMinMax .f64 r true a b)
def execAbsF64 (f : OpU) (s : State) : Out := s.fpWideUnary f (fun _ b => fpSign .f64 b false)
def execNegF64 (f : OpU) (s : State) : Out := s.fpWideUnary f (fun _ b => fpSign .f64 b (!FpFmt.signOf .f64 b))
def execRcpF64 (f : OpU) (s : State) : Out := s.fpWideUnary f (fun r b => fpRcp .f64 r b)
def execRsqrtF64 (f : OpU) (s : State) : Out := s.fpWideUnary f (fun r b => fpRsqrt .f64 r b)
def execSqrtF64 (f : OpU) (s : State) : Out := s.fpWideUnary f (fun r b => fpSqrt .f64 r b)
def execCopysignF64 (f : OpA) (s : State) : Out := s.fpWide f (fun _ a b _ => fpSign .f64 a (FpFmt.signOf .f64 b))

/-! ### Majors 0x12 and 0x13 -/

def execAddH16 (f : OpA) (s : State) : Out := s.fp f (fun r => scalar16 (fun a b _ => fpAdd .h16 r a b))
def execMulH16 (f : OpA) (s : State) : Out := s.fp f (fun r => scalar16 (fun a b _ => fpMul .h16 r a b))
def execFmaH16 (f : OpA) (s : State) : Out := s.fp f (fun r => scalar16 (fun a b d => fpFma .h16 r false a b d))
def execMinH16 (f : OpA) (s : State) : Out := s.fp f (fun r => scalar16 (fun a b _ => fpMinMax .h16 r false a b))
def execMaxH16 (f : OpA) (s : State) : Out := s.fp f (fun r => scalar16 (fun a b _ => fpMinMax .h16 r true a b))
def execAddBf16 (f : OpA) (s : State) : Out := s.fp f (fun r => scalar16 (fun a b _ => fpAdd .bf16 r a b))
def execMulBf16 (f : OpA) (s : State) : Out := s.fp f (fun r => scalar16 (fun a b _ => fpMul .bf16 r a b))
def execFmaBf16 (f : OpA) (s : State) : Out := s.fp f (fun r => scalar16 (fun a b d => fpFma .bf16 r false a b d))
def execMinBf16 (f : OpA) (s : State) : Out := s.fp f (fun r => scalar16 (fun a b _ => fpMinMax .bf16 r false a b))
def execMaxBf16 (f : OpA) (s : State) : Out := s.fp f (fun r => scalar16 (fun a b _ => fpMinMax .bf16 r true a b))
def execAddH16x2 (f : OpA) (s : State) : Out := s.fp f (fun r => packed16 (fun a b _ => fpAdd .h16 r a b))
def execMulH16x2 (f : OpA) (s : State) : Out := s.fp f (fun r => packed16 (fun a b _ => fpMul .h16 r a b))
def execFmaH16x2 (f : OpA) (s : State) : Out := s.fp f (fun r => packed16 (fun a b d => fpFma .h16 r false a b d))
def execMinH16x2 (f : OpA) (s : State) : Out := s.fp f (fun r => packed16 (fun a b _ => fpMinMax .h16 r false a b))
def execMaxH16x2 (f : OpA) (s : State) : Out := s.fp f (fun r => packed16 (fun a b _ => fpMinMax .h16 r true a b))
def execAddBf16x2 (f : OpA) (s : State) : Out := s.fp f (fun r => packed16 (fun a b _ => fpAdd .bf16 r a b))
def execMulBf16x2 (f : OpA) (s : State) : Out := s.fp f (fun r => packed16 (fun a b _ => fpMul .bf16 r a b))
def execFmaBf16x2 (f : OpA) (s : State) : Out := s.fp f (fun r => packed16 (fun a b d => fpFma .bf16 r false a b d))
def execMinBf16x2 (f : OpA) (s : State) : Out := s.fp f (fun r => packed16 (fun a b _ => fpMinMax .bf16 r false a b))
def execMaxBf16x2 (f : OpA) (s : State) : Out := s.fp f (fun r => packed16 (fun a b _ => fpMinMax .bf16 r true a b))

/-! ### Major 0x14 -/

def execFeqF32 (f : OpCmp) (s : State) : Out := s.fpCmp f false (fun r a b => fpCompare .f32 r 0 a b)
def execFltF32 (f : OpCmp) (s : State) : Out := s.fpCmp f false (fun r a b => fpCompare .f32 r 1 a b)
def execFleF32 (f : OpCmp) (s : State) : Out := s.fpCmp f false (fun r a b => fpCompare .f32 r 2 a b)
def execFunordF32 (f : OpCmp) (s : State) : Out := s.fpCmp f false (fun r a b => fpCompare .f32 r 3 a b)
def execFeqF64 (f : OpCmp) (s : State) : Out := s.fpCmp f true (fun r a b => fpCompare .f64 r 0 a b)
def execFltF64 (f : OpCmp) (s : State) : Out := s.fpCmp f true (fun r a b => fpCompare .f64 r 1 a b)
def execFleF64 (f : OpCmp) (s : State) : Out := s.fpCmp f true (fun r a b => fpCompare .f64 r 2 a b)
def execFunordF64 (f : OpCmp) (s : State) : Out := s.fpCmp f true (fun r a b => fpCompare .f64 r 3 a b)

/-! ### Majors 0x15 and 0x16 -/

/-- The value a register or a pair holds for a type (R74). -/
def Regs.typed (r : Regs) (t : RegType) (a i : Nat) : Nat :=
  if t.wide then (r.getV2 a i).toNat else (r.getV a i).toNat

/-- Write values of a type in lanes (R74). -/
def Regs.writeTyped (r : Regs) (t : RegType) (d : Nat) (val : Nat → Nat) (ls : List Nat) : Regs :=
  if t.wide then r.writeV2 d (fun i => BitVec.ofNat 64 (val i)) ls else r.writeV d (fun i => BitVec.ofNat 32 (val i)) ls

/-- Registers a value of a type takes. -/
def RegType.regs (t : RegType) : Nat := if t.wide then 2 else 1

/-- `cvt` (R185): c is the destination's type code, u the source's; code 15 names no type (R65). -/
def execCvt (g : BitVec 3) (c : BitVec 4) (d a : BitVec 6) (u : BitVec 4) (s : State) : Out :=
  match RegType.ofCode c.toNat, RegType.ofCode u.toNat with
  | some dst, some src =>
    s.issue { guard := g, vs := [(d, dst.regs), (a, src.regs)], ss := some [] } (fun x t =>
      let r := x.g.regs
      let ls := x.lanes g.toNat
      let one := fun i => cvtCode dst src x.rnd (r.typed src a.toNat i)
      .next (t.finishFlags x (orFlags (ls.map (fun i => (one i).2)))
        (fun q => q.writeTyped dst d.toNat (fun i => (one i).1) ls)))
  | _, _ => s.issue { guard := g, ss := some [] } (fun x t => .next (t.illegal x))

/-- `tfence` (R186): every flag of the part's earlier instructions stands in `af` already; an enabled one traps. -/
def execTfence (s : State) : Out :=
  s.issue { ss := some [] } (fun x t =>
    let e := x.g.regs.enabled
    if e = 0 then .next (t.retireHere x) else .next (t.takeTrap x { kind := .arithmeticTrap, detail := e.toNat }))

end Sys2Proof.Machine
end

