-- ==== Sys2Proof/Machine/Hart.lean ====
section
/-!
DEFINITION. The resident cores (22_system R441, R442, 14_ordering R302): the places of their accesses under translation mode
14, mode Bare and the RISC-V modes Sv39, Sv48 and Sv57, whose walk is taken from the RISC-V privileged specification that
R441 names (notes/assumptions/41); exceptions, interrupts and their return (notes/assumptions/57); store buffer, fences and
releases.
-/

namespace Sys2Proof.Machine

/-- Supervisor external interrupt of resident core c of a die: `SYSIRQ` and its `SYSIE` share a bit (R432). -/
def State.externalInterrupt (s : State) (hart : Nat) : Bool :=
  ((s.die (hart / 8)).irq &&& SMap.getD (s.die (hart / 8)).sysie (hart % 8) 0) != 0

/-- The access a hart's operation is (R442). -/
def hartKind (op : HartOp) : Access :=
  match op with
  | .load => .read
  | .lr => .read
  | .store => .write
  | .fetch => .execute
  | .sc => .atomic
  | .amo _ => .atomic

/-- The RISC-V exception code of an operation: page fault, access fault, or misaligned address. -/
def pageFaultCode (op : HartOp) : Nat :=
  match op with
  | .fetch => 12
  | .load => 13
  | .lr => 13
  | _ => 15
def accessFaultCode (op : HartOp) : Nat :=
  match op with
  | .fetch => 1
  | .load => 5
  | .lr => 5
  | _ => 7
def misalignedCode (op : HartOp) : Nat :=
  match op with
  | .fetch => 0
  | .load => 4
  | .lr => 4
  | _ => 6

/-- The exception of a translation that fails (R442, 10_pages R211): a page fault, but for the faults that are none of the
page's. -/
def failCode (op : HartOp) (f : Fail) : Nat :=
  match f with
  | .fault .uncorrectableData => accessFaultCode op
  | .fault .misalignedData => misalignedCode op
  | _ => pageFaultCode op

/-! ### Where an access lies -/

/-- A physical address as a page of mode Bare, under the attributes of its 4 KiB piece. -/
def State.barePage (s : State) (die pa : Nat) : Page :=
  let e := s.attrOf die pa
  { pa := pa, peer := s.ports.devid, remote := false, kind := kindOf e.toNat, fmt := bitsAt e 2 5, geo := bitsAt e 7 3,
    base := pa, size := 4096 }

/-- Pieces of a physical range, by 4 KiB; an address where nothing lies, or that is in the attribute table, is an access
fault. -/
def State.physical (s : State) (die pa n : Nat) : Nat → Except Unit (List Piece)
  | 0 => .ok []
  | fuel + 1 =>
    if n = 0 then .ok []
    else if spaceOf pa = .nothing ∨ s.inAttrTable die pa then .error ()
    else
      let len := min n (4096 - pa % 4096)
      match s.physical die (pa + len) (n - len) fuel with
      | .error e => .error e
      | .ok ps => .ok ((s.barePage die pa, len) :: ps)

/-- The levels of a RISC-V translation mode. -/
def svLevels (mode : Nat) : Nat := match mode with | 8 => 3 | 9 => 4 | 10 => 5 | _ => 0

/-- A RISC-V leaf admits an access: R, W, X, and U against the privilege and SUM; A, and D for a write, stand set. -/
def svAllowed (e : Nat) (acc : Access) (supervisor sum : Bool) : Bool :=
  let user := e.testBit 4
  let priv := if supervisor then !user || (sum && decide (acc ≠ .execute)) else user
  let write := decide (acc = .write) || decide (acc = .atomic)
  priv && allowed acc (e.testBit 1) (e.testBit 2) (e.testBit 3) && e.testBit 6 && (!write || e.testBit 7)

/-- A RISC-V walk of `n` levels from a table's physical address: the physical address, or none for a page fault. -/
def svWalk (m : Memory) (va : Nat) (acc : Access) (supervisor sum : Bool) : Nat → Nat → Option Nat
  | 0, _ => none
  | l + 1, t =>
    let e := Memory.readNat m (t + 8 * natBits va (12 + 9 * l) 9) 8
    let r := e.testBit 1
    let w := e.testBit 2
    let x := e.testBit 3
    let ppn := natBits e 10 44
    if !e.testBit 0 || (w && !r) || natBits e 54 10 != 0 then none
    else if r || x then
      if ppn % 2 ^ (9 * l) ≠ 0 then none
      else if svAllowed e acc supervisor sum then some (ppn * 4096 + va % 2 ^ (12 + 9 * l))
      else none
    else if e.testBit 4 || e.testBit 6 || e.testBit 7 then none
    else svWalk m va acc supervisor sum l (ppn * 4096)

/-- A virtual address is canonical for a mode of n levels. -/
def svCanonical (n : Nat) (va : W64) : Bool :=
  let k := 11 + 9 * n
  decide (va.toNat / 2 ^ k = 0) || decide (va.toNat / 2 ^ k = 2 ^ (64 - k) - 1)

/-- Pieces of a virtual range of a RISC-V mode, by 4 KiB: the exception code of the first that fails, with its address. -/
def State.svSpan (s : State) (die : Nat) (satp : W64) (q : HartReq) (va : W64) (n : Nat) : Nat → Except (Nat × W64) (List Piece)
  | 0 => .ok []
  | fuel + 1 =>
    if n = 0 then .ok []
    else
      let levels := svLevels (bitsAt satp 60 4)
      let walk := if svCanonical levels va then
          svWalk s.mem va.toNat (hartKind q.op) q.supervisor q.sum levels (bitsAt satp 0 44 * 4096)
        else none
      match walk with
      | none => .error (pageFaultCode q.op, va)
      | some pa =>
        let len := min n (4096 - va.toNat % 4096)
        match s.physical die pa len 1 with
        | .error _ => .error (accessFaultCode q.op, va)
        | .ok ps =>
          match s.svSpan die satp q (va + BitVec.ofNat 64 len) (n - len) fuel with
          | .error e => .error e
          | .ok qs => .ok (ps ++ qs)

/-- Where a hart's access lies, or its exception code with `stval` (R442). -/
def State.hartPlace (s : State) (n : Nat) (q : HartReq) : Except (Nat × W64) (List Piece) × State :=
  let satp := (s.hart n).satp
  let u : UnitId := .hart n
  let mode := bitsAt satp 60 4
  if mode = 14 then
    if q.supervisor && (decide (q.op = .fetch) || !q.sum) then (.error (pageFaultCode q.op, q.addr), s)
    else
      let r := s.translateSpan u (bitsAt satp 44 16) q.addr q.size (hartKind q.op) 3
      match r.1 with
      | .error (f, va) => (.error (failCode q.op f, va), r.2)
      | .ok ps => (.ok ps, r.2)
  else if svLevels mode ≠ 0 then (s.svSpan u.die satp q q.addr q.size 3, s)
  else match s.physical u.die q.addr.toNat q.size 3 with
    | .error _ => (.error (accessFaultCode q.op, q.addr), s)
    | .ok ps => (.ok ps, s)

/-- What an access meets at the place it has found: the control space's rules (R430), a page that admits no AMO, LR or SC
(R442), an address that such an operation does not take, an uncorrectable error. -/
def State.hartFault (s : State) (q : HartReq) (ps : List Piece) : Option Nat :=
  let atomic := match q.op with | .lr => true | .sc => true | .amo _ => true | _ => false
  if ps.any (fun p => p.1.control) then
    if atomic then some (pageFaultCode q.op)
    else if ps.length = 1 ∧ (q.size = 4 ∨ q.size = 8) ∧ q.addr.toNat % q.size = 0 then none
    else some (misalignedCode q.op)
  else if atomic && decide (q.addr.toNat % q.size ≠ 0) then some (misalignedCode q.op)
  else if atomic && ps.any (fun p => !atomicKind p.1.kind) then some (accessFaultCode q.op)
  else if atomic && ps.any (fun p => p.1.away) then some (accessFaultCode q.op)
  else if decide (q.op ≠ .store) && s.poisonedIn ps then some (accessFaultCode q.op)
  else none

/-! ### Exceptions, interrupts, registers (R441; notes/assumptions/57) -/

/-- A hart takes a trap into S-mode: cause, `stval`, `sepc`, the bits of `sstatus`, and the handler's address; interrupts go
to their own vectors in vectored mode. -/
def Hart.trap (h : Hart) (cause : Nat) (va : W64) : Hart :=
  let base := h.stvec &&& ~~~ (3 : W64)
  { h with
    scause := some cause, stval := va, sepc := h.pc
    spp := h.supervisor, spie := h.sie, sie := false, supervisor := true
    pc := if 2 ^ 63 ≤ cause ∧ bitsAt h.stvec 0 2 = 1 then base + BitVec.ofNat 64 (4 * (cause - 2 ^ 63)) else base }

/-- A hart's access ends with an exception: its code, and `stval`. -/
def State.hartTrap (s : State) (n code : Nat) (va : W64) : State :=
  s.setHart n { (s.hart n).trap code va with faulted := true }

/-- The supervisor external interrupt is taken: it is pending, enabled in `sie`, and S-mode does not mask it. -/
def State.takeInterrupt (s : State) (n : Nat) : State :=
  let h := s.hart n
  if s.externalInterrupt n && h.enables.getLsbD 9 && (!h.supervisor || h.sie) then s.setHart n (h.trap (2 ^ 63 + 9) 0) else s

/-- `sret`. -/
def State.hartReturn (s : State) (n : Nat) : State :=
  let h := s.hart n
  if h.supervisor then s.setHart n { h with supervisor := h.spp, sie := h.spie, spie := true, spp := false, pc := h.sepc } else s

/-- A write of a register in S-mode; `sepc` and `stvec` keep their low bits as RISC-V has them. -/
def State.csrWrite (s : State) (n : Nat) (r : HartReg) (v : W64) : State :=
  let h := s.hart n
  if !h.supervisor then s
  else s.setHart n (match r with
    | .sie => { h with enables := v &&& 0x222 }
    | .stvec => { h with stvec := v &&& ~~~ (2 : W64) }
    | .sepc => { h with sepc := v &&& ~~~ (1 : W64) }
    | .sscratch => { h with sscratch := v }
    | .status => { h with sie := v.getLsbD 1, spie := v.getLsbD 5, spp := v.getLsbD 8, sum := v.getLsbD 18 })

/-- `sfence.vma`: the hart's own translations go (R442). -/
def State.sfence (s : State) (n : Nat) : State :=
  if (s.hart n).supervisor then { s with tlb := s.tlb.filter (fun t => decide (t.unit ≠ .hart n)) } else s

/-! ### The store buffer (14_ordering R302) -/

/-- A `fence`: with writes before it, every store of the hart is performed; its reads have their values already. -/
def State.hartFence (s : State) (n : Nat) (pred succ : BitVec 2) : State :=
  if pred.getLsbD 0 && decide (succ ≠ 0) then s.hartRelease n else s

/-- A buffered store of a hart is performed when nothing of its program order holds it. -/
def State.hartPerform (s : State) (n idx : Nat) : State :=
  let h := s.hart n
  match h.buffer[idx]? with
  | none => s
  | some e =>
    if (h.buffer.take idx).any (fun q => e.behind q) then s
    else (s.setHart n { h with buffer := h.buffer.eraseIdx idx }).hartEntry n e

/-- What the hart has buffered for the bytes of an access is performed first; all of it before the control space is reached
(22_system R430). -/
def State.hartFirst (s : State) (n : Nat) (ps : List Piece) : State :=
  if ps.any (fun p => p.1.control) then s.hartDue n (fun _ => true) else s.hartDue n (fun e => e.beforeRead ps)

/-! ### The access -/

/-- A hart's access ends with a value. -/
def State.hartDone (s : State) (n : Nat) (v : Nat) : State :=
  s.setHart n { s.hart n with result := BitVec.ofNat 64 v, faulted := false }

/-- The hart's die holds a copy of every line it reads (14_ordering R291). -/
def State.hartCopies (s : State) (n : Nat) (ps : List Piece) : State :=
  (((pieceBytes ps).filter (fun p => p.1.local)).map (fun p => lineOf p.2)).eraseDups.foldl
    (fun t l => t.recordResident l (n / 8)) s

/-- Read as a hart reads. -/
def State.hartRead (s : State) (n : Nat) (q : HartReq) (ps : List Piece) : Nat × State :=
  let data := (bytesNat (s.pieceData ps), ((s.spent ps).requestRead ps (hartWriter n)).hartCopies n ps)
  match ps with
  | [(p, _)] =>
    if p.control then
      match controlAt p.pa with
      | some (dn, off) => ((s.regRead dn off q.size).toNat % 2 ^ (8 * q.size), s)
      | none => (0, s)
    else data
  | _ => data

/-- The entries of a hart's store, line by line. -/
def hartEntries (q : HartReq) (ps : List Piece) : List BufEntry :=
  let ws := pieceWrites ps (natBytes q.size q.value.toNat)
  let here := (ws.filter (fun w => w.1.local)).map (fun w => (w.1.kind, w.2))
  let away := (ws.filter (fun w => w.1.away)).map (fun w => (w.1.place.getD none, w.2.addr))
  let entry := fun (o : BufOp) (one : Bool) => ({ slices := 255, op := o, scope := 6, whole := one } : BufEntry)
  ((here.map (fun b => (b.1, lineOf b.2.addr))).eraseDups).map (fun k =>
      entry (.write k.1 ((here.filter (fun b => decide (b.1 = k.1) && lineOf b.2.addr == k.2)).map (·.2))) (oneEvent q.addr q.size))
    ++ ((away.map (·.1)).eraseDups).filterMap (fun m => (away.find? (fun w => decide (w.1 = m))).map (fun w =>
        entry (.remote m w.2 q.addr) true))

/-- Write as a hart writes; a resident core may not write what R360 leaves to the firmware core. An SC store is a release. -/
def State.hartWrite (s : State) (n : Nat) (q : HartReq) (ps : List Piece) : State :=
  let data :=
    let t := s.setHart n { s.hart n with buffer := (s.hart n).buffer ++ hartEntries q ps }
    if q.late then t.hartDone n 0
    else
      let count := (s.hart n).buffer.length
      let u := (List.range (hartEntries q ps).length).foldl (fun v _ => v.hartPerform n count) t
      u.hartDone n 0
  match ps with
  | [(p, _)] =>
    if p.control then
      match controlAt p.pa with
      | some (dn, off) =>
        match s.regWrite dn off q.size (BitVec.ofNat 64 (q.value.toNat % 2 ^ (8 * q.size))) false with
        | .ok t => t.hartDone n 0
        | .error _ => s.hartTrap n (pageFaultCode q.op) q.addr
      | none => s.hartDone n 0
    else data
  | _ => data

/-- What the access does at the place it has found. An AMO or SC with rl, or one of an SC page, is a release first; the value
that an aq orders before later accesses is bound here, before any of them. -/
def State.hartAct (s : State) (n : Nat) (q : HartReq) (ps : List Piece) : State :=
  let w := hartWriter n
  let pa := (ps.head?.map (fun p => p.1.pa)).getD 0
  let k := (ps.head?.map (fun p => p.1.kind)).getD .rc
  let before := fun (t : State) => if q.rl || decide (k = .sc) then t.hartRelease n else t
  match q.op with
  | .load => let r := s.hartRead n q ps; r.2.hartDone n r.1
  | .fetch =>
    let r := s.hartRead n q ps
    let t := r.2.hartDone n r.1
    t.setHart n { t.hart n with pc := q.addr }
  | .store => (if !q.late && decide (k = .sc) then s.hartRelease n else s).hartWrite n q ps
  | .lr =>
    let r := s.hartRead n q ps
    let t := r.2.hartDone n r.1
    t.setHart n { t.hart n with resv := some { addr := pa, width := q.size, age := t.serial } }
  | .sc =>
    let held := match (s.hart n).resv with | some v => v.addr == pa && v.width == q.size | none => false
    let s0 := before s
    let s1 := s0.setHart n { s0.hart n with resv := none }
    if held then (s1.performNat k w pa q.size (q.value.toNat % 2 ^ (8 * q.size))).hartDone n 0 else s1.hartDone n 1
  | .amo op =>
    let r := (before s).atomic k w (.int op) pa q.size (q.value.toNat % 2 ^ (8 * q.size)) (q.compare.toNat % 2 ^ (8 * q.size))
    (r.2.2.hartCopies n ps).hartDone n r.1

/-- Sizes of a hart's access. -/
def hartSize (q : HartReq) : Bool :=
  match q.op with
  | .load => q.size == 1 || q.size == 2 || q.size == 4 || q.size == 8
  | .store => q.size == 1 || q.size == 2 || q.size == 4 || q.size == 8
  | .fetch => q.size == 2 || q.size == 4
  | _ => q.size == 4 || q.size == 8

/-- RESIDENT_CORE_ACCESS: a load, store, AMO, LR, SC or fetch of a hart, in the privilege and under the SUM that its own
instructions have set. -/
def execResidentCoreAccess (hart : Nat) (q : HartReq) (s : State) : Out :=
  let n := hart % 32
  if !hartSize q then .next s
  else
    let s0 := s.setHart n { s.hart n with supervisor := q.supervisor, sum := q.sum }
    let r := s0.hartPlace n q
    match r.1 with
    | .error (code, va) => .next (r.2.hartTrap n code va)
    | .ok ps =>
      match r.2.hartFault q ps with
      | some code => .next (r.2.hartTrap n code q.addr)
      | none => .next ((r.2.hartFirst n ps).hartAct n q ps)

/-- `satp` or `vsatp` after a write: RVA23 has the modes Bare and Sv39, 14 is accepted by `satp` alone, and the other
modes are left to the core; a write of a mode that is not accepted changes nothing. -/
def satpAfter (guest : Bool) (old v : W64) : W64 :=
  let mode := bitsAt v 60 4
  if mode = 14 then (if guest then old else v)
  else if mode = 0 ∨ mode = 8 then v
  else if (mode = 9 ∨ mode = 10) ∧ Config.riscvMode mode then v
  else old

/-- SATP_WRITE; mode 14 loads the ASID, whose descriptor the hart reads (10_pages R210). -/
def execSatpWrite (hart : Nat) (guest : Bool) (value : BitVec 64) (s : State) : Out :=
  let n := hart % 32
  let h := s.hart n
  let t := s.setHart n (if guest then { h with vsatp := satpAfter true h.vsatp value } else { h with satp := satpAfter false h.satp value })
  .next (if !guest && bitsAt value 60 4 == 14 then t.loadAsid (.hart n) (bitsAt value 44 16) else t)

end Sys2Proof.Machine
end

