-- ==== Sys2Proof/Machine/Matrix.lean ====
section
/-!
DEFINITION. The matrix class (17_matrix R320 to R341): majors 0x30 and 0x31, product cards, and the array's own steps.
Each instruction is an operation over a context, so that a product card performs the same ones (R333).
-/

namespace Sys2Proof.Machine

/-- How an operation ends when it completes: the state, and the context it leaves. -/
abbrev Fin' := State → VCtx → Out

/-- An instruction's end: the context goes to the next word. -/
def VRun.next (x : VRun) : Fin' := fun t k => .next (t.vRetire x k)

/-! ### mload and mswap (R335, R336) -/

/-- The count of `mload`: imm8, or what a kind-0 hint makes of it; none when it is illegal. -/
def VRun.loadCount (x : VRun) (imm : BitVec 8) : Option Nat :=
  match x.hint 0 with
  | none => some imm.toNat
  | some p =>
    let v := (BitVec.ofNat 30 (p * 256 + imm.toNat)).toInt
    if 0 ≤ v ∧ v ≤ 65535 then some v.toNat else none

/-- The pages of a unit of a context's address space. -/
def State.unitPages (s : State) (x : VRun) (addr : W64) : Except (Fail × W64) (List Piece) × State :=
  let r := s.translateSpan x.unit x.k.card.asid addr unitBytes .read 258
  match r.1 with
  | .error e => (.error e, r.2)
  | .ok ps => if ps.any (fun p => p.1.control) then (.error (.fault .protection, addr), r.2) else (.ok ps, r.2)

/-- Fill the shadow bank from a unit. A wait for the context's own banks keeps the Vintner (R329). -/
def State.vLoad (s : State) (x : VRun) (addr : W64) (count : Nat) (fin : Nat → Fin') : Out :=
  let c := s.cluster x.cluster
  if c.shadowBank.state ≠ .empty ∨ c.bank0.busy ∨ c.bank1.busy then .next s
  else if addr.toNat % unitBytes ≠ 0 then .next (s.vFault x .misalignedData)
  else
    let r := s.unitPages x addr
    match r.1 with
    | .error (f, va) => .next (r.2.vStop x .read f va)
    | .ok ps =>
      if ps.any (fun p => !blockFormat p.1.fmt || p.1.geo == 0 || decide (3 < p.1.geo)) then .next (r.2.vFault x .formatMismatch)
      else
        let c1 := r.2.cluster x.cluster
        let b : Bank :=
          { state := .filling, count := if count = 0 then none else some count, va := addr, spans := ps.map spanOf
            fmt := (ps.head?.map (fun p => p.1.fmt)).getD 0, geo := (ps.head?.map (fun p => p.1.geo)).getD 0, at_ := x.start }
        fin c1.shadowNumber (r.2.setCluster x.cluster (c1.setShadowBank b)) { x.k with loaded := true }

/-- `mload` (R335). -/
def execMload (d a : BitVec 6) (imm : BitVec 8) (s : State) : Out :=
  s.issueV (fun x t =>
    match x.loadCount imm with
    | none => .next (t.vFault x .illegalEncoding)
    | some n => t.vLoad x (x.k.getS2 a.toNat) n (fun b u k => x.next u (k.setS d.toNat (BitVec.ofNat 32 (0x800 + b)))))

/-- Queue a swap (R336). -/
def State.vSwap (s : State) (x : VRun) (fin : Fin') : Out :=
  if x.k.queue.contains .swap then .next s
  else if !x.k.loaded then .next (s.vFault x .matrixSequence)
  else s.vRoom x (fun t => fin t { x.k with queue := x.k.queue ++ [.swap] })

/-- `mswap`. -/
def execMswap (s : State) : Out := s.issueV (fun x t => t.vSwap x x.next)

/-! ### mstep (R337, R338) -/

/-- Queue one step: the checks of R337 in their order. -/
def State.vStep (s : State) (x : VRun) (bad : Bool) (ha m hc row0 wa : Nat) (edge32 init : Bool) (fin : Fin') : Out :=
  s.vRoom x (fun t =>
    let c := t.cluster x.cluster
    let key := 1024 * x.k.card.asid + natBits ha 0 10
    let edge := if edge32 then 32 else 16
    let tile := if ha / 1024 = 1 then SMap.find c.tiles key else none
    match tile, t.acc? x.cluster x.k.card.asid hc with
    | some tl, some a =>
      if bad then .next (t.vFault x .illegalHandle)
      else if tl.pending ≠ 0 then .next (t.vWait x (.fill key))
      else if tl.fmt ≠ 0 then .next (t.vFault x .formatMismatch)
      else if m = 0 ∨ 512 < m ∨ m % edge ≠ 0 then .next (t.vFault x .matrixShape)
      else if 2 ^ tl.k * 1024 < aTileBytes m wa ∨ 16 * a.blocks < row0 + m then .next (t.vFault x .tileRange)
      else
        let o := ArrOp.step key tl.id (natBits hc 0 10) a.id m wa row0 edge32 init x.start
        if (projectAll (c.activeBank, c.shadowBank, false) (x.k.queue ++ [o])).isNone then .next (t.vFault x .matrixSequence)
        else fin t { x.k with queue := x.k.queue ++ [o] }
    | _, _ => .next (t.vFault x .illegalHandle))

/-- `mstep`. -/
def execMstep (d a : BitVec 6) (imm tb : BitVec 1) (w : BitVec 3) (s : State) : Out :=
  s.issueV (fun x t =>
    let da := x.k.getS a.toNat
    let dc := x.k.getS d.toNat
    if 4 < w.toNat then .next (t.vFault x .illegalEncoding)
    else t.vStep x (bitsAt da 22 10 != 0 || bitsAt dc 21 11 != 0) (bitsAt da 0 12) (bitsAt da 12 10) (bitsAt dc 0 12)
      (bitsAt dc 12 9) (waBits w.toNat) (tb == 1) (imm == 1) x.next)

/-! ### mzero (R339) -/

/-- Row blocks in use. -/
def Cluster.blocksUsed (c : Cluster) : Nat := c.accs.foldl (fun n p => n + p.2.blocks) 0

/-- Allocate or keep an accumulator and queue its zeroing; the status is 1 when blocks are lacking. -/
def State.vZero (s : State) (x : VRun) (h blocks : Nat) (fin : Nat → Fin') : Out :=
  s.vRoom x (fun t =>
    let c := t.cluster x.cluster
    let n := natBits h 0 10
    if h / 1024 ≠ 3 ∨ 32 ≤ n then .next (t.vFault x .illegalHandle)
    else match SMap.find c.accs n with
      | some a =>
        if a.asid ≠ x.k.card.asid ∨ a.blocks ≠ blocks then .next (t.vFault x .illegalHandle)
        else fin 0 t { x.k with queue := x.k.queue ++ [.zero n a.id x.start] }
      | none =>
        if 32 < c.blocksUsed + blocks then fin 1 t x.k
        else
          let a : Acc := { id := t.serial, asid := x.k.card.asid, blocks := blocks, token := none, data := [], stale := some t.free }
          fin 0 (((t.setCluster x.cluster { c with accs := SMap.put c.accs n a }).nextSerial).nextFree)
            { x.k with queue := x.k.queue ++ [.zero n a.id x.start] })

/-- `mzero`. -/
def execMzero (f : OpS) (s : State) : Out :=
  s.issueV (fun x t =>
    let e := x.k.getS f.a.toNat
    if bitsAt e 17 15 ≠ 0 then .next (t.vFault x .illegalHandle)
    else t.vZero x (bitsAt e 0 12) (bitsAt e 12 5 + 1) (fun st u k => x.next u (k.setS f.d.toNat (BitVec.ofNat 32 st))))

/-- `mzero.free`: the free is queued. -/
def execMzeroFree (a : BitVec 6) (s : State) : Out :=
  s.issueV (fun x t =>
    let e := x.k.getS a.toNat
    match t.acc? x.cluster x.k.card.asid (bitsAt e 0 12) with
    | none => t.vRoom x (fun u => .next (u.vFault x .illegalHandle))
    | some q =>
      if bitsAt e 17 15 ≠ 0 then .next (t.vFault x .illegalHandle)
      else t.vRoom x (fun u => x.next u { x.k with queue := x.k.queue ++ [.free (bitsAt e 0 10) q.id x.start] }))

/-! ### mdrain (R340) -/

/-- Bits of an element in memory: format 0 takes the FP32 bytes. -/
def drainBits (fmt : Nat) : Nat := if fmt = 0 then 32 else elemBits fmt

/-- Translate runs of bytes of the destination: pieces with their offsets, or the first failure. -/
def State.drainRuns (s : State) (x : VRun) (dest : W64) : List (Nat × Nat) → Except (Fail × W64) (List (Nat × Kind × Span)) × State
  | [] => (.ok [], s)
  | (off, len) :: t =>
    let r := s.translateSpan x.unit x.k.card.asid (dest + BitVec.ofNat 64 off) len .write (len / 4096 + 2)
    match r.1 with
    | .error e => (.error e, r.2)
    | .ok ps =>
      if ps.any (fun p => p.1.control) then (.error (.fault .protection, dest), r.2)
      else
        let mine := (ps.foldl (fun (q : List (Nat × Kind × Span) × Nat) p =>
          (q.1 ++ [(q.2, p.1.kind, spanOf p)], q.2 + p.2)) ([], off)).1
        let q := r.2.drainRuns x dest t
        match q.1 with
        | .error e => (.error e, q.2)
        | .ok l => (.ok (mine ++ l), q.2)

/-- The runs of bytes that a drain writes: each row of a linear page, the unit of a block page. -/
def drainSpans (fmt rows pitch : Nat) : List (Nat × Nat) :=
  if blockFormat fmt then [(0, unitBytes)]
  else
    let z := drainBits fmt
    (List.range rows).map (fun m => (m * pitch * z / 8, (m * pitch * z % 8 + 1024 * z + 7) / 8))

/-- Queue the conversion of rows. -/
def State.vDrain (s : State) (x : VRun) (bad : Bool) (h row0 rows : Nat) (pitchWord : W32) (dest : W64) (rnd : Nat) (sat free : Bool)
    (fin : Fin') : Out :=
  s.vRoom x (fun t =>
    match t.acc? x.cluster x.k.card.asid h with
    | none => .next (t.vFault x .illegalHandle)
    | some a =>
      if bad then .next (t.vFault x .illegalHandle)
      else if 16 * a.blocks < row0 + rows then .next (t.vFault x .tileRange)
      else
        let first := t.translate x.unit x.k.card.asid dest .write
        match first.1 with
        | .error f => .next (first.2.vStop x .write f dest)
        | .ok p =>
          let u := first.2
          let pitch := bitsAt pitchWord 0 16
          let edge := tileEdge p.geo
          if bitsAt pitchWord 16 16 ≠ 0 ∨ p.geo = 3 then .next (u.vFault x .matrixShape)
          else if blockFormat p.fmt && rows % edge != 0 then .next (u.vFault x .matrixShape)
          else if !blockFormat p.fmt && decide (pitch < 1024) then .next (u.vFault x .matrixShape)
          else if !baseOk p.fmt dest then .next (u.vFault x .misalignedData)
          else
            let r := u.drainRuns x dest (drainSpans p.fmt rows pitch)
            match r.1 with
            | .error (f, va) => .next (r.2.vStop x .write f va)
            | .ok l => fin r.2 { x.k with queue := x.k.queue ++
                [.drain (natBits h 0 10) a.id row0 rows pitch rnd sat free l p.fmt p.geo x.start] })

/-- `mdrain`. -/
def execMdrain (d a : BitVec 6) (f x' : BitVec 1) (r : BitVec 2) (s : State) : Out :=
  s.issueV (fun x t =>
    let e := x.k.getS d.toNat
    t.vDrain x (bitsAt e 30 2 != 0) (bitsAt e 0 12) (bitsAt e 12 9) (bitsAt e 21 9 + 1) (x.k.getS (d.toNat + 1))
      (x.k.getS2 a.toNat) r.toNat (x' == 1) (f == 1) x.next)

/-! ### vdsub, vsig, vyield (R341) -/

/-- A card's block with the Vintner's own cluster as its operand (R341, R346). -/
def blockFor (b : BitVec 512) (cluster : Nat) : BitVec 512 := BitVec.ofNat 512 (b.toNat - blkOperand b * 2 ^ 24 + cluster * 2 ^ 24)

/-- `vdsub`: the card enters the pending set of the Vintner card's group, with no edge from that card (18_engines R367). -/
def execVdsub (a : BitVec 6) (s : State) : Out :=
  s.issueV (fun x t => t.vAfterAll x (fun u =>
    let addr := x.k.getS2 a.toNat
    let asid := x.k.card.asid
    let r := u.unitRead x.unit asid addr 64 .read
    match r.1 with
    | .error (f, va) => .next (r.2.vStop x .read f va)
    | .ok bs =>
      let b := BitVec.ofNat 512 (bytesNat bs)
      if bitsAt addr 0 6 ≠ 0 ∨ blkBad b ∨ blkOp b ≠ 2 then .next (r.2.vFault x .malformedCommand)
      else
        let e : Except (Fail × W64) (Option (List Footprint)) × State :=
          if blkPrints b = 0 then (.ok (some []), r.2)
          else
            let q := r.2.unitRead x.unit asid (addr + 64) 64 .read
            match q.1 with
            | .error g => (.error g, q.2)
            | .ok es => (.ok (footprints (blkPrints b) (BitVec.ofNat 512 (bytesNat es))), q.2)
        match e.1 with
        | .error (f, va) => .next (e.2.vStop x .read f va)
        | .ok none => .next (e.2.vFault x .malformedCommand)
        | .ok (some prints) =>
          if 256 ≤ (e.2.group x.k.die x.k.group).cards.length then .next e.2
          else .next (((e.2.releasedBy (.unit x.unit)).acceptCard x.k.die x.k.group asid (blockFor b x.cluster) addr prints x.cls none (some x.k.card.id)).vRetire x x.k)))

/-- `vsig`: after every earlier operation and fill, a 64-bit write with release. -/
def execVsig (f : OpS) (s : State) : Out :=
  s.issueV (fun x t => t.vAfterAll x (fun u =>
    let addr := x.k.getS2 f.a.toNat
    if addr.toNat % 8 ≠ 0 then .next (u.vFault x .misalignedData)
    else
      let r := u.translate x.unit x.k.card.asid addr .write
      match r.1 with
      | .error e => .next (r.2.vStop x .write e addr)
      | .ok p =>
        if p.control then .next (r.2.vFault x .protection)
        else
          let v := r.2.performPages (.unit x.unit) (pieceWrites [(p, 8)] (natBytes 8 (x.k.getS2 f.d.toNat).toNat)) x.k.card.asid addr
          .next ((v.releasedBy (.unit x.unit)).vRetire x x.k)))

/-- `vyield`: the context is suspended until its guest's next time slice, when a stop is pending; its banks are recorded and
emptied, as at a switch (R329). -/
def execVyield (s : State) : Out :=
  s.issueV (fun x t =>
    if t.vStopPending x then
      let u := t.vWait x .slice
      .next (u.setCluster x.cluster (u.cluster x.cluster).leaveContext)
    else .next (t.vRetire x x.k))

/-- `vyield.done`: after every operation and fill, the card completes with status 0. -/
def execVyieldDone (s : State) : Out :=
  s.issueV (fun x t => t.vAfterAll x (fun u => .next (u.leaveVintner x 0 0 x.k.flags)))

/-! ### PRODUCT_CARD (R333) -/

/-- The words of a product card. -/
def Card.w (c : Card) (n : Nat) : W32 := c.block.extractLsb' (256 + 32 * n) 32

/-- A reserved bit of a product card is set (R333). -/
def productBad (c : Card) : Bool := bitsAt (c.w 1) 26 6 != 0 || bitsAt (c.w 2) 16 16 != 0 || c.w 3 != 0

/-- The next part of the sequence of R333. `prod` counts its parts: 0 the check and the allocation, 1 the first `mload`,
2 + 3j to 4 + 3j the swap, the step and the next `mload` of block j, then the drain, then the end. -/
def State.productStep (s : State) (x : VRun) : Out :=
  let c := x.k.card
  let nk := bitsAt (c.w 0) 26 6 + 1
  let m := bitsAt (c.w 0) 12 10
  let ha := bitsAt (c.w 0) 0 12
  let hc := bitsAt (c.w 1) 0 12
  let row0 := bitsAt (c.w 1) 12 9
  let n := x.k.prod
  let fin : Fin' := fun t k => .next (t.setV x { k with prod := n + 1 })
  let j := (n - 2) / 3
  if n = 0 then
    if productBad c then .next (s.vFault x .matrixShape)
    else
      let blocks := (row0 + m + 15) / 16
      if (s.acc? x.cluster c.asid hc).isSome ∨ blocks = 0 then fin s x.k
      else if 32 < blocks then .next (s.vFault x .accumulatorSpace)
      else s.vZero x hc blocks (fun st t k => if st = 0 then fin t k else .next (t.vFault x .accumulatorSpace))
  else if n = 1 then s.vLoad x (blkWord c.block 48) 1 (fun _ => fin)
  else if n < 2 + 3 * nk then
    if (n - 2) % 3 = 0 then s.vSwap x fin
    else if (n - 2) % 3 = 1 then
      if 4 < bitsAt (c.w 0) 22 3 then .next (s.vFault x .illegalEncoding)
      else s.vStep x (decide (4096 ≤ ha + j)) (ha + j) m hc row0 (waBits (bitsAt (c.w 0) 22 3)) ((c.w 0).getLsbD 25)
        ((c.w 1).getLsbD 21 && j == 0) fin
    else if j + 1 < nk then s.vLoad x (blkWord c.block 48 + BitVec.ofNat 64 ((j + 1) * unitBytes)) 1 (fun _ => fin)
    else fin s x.k
  else if n = 2 + 3 * nk then
    if (c.w 1).getLsbD 22 then
      s.vDrain x false hc row0 m (c.w 2) (blkWord c.block 56) (bitsAt (c.w 1) 24 2) false ((c.w 1).getLsbD 23) fin
    else fin s x.k
  else s.vAfterAll x (fun u => .next (u.leaveVintner x 0 0 x.k.flags))

/-- PRODUCT_CARD: the context that issues runs a product card. -/
def execProductCard (cluster cls : Nat) (s : State) : Out :=
  match s.vRun? (cluster % 64) with
  | none => .next s
  | some x => if x.cls = cls % 4 ∧ x.k.card.code = 0 then s.productStep x else .next s

/-! ### The array's steps (R321, R322, R325, R329, R339, R340) -/

/-- The context whose operations the array takes (R329), whether or not it waits. -/
def State.arrayRun? (s : State) (cl : Nat) : Option VRun :=
  let c := s.cluster cl
  match c.vcur with
  | none => none
  | some n => (SMap.find c.vctx n).map (fun k =>
      { cluster := cl, cls := n, k := k, pc := k.pc, start := k.pc - BitVec.ofNat 64 (4 * k.hints.length) })

/-- The bytes of a unit in memory. -/
def State.unitBytesOf (s : State) (spans : List Span) : List Byte := spans.flatMap (s.spanData none)

/-- Some line of a unit is marked as uncorrectable. -/
def State.spansPoisoned (s : State) (spans : List Span) : Bool :=
  !s.poisoned.isEmpty && spans.any (fun p => p.peer.isNone && s.poisoned.any (fun l => decide (p.pa ≤ l * 128) && decide (l * 128 < p.pa + p.len)))

/-- The line requests of a fill (09_memory R198, 10_pages R223). -/
def State.requestSpans (s : State) (x : VRun) (spans : List Span) : State :=
  (spanLines spans).foldl (fun t l => t.request l (.unit x.unit)) s

/-- The memory that a fill reads: a refill goes to the recorded unit as it translates now (R329), a fill to the pages that its
`mload` found. -/
def State.bankSpans (s : State) (x : VRun) (b : Bank) : Except (Fail × W64) (List Span) × State :=
  if b.refill then
    let r := s.unitPages x b.va
    (match r.1 with | .error e => .error e | .ok ps => .ok (ps.map spanOf), r.2)
  else (.ok b.spans, s)

/-- BANK_FILL_COMPLETE (R321, R324, R329): a fill, or the refill of the active bank, is complete; a malformed unit ends
the card with the address of its `mload` (R335). -/
def execBankFillComplete (cluster : Nat) (s : State) : Out :=
  let cl := cluster % 64
  match s.arrayRun? cl with
  | none => .next s
  | some x =>
    let c := s.cluster cl
    let isActive := c.activeBank.busy
    let b := if isActive then c.activeBank else c.shadowBank
    let stop := fun (t : State) (k : FaultKind) => Host.Outcome.next (t.leaveVintner x (causeCode 1 k) b.at_ x.k.flags)
    if !b.busy then .next s
    else
      let r := s.bankSpans x b
      match r.1 with
      | .error (.fault k, _) => stop r.2 k
      | .error (f, va) => .next (if x.k.onPage then s else r.2.vStop x .read f va)
      | .ok spans =>
        if r.2.spansPoisoned spans then stop r.2 .uncorrectableData
        else
          let data := dataOf (r.2.unitBytesOf spans)
          let s1 := (r.2.requestSpans x spans).nextFree
          if !bWellFormed (fun o => SMap.getD data o 0) b.fmt b.geo then stop s1 .malformedBlock
          else
            let b1 := { b with state := if b.state = .filling then .ready else b.state, spans := spans, data := data, refill := false }
            let c1 := s1.cluster cl
            .next (s1.setCluster cl (if isActive then c1.setActiveBank b1 else c1.setShadowBank b1))

/-- SWAP (R322): the shadow becomes active, and the old active bank is empty. -/
def execSwap (cluster : Nat) (s : State) : Out :=
  let cl := cluster % 64
  match s.arrayRun? cl with
  | none => .next s
  | some x =>
    let c := s.cluster cl
    if c.swapDue x.k then
      let new := { c.shadowBank with state := .active }
      let c1 := (c.setActiveBank {}).setShadowBank new
      .next (s.setCluster cl { c1 with
        active1 := !c.active1
        vctx := SMap.put c1.vctx x.cls { x.k with queue := x.k.queue.drop 1, loaded := false } })
    else .next s

/-- The array starts the next operation of its queue, when it may: no swap is due, nothing is refilled, the token is its
own. -/
def State.arrayOp (s : State) (cl : Nat) (act : VRun → ArrOp → Out) : Out :=
  match s.arrayRun? cl with
  | none => .next s
  | some x =>
    let c := s.cluster cl
    match x.k.nextOp with
    | none => .next s
    | some o =>
      if c.swapDue x.k || c.bank0.refill || c.bank1.refill || c.tokenHeld o then .next s else act x o

/-- The card of an operation whose tile or accumulator is gone ends (R337). -/
def State.opGone (s : State) (x : VRun) (at_ : W64) : Out := .next (s.leaveVintner x (causeCode 1 .illegalHandle) at_ x.k.flags)

/-- The context after an operation: it leaves the queue, and its flags stay. -/
def State.opDone (s : State) (x : VRun) (flags : Nat) : State :=
  s.setV x { x.k with queue := dropOp x.k.queue, flags := x.k.flags ||| BitVec.ofNat 5 flags }

/-- Store an accumulator. -/
def State.setAcc (s : State) (cl n : Nat) (a : Acc) : State :=
  let c := s.cluster cl
  s.setCluster cl { c with accs := SMap.put c.accs n a }

/-- The rows of an accumulator after a step, with flags (R325). -/
def stepRows (a : Nat → Byte) (b : Nat → Byte) (bank : Bank) (m wa edge row0 : Nat) (init : Bool) (old : Acc) : Acc × Nat :=
  let len := min edge (tileEdge bank.geo)
  let wb := elemBits bank.fmt
  ((List.range m).flatMap (fun r => (List.range 1024).map (fun n => (r, n)))).foldl (fun (acc : Acc × Nat) (p : Nat × Nat) =>
    let e := (row0 + p.1) * 1024 + p.2
    let start := if init then 0 else (acc.1.elem e).toNat
    let v := stepElem (aElem a wa edge p.1) (fun k => bElem b bank.fmt bank.geo k p.2) wa wb len start
    (acc.1.setElem e (BitVec.ofNat 32 v.1), acc.2 ||| v.2)) (old, 0)

/-- MATRIX_STEP (R325, R337): one step of the active bank, and one read of the A tile (12_tiles R239). -/
def execMatrixStep (cluster : Nat) (s : State) : Out :=
  let cl := cluster % 64
  s.arrayOp cl (fun x o =>
    match o with
    | .step key tid n _ m wa row0 edge32 init at_ =>
      let c := s.cluster cl
      match SMap.find c.tiles key, c.opAcc o with
      | some t, some a =>
        if t.id ≠ tid then s.opGone x at_
        else if t.pending ≠ 0 ∨ c.activeBank.spent then .next s
        else
          let bank := c.activeBank
          let edge := if edge32 then 32 else 16
          let r := stepRows (s.slotByte (.cluster cl key)) (fun q => SMap.getD bank.data q 0) bank m wa edge row0 init a
          let s1 := s.setCluster cl (c.setActiveBank bank.use)
          .next (((s1.setAcc cl n r.1).slotRead (.cluster cl key)).opDone x r.2)
      | _, _ => s.opGone x at_
    | _ => .next s)

/-- ACCUMULATOR_ZERO (R339): every element is +0. -/
def execAccumulatorZero (cluster : Nat) (s : State) : Out :=
  let cl := cluster % 64
  s.arrayOp cl (fun x o =>
    match o with
    | .zero n _ at_ =>
      match (s.cluster cl).opAcc o with
      | some a => .next ((s.setAcc cl n { a with data := [], stale := none }).opDone x 0)
      | none => s.opGone x at_
    | _ => .next s)

/-- A slice that waits in `macq` for the token of an accumulator that is freed: its wait ends, and `macq` will raise
illegal-handle (R342). -/
def Slice.loseToken (x : Slice) (n : Nat) (resident : Bool) : Slice :=
  match x.wait with
  | some w => if w.code = 13 ∧ natBits w.operand 0 10 = n then { x with remote := 4, wait := if resident then none else x.wait } else x
  | none => x

/-- Free an accumulator: its token ceases to exist, and the waits for it end (R342). -/
def State.dropAcc (s : State) (cl n : Nat) : State :=
  let c := s.cluster cl
  let asid := match SMap.find c.accs n with | some a => a.asid | none => 0
  (s.setCluster cl { c with accs := SMap.erase c.accs n }).mapGangs (fun crew _ g =>
    match s.crew? crew with
    | some k =>
      if k.asid = asid ∧ clusterOfCore k.core = cl then { g with slices := g.slices.map (fun x => x.loseToken n k.phase.resident) } else g
    | none => g)

/-- ACCUMULATOR_FREE (R339). -/
def execAccumulatorFree (cluster : Nat) (s : State) : Out :=
  let cl := cluster % 64
  s.arrayOp cl (fun x o =>
    match o with
    | .free n _ at_ =>
      match (s.cluster cl).opAcc o with
      | some _ => .next ((s.dropAcc cl n).opDone x 0)
      | none => s.opGone x at_
    | _ => .next s)

/-- Masked bytes at an offset of a drain's destination in this module's DRAM, each with its page's kind. -/
def locate (l : List (Nat × Kind × Span)) (off : Nat) (w : ByteWrite) : Option (Kind × ByteWrite) :=
  match l.find? (fun p => decide (p.1 ≤ off) && decide (off < p.1 + p.2.2.len)) with
  | some (o, k, sp) => if sp.peer.isNone && decide (spaceOf sp.pa = .dram) then some (k, { w with addr := sp.pa + (off - o) }) else none
  | none => none

/-- What a drain writes on other modules leaves this one: one store to each. -/
def State.drainAway (s : State) (asid : Nat) (l : List (Nat × Kind × Span)) : State :=
  ((l.filterMap (fun p => p.2.2.peer)).eraseDups).foldl (fun t m =>
    match l.find? (fun p => p.2.2.peer == some m) with
    | some p => t.sendAway asid 0 m p.2.2.pa
    | none => t) s

/-- Perform located writes, kind by kind. -/
def State.performKinds (s : State) (w : Writer) (ws : List (Kind × ByteWrite)) : State :=
  [Kind.sc, Kind.rc, Kind.ws, Kind.pv].foldl (fun t k => t.performBytes k w ((ws.filter (fun q => decide (q.1 = k))).map (·.2))) s

/-- The writes of a linear destination, by offset, with flags (R340, R88 to R91). -/
def drainLinear (a : Acc) (row0 rows pitch fmt : Nat) (r : Rnd) : List ByteWrite × Nat :=
  let z := drainBits fmt
  ((List.range rows).flatMap (fun m => (List.range 1024).map (fun n => (m, n)))).foldl (fun (acc : List ByteWrite × Nat) (p : Nat × Nat) =>
    let code := (a.elem ((row0 + p.1) * 1024 + p.2)).toNat
    let v := if fmt = 0 then (code, 0) else linearCode fmt r (.fp (FpFmt.f32.value code))
    (acc.1 ++ elemWrites z (p.1 * pitch + p.2) v.1, acc.2 ||| v.2)) ([], 0)

/-- The writes of a square destination (R340, R92). -/
def drainSquares (a : Acc) (row0 rows fmt geo : Nat) (r : Rnd) : List ByteWrite × Nat :=
  let w := elemBits fmt
  let t := tileEdge geo
  let per := 1024 / t
  (List.range (rows / t * per)).foldl (fun (acc : List ByteWrite × Nat) (g : Nat) =>
    let xs := (List.range (t * t)).map (fun q =>
      FpFmt.f32.value (a.elem ((row0 + g / per * t + q / t) * 1024 + g % per * t + q % t)).toNat)
    let v := quantTile w r xs
    let bytes := (packCodes w v.2.1).mapIdx (fun i b => ({ addr := g * (t * t * w / 8) + i, value := b, bits := 255 } : ByteWrite))
    (acc.1 ++ bytes ++ byteWrites (dataBytes + g) 1 v.1, acc.2 ||| v.2.2)) ([], 0)

/-- ACCUMULATOR_DRAIN (R340): rows are converted to memory as engine writes. -/
def execAccumulatorDrain (cluster : Nat) (s : State) : Out :=
  let cl := cluster % 64
  s.arrayOp cl (fun x o =>
    match o with
    | .drain n _ row0 rows pitch rnd sat free dest fmt geo at_ =>
      match (s.cluster cl).opAcc o with
      | some a =>
        let r : Rnd := { mode := rnd, sat := sat }
        let v := if blockFormat fmt then drainSquares a row0 rows fmt geo r else drainLinear a row0 rows pitch fmt r
        let ws := v.1.filterMap (fun w => locate dest w.addr w)
        let s1 := ((s.performKinds (.unit x.unit) ws).drainAway x.k.card.asid dest).opDone x v.2
        .next (if free then s1.dropAcc cl n else s1)
      | none => s.opGone x at_
    | _ => .next s)

end Sys2Proof.Machine
end

