-- ==== Sys2Proof/Machine/Plugins.lean ====
section
/-!
DEFINITION. The firmware core (22_system R443, R444): its SRAM and protection entries; its plug-ins: when the scheduler calls
one, what its `ecall`s do, and the shares it asks for. The code of a plug-in is no part of this spec: what it writes into its reply area is the
reply of the event (notes/assumptions/6).
-/

namespace Sys2Proof.Machine

/-- The plug-in of a tenant on a die. -/
def State.plugin (s : State) (dn tenant : Nat) : Plugin := SMap.getD (s.die dn).plugins tenant {}

/-- Store a plug-in. -/
def State.setPlugin (s : State) (dn tenant : Nat) (p : Plugin) : State :=
  let d := s.die dn
  s.setDie dn { d with plugins := SMap.put d.plugins tenant p }

/-- The scheduler may call a tenant's plug-in: it is enabled, has not failed three times in succession, and no plug-in of
the die has the firmware core. -/
def State.callable (s : State) (dn tenant : Nat) : Bool :=
  let p := s.plugin dn tenant
  decide (tenant < 64) && p.enabled && decide (p.failures < 3) && (s.die dn).plugins.all (fun q => q.2.event == 0)

/-- Enter a plug-in in U-mode: a0 holds the event, a1 the event page, a2 a 256-byte reply area in its window; the monitor
sets a protection entry for the window. The two addresses are free (notes/assumptions/6). -/
def State.enterPlugin (s : State) (dn tenant event : Nat) (page : List W64) : State :=
  let p := s.plugin dn tenant
  let t := s.setPlugin dn tenant { p with
    event := event, since := s.clock, a0 := BitVec.ofNat 64 event, a1 := Config.eventPage dn
    a2 := BitVec.ofNat 64 (p.window.1 + Config.replyOffset dn tenant % (p.window.2 - 255)), page := page }
  let d := t.die dn
  t.setDie dn { d with pmp := SMap.put d.pmp 0 (p.window.1, p.window.2, 3) }

/-- A plug-in's turn ends as a failure; its previous shares stand. -/
def State.failPlugin (s : State) (dn tenant : Nat) : State :=
  let p := s.plugin dn tenant
  s.setPlugin dn tenant { p with event := 0, failures := p.failures + 1 }

/-- PLUGIN_PERIOD_START: event 1, whose page holds `GUSE` of the tenant's guests. -/
def execPluginPeriodStart (die tenant : Nat) (s : State) : Out :=
  let dn := die % 4
  if s.callable dn tenant then
    .next (s.enterPlugin dn tenant 1 ((s.plugin dn tenant).guests.map (fun g => BitVec.ofNat 64 ((s.die dn).use g))))
  else .next s

/-- The 32 bytes of an overrun notice, as four words (R443). -/
def Notice.words (n : Notice) : List W64 :=
  [BitVec.ofNat 64 (n.crew % 2 ^ 32 + n.guest % 256 * 2 ^ 32), BitVec.ofNat 64 n.deadline, BitVec.ofNat 64 n.clock, 0]

/-- PLUGIN_OVERRUN: event 2, with the oldest notice of the ring that is about one of the tenant's guests, which the
scheduler takes off the ring. -/
def execPluginOverrun (die tenant : Nat) (s : State) : Out :=
  let dn := die % 4
  let d := s.die dn
  let mine := fun (n : Notice) => (s.plugin dn tenant).guests.contains n.guest
  match d.overruns.find? mine with
  | none => .next s
  | some n =>
    if s.callable dn tenant then
      .next ((s.setDie dn { d with overruns := d.overruns.eraseP mine }).enterPlugin dn tenant 2 n.words)
    else .next s

/-- A requested share of 11 bits, clamped to the guest's ceiling; a guest without one has all of 1,024 as its ceiling. -/
def Plugin.clamp (p : Plugin) (g r : Nat) : Nat := min (r % 2048) (SMap.getD p.ceilings g 1024)

/-- The clamped requests of the tenant's guests, in order. -/
def Plugin.clamped (p : Plugin) (reply : List Nat) : List (Nat × Nat) :=
  (p.guests.zip reply).map (fun q => (q.1, p.clamp q.1 q.2))

/-- Scale requests down in proportion when their sum exceeds 1,024; the rounding of a share that is then no whole number
is free. -/
def scaleShares (free : Nat) (rs : List (Nat × Nat)) : List (Nat × Nat) :=
  let sum := rs.foldl (fun a q => a + q.2) 0
  if sum ≤ 1024 then rs
  else rs.map (fun q =>
    (q.1, q.2 * 1024 / sum + if q.2 * 1024 % sum ≠ 0 ∧ Config.shareUp free q.1 then 1 else 0))

/-- ECALL_RETURN: `ecall` 0 ends the turn; at a period start the reply area gives the shares. -/
def execEcallReturn (die tenant : Nat) (reply : List Nat) (s : State) : Out :=
  let dn := die % 4
  let p := s.plugin dn tenant
  if p.event = 0 then .next s
  else
    let s1 := s.setPlugin dn tenant { p with event := 0, failures := 0, reply := reply }
    if p.event = 1 then
      let d := s1.die dn
      let shares := scaleShares s.free (p.clamped reply)
      .next (({ s1 with free := s1.free + 1 } : State).setDie dn { d with
        gshare := shares.foldl (fun m q => SMap.setD m (q.1 % 64) q.2 0) d.gshare })
    else .next s1

/-- ECALL_GUSE: `ecall` 1, a0 := `GUSE` of the tenant's guest in a1; for a guest of another tenant the value is free. -/
def execEcallGuse (die tenant guest : Nat) (s : State) : Out :=
  let dn := die % 4
  let p := s.plugin dn tenant
  if p.event = 0 then .next s
  else if p.guests.contains guest then .next (s.setPlugin dn tenant { p with a0 := BitVec.ofNat 64 ((s.die dn).use guest) })
  else .next (({ s with free := s.free + 1 } : State).setPlugin dn tenant { p with a0 := Config.riscvValue s.free })

/-- ECALL_LOG: `ecall` 2 appends the 8 bytes in a1 to the tenant's log. -/
def execEcallLog (die tenant : Nat) (value : BitVec 64) (s : State) : Out :=
  let dn := die % 4
  let p := s.plugin dn tenant
  if p.event = 0 then .next s else .next (s.setPlugin dn tenant { p with log := p.log ++ [value] })

/-- 20 µs in clocks of the main clock of 1.2 GHz (R462). -/
def pluginClocks : Nat := 24000

/-- PLUGIN_TIMEOUT: a run longer than 20 µs ends the turn; the previous shares stand. -/
def execPluginTimeout (die tenant : Nat) (s : State) : Out :=
  let dn := die % 4
  let p := s.plugin dn tenant
  if p.event ≠ 0 ∧ p.since + pluginClocks < s.clock then
    .next (s.failPlugin dn tenant)
  else .next s

/-- HYPERVISOR_REENABLE: the plug-in may be called again. -/
def execHypervisorReenable (die tenant : Nat) (s : State) : Out :=
  let dn := die % 4
  .next (s.setPlugin dn tenant { s.plugin dn tenant with enabled := true, failures := 0 })

/-- An `ecall` of another number ends the turn as a failure. -/
def State.otherEcall (s : State) (dn tenant number : Nat) : State :=
  if (s.plugin dn tenant).event = 0 ∨ number ≤ 2 then s else s.failPlugin dn tenant

/-! ### The firmware core's own accesses (R443) -/

/-- Bytes of the firmware core's SRAM. -/
def sramBytes : Nat := 524288

/-- The lowest protection entry that holds a range admits the access. -/
def Die.permits (d : Die) (addr size bit : Nat) : Bool :=
  match (List.range 16).find? (fun n => match SMap.find d.pmp n with
    | some (b, z, _) => decide (b ≤ addr) && decide (addr + size ≤ b + z)
    | none => false) with
  | some n => match SMap.find d.pmp n with | some (_, _, p) => p.getLsbD bit | none => false
  | none => false

/-- The word at a byte offset of a plug-in's event page. -/
def Plugin.pageWord (p : Plugin) (off size : Nat) : Nat :=
  bytesNat (((p.page.flatMap (fun w => natBytes 8 w.toNat)).drop off).take size)

/-- A load or a store in the firmware core's SRAM. -/
def State.sramAccess (s : State) (dn addr n : Nat) (store : Option W64) : State :=
  let d := s.die dn
  match store with
  | some v => s.setDie dn { d with
      sram := ((natBytes n v.toNat).zipIdx).foldl (fun m q => SMap.setD m (addr + q.2) q.1 0) d.sram }
  | none => s.setDie dn { d with
      fwResult := BitVec.ofNat 64 (bytesNat ((List.range n).map (fun i => SMap.getD d.sram (addr + i) 0))) }

/-- The firmware core accesses its SRAM, or the event page of the plug-in that runs. While a plug-in runs it is in U-mode: what
the protection entries do not admit, and a store to the event page, is an access fault, which ends the turn; otherwise the
monitor and the scheduler reach all of the SRAM. -/
def State.firmwareAccess (s : State) (dn addr size : Nat) (event : Bool) (store : Option W64) : State :=
  let d := s.die dn
  let user := d.plugins.find? (fun p => p.2.event != 0)
  let bit := if store.isSome then 1 else 0
  if event then
    match user, store with
    | some p, none => s.setDie dn { d with fwResult := BitVec.ofNat 64 (p.2.pageWord addr (size % 9)) }
    | some p, some _ => s.failPlugin dn p.1
    | none, _ => s
  else
    match user with
    | some p =>
      if d.permits addr (size % 9) bit && decide (addr + size % 9 ≤ sramBytes) then s.sramAccess dn addr (size % 9) store
      else s.failPlugin dn p.1
    | none => if addr + size % 9 ≤ sramBytes then s.sramAccess dn addr (size % 9) store else s

/-- The monitor writes a protection entry; a plug-in that runs cannot. -/
def State.protectionEntry (s : State) (dn n base size : Nat) (perms : BitVec 3) : State :=
  let d := s.die dn
  if d.plugins.all (fun q => q.2.event == 0) then s.setDie dn { d with pmp := SMap.put d.pmp (n % 16) (base, size, perms) } else s

/-- The monitor gives a tenant's plug-in its window of at most 16 KiB. -/
def State.pluginWindow (s : State) (dn tenant base size : Nat) : State :=
  let p := s.plugin dn tenant
  if tenant < 64 ∧ 256 ≤ size ∧ size ≤ 16384 ∧ base + size ≤ sramBytes ∧ p.event = 0 then
    s.setPlugin dn tenant { p with window := (base, size) }
  else s

/-- The scheduler's supervisor external interrupt: an overrun notice stands in the ring. -/
def State.noticePending (s : State) (dn : Nat) : Bool := !(s.die dn).overruns.isEmpty

end Sys2Proof.Machine
end

