-- ==== Sys2Proof/Machine/Power.lean ====
section
/-!
DEFINITION. Power and cooling (24_ports R462). Throttling lowers the main clock and changes no result.
-/

namespace Sys2Proof.Machine

/-- THERMAL_THROTTLE: a die's junction reaches 105 °C. -/
def execThermalThrottle (die : Nat) (s : State) : Out :=
  .next { s with power := { s.power with hot := (die % 4 :: s.power.hot).eraseDups } }

/-- THERMAL_SHUTDOWN: a die's junction reaches 115 °C; the module stops, and needs a cold start. -/
def execThermalShutdown (_die : Nat) (s : State) : Out := .next { s with power := { s.power with shutdown := true } }

/-- POWER_LIMIT_THROTTLE: power stood above 2,000 W for 10 ms. -/
def execPowerLimitThrottle (s : State) : Out := .next { s with power := { s.power with limit := true } }

/-- POWER_LIMIT_RELEASE: power is below 1,900 W. -/
def execPowerLimitRelease (s : State) : Out := .next { s with power := { s.power with limit := false } }

/-- The main clock is throttled. -/
def Power.throttled (p : Power) : Bool := p.limit || !p.hot.isEmpty

end Sys2Proof.Machine
end

