-- ==== Sys2Proof/Machine/Spdm.lean ====
section
/-!
DEFINITION. The SPDM 1.3 responder (24_ports R461). What it makes from fused keys, certificates and digests is free
(notes/assumptions/16); the order of the requests and the numbers of the algorithms are SPDM's own (notes/assumptions/46).
-/

namespace Sys2Proof.Machine

/-- A response goes out. -/
def State.spdmSend (s : State) (r : SpdmAnswer) : State := { s with spdm := { s.spdm with response := some r } }

/-- n words of a response that the spec does not give. -/
def spdmWords (free n : Nat) : List W64 := (List.range n).map (fun k => Config.spdmWord (free + k))

/-- A request that needs the algorithms to have been negotiated: its response uses n free words. -/
def State.spdmServe (s : State) (n : Nat) (r : List W64 → SpdmAnswer) : Out :=
  if s.spdm.algs.isSome then .next (({ s with free := s.free + n } : State).spdmSend (r (spdmWords s.free n)))
  else .next (s.spdmSend .error)

/-- GET_VERSION: version 1.3; what was negotiated is forgotten. -/
def execGetVersion (s : State) : Out :=
  .next (({ s with spdm := { version := true } } : State).spdmSend (.version 1 3))

/-- GET_CAPABILITIES. -/
def execGetCapabilities (s : State) : Out :=
  if s.spdm.version then
    .next (({ s with free := s.free + 1, spdm := { s.spdm with caps := true } } : State).spdmSend (.capabilities (Config.spdmWord s.free)))
  else .next (s.spdmSend .error)

/-- The bits of ECDSA P-256 and of SHA-256 in a request's masks of algorithms. -/
def spdmEcdsaP256 : Nat := 16
def spdmSha256 : Nat := 1

/-- NEGOTIATE_ALGORITHMS: base asymmetric ECDSA P-256 and base hash SHA-256 only. -/
def execNegotiateAlgorithms (asym hash : Nat) (s : State) : Out :=
  if s.spdm.caps then
    if asym.testBit 4 ∧ hash.testBit 0 then
      .next (({ s with spdm := { s.spdm with algs := some (spdmEcdsaP256, spdmSha256) } } : State).spdmSend
        (.algorithms spdmEcdsaP256 spdmSha256))
    else .next (s.spdmSend .error)
  else .next (s.spdmSend .error)

/-- GET_DIGESTS: the digest of the chain in slot 0. -/
def execGetDigests (s : State) : Out := s.spdmServe 4 (.digests 1)

/-- GET_CERTIFICATE: the chain in slot 0, which ends in the fused device key. -/
def execGetCertificate (slot : Nat) (s : State) : Out :=
  if slot = 0 then s.spdmServe 64 (.certificate 0) else .next (s.spdmSend .error)

/-- CHALLENGE: signed with the device key. -/
def execChallenge (nonce : Nat) (s : State) : Out := s.spdmServe 8 (.challengeAuth nonce)

/-- GET_MEASUREMENTS: 1 the boot ROM, 2 the fuse configuration, 3 the monitor, 4 the S-mode scheduler; 0 asks how many
there are, 255 for all of them. -/
def execGetMeasurements (index : Nat) (s : State) : Out :=
  if index = 0 then s.spdmServe 0 (fun _ => .measurements 4 [])
  else if index ≤ 4 then s.spdmServe 4 (fun ws => .measurements 1 [(index, ws)])
  else if index = 255 then
    s.spdmServe 16 (fun ws => .measurements 4 ((List.range 4).map (fun k => (k + 1, (ws.drop (4 * k)).take 4))))
  else .next (s.spdmSend .error)

end Sys2Proof.Machine
end

