-- ==== Sys2Proof/Machine/Start.lean ====
section
/-!
DEFINITION. The start (24_ports R460): cold and warm starts, what each clears and keeps, the failure count, recovery. What
the self test and the check of the firmware find is free (notes/assumptions/17).
-/

namespace Sys2Proof.Machine

/-- BAR0 offset 0x008: the last step completed, or 0xF for recovery, and the failure count. -/
def Start.status (x : Start) : Nat := (if x.recovery then 15 else x.step) + 16 * (x.failures % 16)

/-- The module of the model after a start has cleared it: the model's own fields go on, the module keeps its number,
and a throttle goes on. -/
def State.cleared (s : State) : State :=
  { State.reset with
    agenda := s.agenda, free := s.free + 2, ports := { State.reset.ports with devid := s.ports.devid }
    power := { s.power with shutdown := false } }

/-- A cold start: a failure of the self test (step 3) or of the firmware's check (step 4) enters recovery. -/
def State.coldStart (s : State) : State :=
  if !Config.startPasses s.free then { s.cleared with start := { step := 2, failures := s.start.failures, recovery := true } }
  else if !Config.startPasses (s.free + 1) then
    { s.cleared with start := { step := 3, failures := s.start.failures, recovery := true } }
  else s.cleared

/-- `WSMAP` marks the 4 KiB piece of an address free, or is 0. -/
def State.freePiece (s : State) (pa : Nat) : Bool :=
  s.ports.wsmap == 0 || (Memory.read s.mem (s.ports.wsmap.toNat + pa / 4096 / 8)).getLsbD (pa / 4096 % 8)

/-- Step 5 of a warm start: the page-attribute table stands at the reset value of `ATBASE` again, with the entries that the table
of die 0 had for pieces that are not marked free, and RC, bytes, linear for the others (notes/assumptions/17). -/
def State.rebuilt (s : State) (m : Memory) : Memory :=
  let b := (s.die 0).atbase.toNat
  if b = 0 then m.filter (fun c => decide (attrBytes ≤ c.1) || !s.freePiece (c.1 / 2 * 4096))
  else (List.range (dramEnd / 4096)).foldl (fun t i =>
    Memory.writeNat t (2 * i) 2 (if s.freePiece (4096 * i) then 1 else Memory.readNat s.mem (b + 2 * i) 2)) m

/-- What a warm start keeps before anything is cleared: DRAM with its marks and the attribute table, `clock64`, `WSMAP`. -/
def State.warmBase (s : State) : State :=
  let t := s.cleared
  { t with mem := s.mem, poisoned := s.poisoned, clock := s.clock, ports := { t.ports with wsmap := s.ports.wsmap } }

/-- Step 3 of a warm start: the pieces marked free are cleared, or all; the page-attribute table waits for step 5. -/
def State.warmClear (s : State) : State :=
  { s.warmBase with
    mem := s.mem.filter (fun c => !s.freePiece c.1 || s.inAttrTable 0 c.1)
    poisoned := s.poisoned.filter (fun l => !s.freePiece (l * 128)) }

/-- A failed warm start raises the failure count; at 3 a cold start follows. -/
def State.warmFails (s t : State) (step : Nat) : State :=
  let n := s.start.failures + 1
  let u : State := { t with start := { step := step, failures := n } }
  if 3 ≤ n then u.coldStart else u

/-- A warm start. -/
def State.warmStart (s : State) : State :=
  if !Config.startPasses s.free then s.warmFails s.warmBase 2
  else if !Config.startPasses (s.free + 1) then s.warmFails s.warmClear 3
  else { s.warmClear with mem := s.rebuilt s.warmClear.mem }

/-- POWER_ON: a cold start begins. -/
def execPowerOn (s : State) : Out := .next s.coldStart

/-- HOST_COLD_START: the host writes 1 to BAR0 offset 0x000. -/
def execHostColdStart (s : State) : Out := .next s.coldStart

/-- HOST_WARM_START: the host writes 2 to BAR0 offset 0x000. A module that has shut down needs a cold start (R462). -/
def execHostWarmStart (s : State) : Out := if s.power.shutdown then .next s else .next s.warmStart

/-- MONITOR_WARM_START: the monitor begins a warm start; it runs only once a start has completed. -/
def execMonitorWarmStart (s : State) : Out :=
  if s.power.shutdown ∨ s.start.recovery ∨ s.start.step ≠ 6 then .next s else .next s.warmStart

/-- FIRMWARE_IMAGE_WRITE: in recovery, BAR0 offset 0x100 takes the image for the next cold start. -/
def execFirmwareImageWrite (value : BitVec 64) (s : State) : Out :=
  if s.start.recovery then .next { s with start := { s.start with image := s.start.image ++ [value] } } else .next s

end Sys2Proof.Machine
end

