-- ==== Sys2Proof/Machine/System.lean ====
section
/-!
DEFINITION. The gang side of the system class (22_system R435 to R439): state registers, `upcall`, `brk`, `nop`; and the
state registers that a Vintner reads (17_matrix R330).
-/

namespace Sys2Proof.Machine

/-- A state register is 64 bits wide (03_encoding R61). -/
def sr64 (n : Nat) : Bool := (decide (0x08 ≤ n) && decide (n ≤ 0x0B)) || n == 0x10

/-- The value of a state register for a lane of the part (R61); 0 for a number that names none. -/
def State.stateReg (s : State) (x : Ctx) (n lane : Nat) : W64 :=
  let nat := BitVec.ofNat 64
  let r := x.c.record
  match n with
  | 0x00 => nat lane
  | 0x01 => nat (lane / 4)
  | 0x02 => nat x.gang
  | 0x03 => nat x.crew
  | 0x04 => nat x.c.core
  | 0x05 => nat (clusterOfCore x.c.core)
  | 0x06 => nat x.die
  | 0x07 => nat s.ports.devid
  | 0x08 => x.c.recptr
  | 0x09 => recFrame r
  | 0x0A => recArg0 r
  | 0x0B => recArg1 r
  | 0x0C => nat (recGangs r)
  | 0x0D => nat (recField r 208 32)
  | 0x0E => nat x.mask.toNat
  | 0x0F => nat (if x.c.phase = .stopping then 1 else 0)
  | 0x10 => nat s.clock
  | 0x11 => (s.core x.c.core).parkthr.setWidth 64
  | 0x12 => x.g.regs.af.setWidth 64
  | 0x13 => x.g.regs.te.setWidth 64
  | 0x14 => nat x.c.asid
  | 0x15 => nat (x.g.slice (lane / 4)).depth
  | _ => 0

/-- The value of a state register in a Vintner's context; none for a number that is illegal there (17_matrix R330). -/
def State.vReg (s : State) (x : VRun) (n : Nat) : Option W64 :=
  let nat := BitVec.ofNat 64
  let b := x.k.card.block
  match n with
  | 0x05 => some (nat x.cluster)
  | 0x06 => some (nat (dieOfCluster x.cluster))
  | 0x07 => some (nat s.ports.devid)
  | 0x08 => some x.k.card.addr
  | 0x09 => some (blkWord b 32)
  | 0x0A => some (blkWord b 48)
  | 0x0B => some (blkWord b 56)
  | 0x0C => some (nat (bitsAt b 320 32))
  | 0x0D => some (nat (bitsAt b 352 32))
  | 0x0F => some (nat (if s.vStopPending x then 1 else 0))
  | 0x10 => some (nat s.clock)
  | 0x12 => some (x.k.flags.setWidth 64)
  | 0x14 => some (nat x.k.card.asid)
  | _ => none

/-- `rds` into `v` (R436): every active lane receives its own value. -/
def execRdsV (d : BitVec 6) (imm : BitVec 8) (s : State) : Out :=
  let n := imm.toNat
  let w := sr64 n
  s.issue { vs := [(d, if w then 2 else 1)], flags := true, ss := some [] } (fun x t =>
    let val := t.stateReg x n
    .next (t.retireRegs x (fun q =>
      if w then q.writeV2 d.toNat val (x.lanes 7) else q.writeV d.toNat (fun i => (val i).setWidth 32) (x.lanes 7))))
    (fun _ => decide (n ≤ 0x15))

/-- `rds` into `s` (R436): every slice of the part receives its own value. -/
def execRdsS (d : BitVec 6) (imm : BitVec 8) (s : State) : Out :=
  let n := imm.toNat
  let w := sr64 n
  s.issueBoth { flags := true, ss := some [(d.toNat, if w then 2 else 1)] } true
    (fun x t =>
      if (x.lanes 7).isEmpty then .next (t.retireHere x)
      else
        let val := fun k => t.stateReg x n (4 * k)
        .next (t.retireRegs x (fun q =>
          if w then q.writeS2 d.toNat val x.part else q.writeS d.toNat (fun k => (val k).setWidth 32) x.part)))
    (fun x t =>
      match t.vReg x n with
      | none => .next (t.vFault x .illegalEncoding)
      | some v => .next (t.vRetire x (if w then x.k.setS2 d.toNat v else x.k.setS d.toNat (v.setWidth 32))))
    (fun _ => n != 0 && decide (n ≤ 0x15))

/-- The threshold that a write of `parkthr` leaves (R436). -/
def parkThreshold (v : W32) : W32 := if v.toNat < 64 then 64 else if 2 ^ 24 < v.toNat then BitVec.ofNat 32 (2 ^ 24) else v

/-- `wrs` (R436, 03_encoding R62, 08_floating_point R175). -/
def execWrs (a : BitVec 6) (imm : BitVec 8) (s : State) : Out :=
  let n := imm.toNat
  s.issueBoth { past := .waits, flags := true, ss := some [(a.toNat, 1)] } true
    (fun x t =>
      if n = 0x11 ∧ !recService x.c.record then .next (t.takeTrap x { kind := .privilegedInstruction })
      else match x.uslice with
        | none => .next (t.retireHere x)
        | some k =>
          let v := x.g.regs.getS k a.toNat
          if n = 0x11 then
            let c := t.core x.c.core
            .next ((t.setCore x.c.core { c with parkthr := parkThreshold v }).retireHere x)
          else match t.gang? x.crew x.gang with
            | none => .next t
            | some g => .next (t.retire x (if n = 0x12 then g.writeAf x.mask v else g.writeTe v)))
    (fun x t =>
      if n = 0x12 then .next (t.vRetire x { x.k with flags := (x.k.getS a.toNat).setWidth 5 })
      else .next (t.vFault x .illegalEncoding))
    (fun _ => n == 0x11 || n == 0x12 || n == 0x13)

/-- `upcall` (R437): the message is read, and the part waits with code 7 for room and for the reply. -/
def execUpcall (d a : BitVec 6) (imm : BitVec 8) (s : State) : Out :=
  s.issue { past := .waits } (fun x t =>
    let t1 := (t.drain x.crew x.gang x.mask 5).released x.crew x.gang x.mask 5
    match x.uslice with
    | none => .next (t1.retireHere x)
    | some k =>
      let t2 := t1.waitPart x 7 imm.toNat 0
      if t1.moved x then .next t2
      else match t2.gang? x.crew x.gang with
        | none => .next t2
        | some g =>
          let u : Upcall := { slices := x.mask, msg := x.g.regs.block k a.toNat 8, channel := imm.toNat, dest := d.toNat, addr := x.start, tag := none }
          .next (t2.setGang x.crew x.gang { g with upcalls := g.upcalls ++ [u] }))

/-- `brk` (R439): the breakpoint fault, with the code as its detail. -/
def execBrk (imm : BitVec 8) (s : State) : Out :=
  s.issue { ss := some [] } (fun x t => .next (t.takeTrap x { kind := .breakpoint, detail := imm.toNat }))

/-- `nop` (R439). -/
def execNop (s : State) : Out := s.issueBoth { ss := some [] } true (fun x t => .next (t.retireHere x)) (fun x t => .next (t.vRetire x x.k))

end Sys2Proof.Machine
end

