-- ==== Sys2Proof/Machine/Dispatch.lean ====
section
/-!
DEFINITION. The meaning of every instruction and event: one arm per constructor of `Instr`, each one direct call.
-/

namespace Sys2Proof.Machine

/-- Execute one instruction of the issuing agent, or make one step that has no word. -/
def exec (i : Instr) (s : State) : Host.Outcome State Fault Refusal :=
  match i with
  | .br p n o => Sys2Proof.Machine.execBr p n o s
  | .call p n o => Sys2Proof.Machine.execCall p n o s
  | .jmpi g a => Sys2Proof.Machine.execJmpi g a s
  | .calli g a => Sys2Proof.Machine.execCalli g a s
  | .calliSave f => Sys2Proof.Machine.execCalliSave f s
  | .ret_ g => Sys2Proof.Machine.execRet g s
  | .regang => Sys2Proof.Machine.execRegang s
  | .pfoldEvery f => Sys2Proof.Machine.execPfoldEvery f s
  | .pfoldSome f => Sys2Proof.Machine.execPfoldSome f s
  | .pfoldOdd f => Sys2Proof.Machine.execPfoldOdd f s
  | .pfoldAgree f => Sys2Proof.Machine.execPfoldAgree f s
  | .pmask f => Sys2Proof.Machine.execPmask f s
  | .pmaskBelow f => Sys2Proof.Machine.execPmaskBelow f s
  | .prank f => Sys2Proof.Machine.execPrank f s
  | .prankTotal f => Sys2Proof.Machine.execPrankTotal f s
  | .lfetchAt f => Sys2Proof.Machine.execLfetchAt f s
  | .lfetchOff f => Sys2Proof.Machine.execLfetchOff f s
  | .lfetchFlip f => Sys2Proof.Machine.execLfetchFlip f s
  | .lfetchHead f => Sys2Proof.Machine.execLfetchHead f s
  | .gredAddS32 f => Sys2Proof.Machine.execGredAddS32 f s
  | .gredMinS32 f => Sys2Proof.Machine.execGredMinS32 f s
  | .gredMaxS32 f => Sys2Proof.Machine.execGredMaxS32 f s
  | .gredMinN32 f => Sys2Proof.Machine.execGredMinN32 f s
  | .gredMaxN32 f => Sys2Proof.Machine.execGredMaxN32 f s
  | .gredAnd f => Sys2Proof.Machine.execGredAnd f s
  | .gredOr f => Sys2Proof.Machine.execGredOr f s
  | .gredXor f => Sys2Proof.Machine.execGredXor f s
  | .gredAddF32 f => Sys2Proof.Machine.execGredAddF32 f s
  | .gredMinF32 f => Sys2Proof.Machine.execGredMinF32 f s
  | .gredMaxF32 f => Sys2Proof.Machine.execGredMaxF32 f s
  | .gredAddF64 f => Sys2Proof.Machine.execGredAddF64 f s
  | .gredMinF64 f => Sys2Proof.Machine.execGredMinF64 f s
  | .gredMaxF64 f => Sys2Proof.Machine.execGredMaxF64 f s
  | .gscanAddS32 f => Sys2Proof.Machine.execGscanAddS32 f s
  | .gscanMinS32 f => Sys2Proof.Machine.execGscanMinS32 f s
  | .gscanMaxS32 f => Sys2Proof.Machine.execGscanMaxS32 f s
  | .gscanMinN32 f => Sys2Proof.Machine.execGscanMinN32 f s
  | .gscanMaxN32 f => Sys2Proof.Machine.execGscanMaxN32 f s
  | .gscanAnd f => Sys2Proof.Machine.execGscanAnd f s
  | .gscanOr f => Sys2Proof.Machine.execGscanOr f s
  | .gscanXor f => Sys2Proof.Machine.execGscanXor f s
  | .gscanAddF32 f => Sys2Proof.Machine.execGscanAddF32 f s
  | .gscanMinF32 f => Sys2Proof.Machine.execGscanMinF32 f s
  | .gscanMaxF32 f => Sys2Proof.Machine.execGscanMaxF32 f s
  | .gscanAddF64 f => Sys2Proof.Machine.execGscanAddF64 f s
  | .gscanMinF64 f => Sys2Proof.Machine.execGscanMinF64 f s
  | .gscanMaxF64 f => Sys2Proof.Machine.execGscanMaxF64 f s
  | .add f => Sys2Proof.Machine.execAdd f s
  | .sub f => Sys2Proof.Machine.execSub f s
  | .mul f => Sys2Proof.Machine.execMul f s
  | .mulhiS32 f => Sys2Proof.Machine.execMulhiS32 f s
  | .mulhiN32 f => Sys2Proof.Machine.execMulhiN32 f s
  | .mad f => Sys2Proof.Machine.execMad f s
  | .divS32 f => Sys2Proof.Machine.execDivS32 f s
  | .divN32 f => Sys2Proof.Machine.execDivN32 f s
  | .remS32 f => Sys2Proof.Machine.execRemS32 f s
  | .remN32 f => Sys2Proof.Machine.execRemN32 f s
  | .minS32 f => Sys2Proof.Machine.execMinS32 f s
  | .maxS32 f => Sys2Proof.Machine.execMaxS32 f s
  | .minN32 f => Sys2Proof.Machine.execMinN32 f s
  | .maxN32 f => Sys2Proof.Machine.execMaxN32 f s
  | .absS32 f => Sys2Proof.Machine.execAbsS32 f s
  | .addsS32 f => Sys2Proof.Machine.execAddsS32 f s
  | .addS64 f => Sys2Proof.Machine.execAddS64 f s
  | .subS64 f => Sys2Proof.Machine.execSubS64 f s
  | .mulS64 f => Sys2Proof.Machine.execMulS64 f s
  | .mulhiS64 f => Sys2Proof.Machine.execMulhiS64 f s
  | .mulhiN64 f => Sys2Proof.Machine.execMulhiN64 f s
  | .madS64 f => Sys2Proof.Machine.execMadS64 f s
  | .minS64 f => Sys2Proof.Machine.execMinS64 f s
  | .maxS64 f => Sys2Proof.Machine.execMaxS64 f s
  | .minN64 f => Sys2Proof.Machine.execMinN64 f s
  | .maxN64 f => Sys2Proof.Machine.execMaxN64 f s
  | .shl64 f => Sys2Proof.Machine.execShl64 f s
  | .shrN64 f => Sys2Proof.Machine.execShrN64 f s
  | .shrS64 f => Sys2Proof.Machine.execShrS64 f s
  | .lea f => Sys2Proof.Machine.execLea f s
  | .and_ f => Sys2Proof.Machine.execAnd f s
  | .or_ f => Sys2Proof.Machine.execOr f s
  | .xor_ f => Sys2Proof.Machine.execXor f s
  | .andn f => Sys2Proof.Machine.execAndn f s
  | .shl f => Sys2Proof.Machine.execShl f s
  | .shrN32 f => Sys2Proof.Machine.execShrN32 f s
  | .shrS32 f => Sys2Proof.Machine.execShrS32 f s
  | .rotl f => Sys2Proof.Machine.execRotl f s
  | .popc f => Sys2Proof.Machine.execPopc f s
  | .clz f => Sys2Proof.Machine.execClz f s
  | .ctz f => Sys2Proof.Machine.execCtz f s
  | .brev f => Sys2Proof.Machine.execBrev f s
  | .bext f => Sys2Proof.Machine.execBext f s
  | .bins f => Sys2Proof.Machine.execBins f s
  | .mov f => Sys2Proof.Machine.execMov f s
  | .eq f => Sys2Proof.Machine.execEq f s
  | .ne f => Sys2Proof.Machine.execNe f s
  | .ltS32 f => Sys2Proof.Machine.execLtS32 f s
  | .leS32 f => Sys2Proof.Machine.execLeS32 f s
  | .ltN32 f => Sys2Proof.Machine.execLtN32 f s
  | .leN32 f => Sys2Proof.Machine.execLeN32 f s
  | .gtS32 f => Sys2Proof.Machine.execGtS32 f s
  | .geS32 f => Sys2Proof.Machine.execGeS32 f s
  | .gtN32 f => Sys2Proof.Machine.execGtN32 f s
  | .geN32 f => Sys2Proof.Machine.execGeN32 f s
  | .ltS64 f => Sys2Proof.Machine.execLtS64 f s
  | .ltN64 f => Sys2Proof.Machine.execLtN64 f s
  | .eq64 f => Sys2Proof.Machine.execEq64 f s
  | .pand f => Sys2Proof.Machine.execPand f s
  | .por f => Sys2Proof.Machine.execPor f s
  | .pxor f => Sys2Proof.Machine.execPxor f s
  | .pandn f => Sys2Proof.Machine.execPandn f s
  | .pmov g k d b => Sys2Proof.Machine.execPmov g k d b s
  | .pread g k d b => Sys2Proof.Machine.execPread g k d b s
  | .addi g d a imm => Sys2Proof.Machine.execAddi g d a imm s
  | .movi g d v imm => Sys2Proof.Machine.execMovi g d v imm s
  | .movhi g d v imm => Sys2Proof.Machine.execMovhi g d v imm s
  | .addF32 f => Sys2Proof.Machine.execAddF32 f s
  | .subF32 f => Sys2Proof.Machine.execSubF32 f s
  | .mulF32 f => Sys2Proof.Machine.execMulF32 f s
  | .fmaF32 f => Sys2Proof.Machine.execFmaF32 f s
  | .fnmaF32 f => Sys2Proof.Machine.execFnmaF32 f s
  | .minF32 f => Sys2Proof.Machine.execMinF32 f s
  | .maxF32 f => Sys2Proof.Machine.execMaxF32 f s
  | .absF32 f => Sys2Proof.Machine.execAbsF32 f s
  | .negF32 f => Sys2Proof.Machine.execNegF32 f s
  | .rcpF32 f => Sys2Proof.Machine.execRcpF32 f s
  | .rsqrtF32 f => Sys2Proof.Machine.execRsqrtF32 f s
  | .sqrtF32 f => Sys2Proof.Machine.execSqrtF32 f s
  | .exp2F32 f => Sys2Proof.Machine.execExp2F32 f s
  | .log2F32 f => Sys2Proof.Machine.execLog2F32 f s
  | .copysignF32 f => Sys2Proof.Machine.execCopysignF32 f s
  | .addF64 f => Sys2Proof.Machine.execAddF64 f s
  | .subF64 f => Sys2Proof.Machine.execSubF64 f s
  | .mulF64 f => Sys2Proof.Machine.execMulF64 f s
  | .fmaF64 f => Sys2Proof.Machine.execFmaF64 f s
  | .fnmaF64 f => Sys2Proof.Machine.execFnmaF64 f s
  | .minF64 f => Sys2Proof.Machine.execMinF64 f s
  | .maxF64 f => Sys2Proof.Machine.execMaxF64 f s
  | .absF64 f => Sys2Proof.Machine.execAbsF64 f s
  | .negF64 f => Sys2Proof.Machine.execNegF64 f s
  | .rcpF64 f => Sys2Proof.Machine.execRcpF64 f s
  | .rsqrtF64 f => Sys2Proof.Machine.execRsqrtF64 f s
  | .sqrtF64 f => Sys2Proof.Machine.execSqrtF64 f s
  | .copysignF64 f => Sys2Proof.Machine.execCopysignF64 f s
  | .addH16 f => Sys2Proof.Machine.execAddH16 f s
  | .mulH16 f => Sys2Proof.Machine.execMulH16 f s
  | .fmaH16 f => Sys2Proof.Machine.execFmaH16 f s
  | .minH16 f => Sys2Proof.Machine.execMinH16 f s
  | .maxH16 f => Sys2Proof.Machine.execMaxH16 f s
  | .addBf16 f => Sys2Proof.Machine.execAddBf16 f s
  | .mulBf16 f => Sys2Proof.Machine.execMulBf16 f s
  | .fmaBf16 f => Sys2Proof.Machine.execFmaBf16 f s
  | .minBf16 f => Sys2Proof.Machine.execMinBf16 f s
  | .maxBf16 f => Sys2Proof.Machine.execMaxBf16 f s
  | .addH16x2 f => Sys2Proof.Machine.execAddH16x2 f s
  | .mulH16x2 f => Sys2Proof.Machine.execMulH16x2 f s
  | .fmaH16x2 f => Sys2Proof.Machine.execFmaH16x2 f s
  | .minH16x2 f => Sys2Proof.Machine.execMinH16x2 f s
  | .maxH16x2 f => Sys2Proof.Machine.execMaxH16x2 f s
  | .addBf16x2 f => Sys2Proof.Machine.execAddBf16x2 f s
  | .mulBf16x2 f => Sys2Proof.Machine.execMulBf16x2 f s
  | .fmaBf16x2 f => Sys2Proof.Machine.execFmaBf16x2 f s
  | .minBf16x2 f => Sys2Proof.Machine.execMinBf16x2 f s
  | .maxBf16x2 f => Sys2Proof.Machine.execMaxBf16x2 f s
  | .feqF32 f => Sys2Proof.Machine.execFeqF32 f s
  | .fltF32 f => Sys2Proof.Machine.execFltF32 f s
  | .fleF32 f => Sys2Proof.Machine.execFleF32 f s
  | .funordF32 f => Sys2Proof.Machine.execFunordF32 f s
  | .feqF64 f => Sys2Proof.Machine.execFeqF64 f s
  | .fltF64 f => Sys2Proof.Machine.execFltF64 f s
  | .fleF64 f => Sys2Proof.Machine.execFleF64 f s
  | .funordF64 f => Sys2Proof.Machine.execFunordF64 f s
  | .cvt g c d a u => Sys2Proof.Machine.execCvt g c d a u s
  | .tfence => Sys2Proof.Machine.execTfence s
  | .mmul g k n d a b => Sys2Proof.Machine.execMmul g k n d a b s
  | .madd g k n d a b => Sys2Proof.Machine.execMadd g k n d a b s
  | .msub g k n d a b => Sys2Proof.Machine.execMsub g k n d a b s
  | .mmac g k n d a b => Sys2Proof.Machine.execMmac g k n d a b s
  | .mred g n d a => Sys2Proof.Machine.execMred g n d a s
  | .mred128 g n d a => Sys2Proof.Machine.execMred128 g n d a s
  | .mneg g n d a => Sys2Proof.Machine.execMneg g n d a s
  | .bfly g n d a x => Sys2Proof.Machine.execBfly g n d a x s
  | .ibfly g n d a x => Sys2Proof.Machine.execIbfly g n d a x s
  | .perm g d a b => Sys2Proof.Machine.execPerm g d a b s
  | .lrot g d a b => Sys2Proof.Machine.execLrot g d a b s
  | .setm g n a => Sys2Proof.Machine.execSetm g n a s
  | .getm g n a => Sys2Proof.Machine.execGetm g n a s
  | .getk g n a => Sys2Proof.Machine.execGetk g n a s
  | .ld f => Sys2Proof.Machine.execLd f s
  | .st f => Sys2Proof.Machine.execSt f s
  | .lde f => Sys2Proof.Machine.execLde f s
  | .ste f => Sys2Proof.Machine.execSte f s
  | .preq d a p r q => Sys2Proof.Machine.execPreq d a p r q s
  | .lclean a imm => Sys2Proof.Machine.execLclean a imm s
  | .pf d a w => Sys2Proof.Machine.execPf d a w s
  | .lflush a imm => Sys2Proof.Machine.execLflush a imm s
  | .linv a imm => Sys2Proof.Machine.execLinv a imm s
  | .lds d a f w => Sys2Proof.Machine.execLds d a f w s
  | .cst d a p w => Sys2Proof.Machine.execCst d a p w s
  | .exld d a f p w => Sys2Proof.Machine.execExld d a f p w s
  | .talloc d a b => Sys2Proof.Machine.execTalloc d a b s
  | .tfree a => Sys2Proof.Machine.execTfree a s
  | .tfill d a b => Sys2Proof.Machine.execTfill d a b s
  | .tflush d a => Sys2Proof.Machine.execTflush d a s
  | .tquery f => Sys2Proof.Machine.execTquery f s
  | .tld g k w d a b => Sys2Proof.Machine.execTld g k w d a b s
  | .tst g k w d a b => Sys2Proof.Machine.execTst g k w d a b s
  | .tlde f => Sys2Proof.Machine.execTlde f s
  | .tste f => Sys2Proof.Machine.execTste f s
  | .tldg f => Sys2Proof.Machine.execTldg f s
  | .tstg f => Sys2Proof.Machine.execTstg f s
  | .macq a => Sys2Proof.Machine.execMacq a s
  | .mrel a => Sys2Proof.Machine.execMrel a s
  | .atomAdd f => Sys2Proof.Machine.execAtomAdd f s
  | .atomAnd f => Sys2Proof.Machine.execAtomAnd f s
  | .atomOr f => Sys2Proof.Machine.execAtomOr f s
  | .atomXor f => Sys2Proof.Machine.execAtomXor f s
  | .atomMinS32 f => Sys2Proof.Machine.execAtomMinS32 f s
  | .atomMaxS32 f => Sys2Proof.Machine.execAtomMaxS32 f s
  | .atomMinN32 f => Sys2Proof.Machine.execAtomMinN32 f s
  | .atomMaxN32 f => Sys2Proof.Machine.execAtomMaxN32 f s
  | .atomXchg f => Sys2Proof.Machine.execAtomXchg f s
  | .atomCas f => Sys2Proof.Machine.execAtomCas f s
  | .redAdd f => Sys2Proof.Machine.execRedAdd f s
  | .redAnd f => Sys2Proof.Machine.execRedAnd f s
  | .redOr f => Sys2Proof.Machine.execRedOr f s
  | .redXor f => Sys2Proof.Machine.execRedXor f s
  | .redMinS32 f => Sys2Proof.Machine.execRedMinS32 f s
  | .redMaxS32 f => Sys2Proof.Machine.execRedMaxS32 f s
  | .redMinN32 f => Sys2Proof.Machine.execRedMinN32 f s
  | .redMaxN32 f => Sys2Proof.Machine.execRedMaxN32 f s
  | .atomAddN64 f => Sys2Proof.Machine.execAtomAddN64 f s
  | .atomAndN64 f => Sys2Proof.Machine.execAtomAndN64 f s
  | .atomOrN64 f => Sys2Proof.Machine.execAtomOrN64 f s
  | .atomXorN64 f => Sys2Proof.Machine.execAtomXorN64 f s
  | .atomMinS64 f => Sys2Proof.Machine.execAtomMinS64 f s
  | .atomMaxS64 f => Sys2Proof.Machine.execAtomMaxS64 f s
  | .atomMinN64 f => Sys2Proof.Machine.execAtomMinN64 f s
  | .atomMaxN64 f => Sys2Proof.Machine.execAtomMaxN64 f s
  | .atomXchgN64 f => Sys2Proof.Machine.execAtomXchgN64 f s
  | .atomCasN64 f => Sys2Proof.Machine.execAtomCasN64 f s
  | .redAddN64 f => Sys2Proof.Machine.execRedAddN64 f s
  | .redAndN64 f => Sys2Proof.Machine.execRedAndN64 f s
  | .redOrN64 f => Sys2Proof.Machine.execRedOrN64 f s
  | .redXorN64 f => Sys2Proof.Machine.execRedXorN64 f s
  | .redMinS64 f => Sys2Proof.Machine.execRedMinS64 f s
  | .redMaxS64 f => Sys2Proof.Machine.execRedMaxS64 f s
  | .redMinN64 f => Sys2Proof.Machine.execRedMinN64 f s
  | .redMaxN64 f => Sys2Proof.Machine.execRedMaxN64 f s
  | .atomAddF32 f => Sys2Proof.Machine.execAtomAddF32 f s
  | .atomMinF32 f => Sys2Proof.Machine.execAtomMinF32 f s
  | .atomMaxF32 f => Sys2Proof.Machine.execAtomMaxF32 f s
  | .atomAddF64 f => Sys2Proof.Machine.execAtomAddF64 f s
  | .atomMinF64 f => Sys2Proof.Machine.execAtomMinF64 f s
  | .atomMaxF64 f => Sys2Proof.Machine.execAtomMaxF64 f s
  | .atomAddBf16x2 f => Sys2Proof.Machine.execAtomAddBf16x2 f s
  | .atomMinBf16x2 f => Sys2Proof.Machine.execAtomMinBf16x2 f s
  | .atomMaxBf16x2 f => Sys2Proof.Machine.execAtomMaxBf16x2 f s
  | .atomAddH16x2 f => Sys2Proof.Machine.execAtomAddH16x2 f s
  | .atomMinH16x2 f => Sys2Proof.Machine.execAtomMinH16x2 f s
  | .atomMaxH16x2 f => Sys2Proof.Machine.execAtomMaxH16x2 f s
  | .atomAddBf16 f => Sys2Proof.Machine.execAtomAddBf16 f s
  | .atomMinBf16 f => Sys2Proof.Machine.execAtomMinBf16 f s
  | .atomMaxBf16 f => Sys2Proof.Machine.execAtomMaxBf16 f s
  | .redAddF32 f => Sys2Proof.Machine.execRedAddF32 f s
  | .redMinF32 f => Sys2Proof.Machine.execRedMinF32 f s
  | .redMaxF32 f => Sys2Proof.Machine.execRedMaxF32 f s
  | .redAddF64 f => Sys2Proof.Machine.execRedAddF64 f s
  | .redMinF64 f => Sys2Proof.Machine.execRedMinF64 f s
  | .redMaxF64 f => Sys2Proof.Machine.execRedMaxF64 f s
  | .redAddBf16x2 f => Sys2Proof.Machine.execRedAddBf16x2 f s
  | .redMinBf16x2 f => Sys2Proof.Machine.execRedMinBf16x2 f s
  | .redMaxBf16x2 f => Sys2Proof.Machine.execRedMaxBf16x2 f s
  | .redAddH16x2 f => Sys2Proof.Machine.execRedAddH16x2 f s
  | .redMinH16x2 f => Sys2Proof.Machine.execRedMinH16x2 f s
  | .redMaxH16x2 f => Sys2Proof.Machine.execRedMaxH16x2 f s
  | .redAddBf16 f => Sys2Proof.Machine.execRedAddBf16 f s
  | .redMinBf16 f => Sys2Proof.Machine.execRedMinBf16 f s
  | .redMaxBf16 f => Sys2Proof.Machine.execRedMaxBf16 f s
  | .cas128 g d a b => Sys2Proof.Machine.execCas128 g d a b s
  | .lres32 f => Sys2Proof.Machine.execLres32 f s
  | .lres64 f => Sys2Proof.Machine.execLres64 f s
  | .scond32 f => Sys2Proof.Machine.execScond32 f s
  | .scond64 f => Sys2Proof.Machine.execScond64 f s
  | .mon g a => Sys2Proof.Machine.execMon g a s
  | .fence x => Sys2Proof.Machine.execFence x s
  | .fenceAcq x => Sys2Proof.Machine.execFenceAcq x s
  | .fenceRel x => Sys2Proof.Machine.execFenceRel x s
  | .bar n => Sys2Proof.Machine.execBar n s
  | .gbar a => Sys2Proof.Machine.execGbar a s
  | .mwait => Sys2Proof.Machine.execMwait s
  | .launch a => Sys2Proof.Machine.execLaunch a s
  | .spawn f => Sys2Proof.Machine.execSpawn f s
  | .jcnt d a imm => Sys2Proof.Machine.execJcnt d a imm s
  | .exit_ => Sys2Proof.Machine.execExit s
  | .yield => Sys2Proof.Machine.execYield s
  | .gquery f => Sys2Proof.Machine.execGquery f s
  | .qpush f => Sys2Proof.Machine.execQpush f s
  | .qtail f => Sys2Proof.Machine.execQtail f s
  | .seqwait f => Sys2Proof.Machine.execSeqwait f s
  | .dsub f => Sys2Proof.Machine.execDsub f s
  | .vsub f => Sys2Proof.Machine.execVsub f s
  | .csub f => Sys2Proof.Machine.execCsub f s
  | .qhead f => Sys2Proof.Machine.execQhead f s
  | .qheadWait f => Sys2Proof.Machine.execQheadWait f s
  | .seqread f => Sys2Proof.Machine.execSeqread f s
  | .mload d a imm => Sys2Proof.Machine.execMload d a imm s
  | .mswap => Sys2Proof.Machine.execMswap s
  | .mstep d a imm t w => Sys2Proof.Machine.execMstep d a imm t w s
  | .mzero f => Sys2Proof.Machine.execMzero f s
  | .mzeroFree a => Sys2Proof.Machine.execMzeroFree a s
  | .mdrain d a f x r => Sys2Proof.Machine.execMdrain d a f x r s
  | .vdsub a => Sys2Proof.Machine.execVdsub a s
  | .vsig f => Sys2Proof.Machine.execVsig f s
  | .vyield => Sys2Proof.Machine.execVyield s
  | .vyieldDone => Sys2Proof.Machine.execVyieldDone s
  | .rast g d b => Sys2Proof.Machine.execRast g d b s
  | .rastbin g d b => Sys2Proof.Machine.execRastbin g d b s
  | .binflush g d b => Sys2Proof.Machine.execBinflush g d b s
  | .ctok f => Sys2Proof.Machine.execCtok f s
  | .zs f => Sys2Proof.Machine.execZs f s
  | .zsP g a b => Sys2Proof.Machine.execZsP g a b s
  | .blnd f => Sys2Proof.Machine.execBlnd f s
  | .blndP g a b => Sys2Proof.Machine.execBlndP g a b s
  | .tex f => Sys2Proof.Machine.execTex f s
  | .texg f => Sys2Proof.Machine.execTexg f s
  | .texq f => Sys2Proof.Machine.execTexq f s
  | .trav f => Sys2Proof.Machine.execTrav f s
  | .travc f => Sys2Proof.Machine.execTravc f s
  | .rdsV d imm => Sys2Proof.Machine.execRdsV d imm s
  | .rdsS d imm => Sys2Proof.Machine.execRdsS d imm s
  | .wrs a imm => Sys2Proof.Machine.execWrs a imm s
  | .upcall d a imm => Sys2Proof.Machine.execUpcall d a imm s
  | .brk imm => Sys2Proof.Machine.execBrk imm s
  | .nop => Sys2Proof.Machine.execNop s
  | .tlbiPage f => Sys2Proof.Machine.execTlbiPage f s
  | .tlbiAsid f => Sys2Proof.Machine.execTlbiAsid f s
  | .tlbiAll f => Sys2Proof.Machine.execTlbiAll f s
  | .pkset d a imm => Sys2Proof.Machine.execPkset d a imm s
  | .hintImmediate y => Sys2Proof.Machine.execHintImmediate y s
  | .hintJoin y => Sys2Proof.Machine.execHintJoin y s
  | .hintRounding y => Sys2Proof.Machine.execHintRounding y s
  | .hintScalePolicy y => Sys2Proof.Machine.execHintScalePolicy y s
  | .hintPriority y => Sys2Proof.Machine.execHintPriority y s
  | .hintScope y => Sys2Proof.Machine.execHintScope y s
  | .hintFormat y => Sys2Proof.Machine.execHintFormat y s
  | .reservedWord w => Sys2Proof.Machine.execReservedWord w s
  | .debugBreakpoint n => Sys2Proof.Machine.execDebugBreakpoint n s
  | .trapRecordWrite p => Sys2Proof.Machine.execTrapRecordWrite p s
  | .prqRecordWrite cluster => Sys2Proof.Machine.execPrqRecordWrite cluster s
  | .filterEntryFreeWake p => Sys2Proof.Machine.execFilterEntryFreeWake p s
  | .pgresWake die asid page => Sys2Proof.Machine.execPgresWake die asid page s
  | .pgresFault die asid page => Sys2Proof.Machine.execPgresFault die asid page s
  | .homeSliceWrite crew gang idx => Sys2Proof.Machine.execHomeSliceWrite crew gang idx s
  | .counterHalving => Sys2Proof.Machine.execCounterHalving s
  | .migrationNoticeWrite die => Sys2Proof.Machine.execMigrationNoticeWrite die s
  | .loadDataArrival a => Sys2Proof.Machine.execLoadDataArrival a s
  | .fenceComplete p => Sys2Proof.Machine.execFenceComplete p s
  | .fenceRollback p => Sys2Proof.Machine.execFenceRollback p s
  | .barRelease crew n => Sys2Proof.Machine.execBarRelease crew n s
  | .gbarRelease asid group => Sys2Proof.Machine.execGbarRelease asid group s
  | .regangJoin crew gang => Sys2Proof.Machine.execRegangJoin crew gang s
  | .mwaitWake p => Sys2Proof.Machine.execMwaitWake p s
  | .seqwaitWake p => Sys2Proof.Machine.execSeqwaitWake p s
  | .tokenAcquire p => Sys2Proof.Machine.execTokenAcquire p s
  | .ringRoomWake p => Sys2Proof.Machine.execRingRoomWake p s
  | .taskQueueRoomWake p => Sys2Proof.Machine.execTaskQueueRoomWake p s
  | .placement die core => Sys2Proof.Machine.execPlacement die core s
  | .tileListRelease cluster cls => Sys2Proof.Machine.execTileListRelease cluster cls s
  | .stopRequest crew => Sys2Proof.Machine.execStopRequest crew s
  | .overrunNotice crew => Sys2Proof.Machine.execOverrunNotice crew s
  | .park crew => Sys2Proof.Machine.execPark crew s
  | .parkImagePerformed crew => Sys2Proof.Machine.execParkImagePerformed crew s
  | .crewWake crew => Sys2Proof.Machine.execCrewWake crew s
  | .resume crew core => Sys2Proof.Machine.execResume crew core s
  | .joinPush die => Sys2Proof.Machine.execJoinPush die s
  | .impliedDecrement die => Sys2Proof.Machine.execImpliedDecrement die s
  | .crewExitComplete crew => Sys2Proof.Machine.execCrewExitComplete crew s
  | .tfillComplete idx => Sys2Proof.Machine.execTfillComplete idx s
  | .vintnerCardStart cluster cls => Sys2Proof.Machine.execVintnerCardStart cluster cls s
  | .productCard cluster cls => Sys2Proof.Machine.execProductCard cluster cls s
  | .programCard cluster cls => Sys2Proof.Machine.execProgramCard cluster cls s
  | .vintnerSwitch cluster => Sys2Proof.Machine.execVintnerSwitch cluster s
  | .bankFillComplete cluster => Sys2Proof.Machine.execBankFillComplete cluster s
  | .swap cluster => Sys2Proof.Machine.execSwap cluster s
  | .matrixStep cluster => Sys2Proof.Machine.execMatrixStep cluster s
  | .accumulatorZero cluster => Sys2Proof.Machine.execAccumulatorZero cluster s
  | .accumulatorFree cluster => Sys2Proof.Machine.execAccumulatorFree cluster s
  | .accumulatorDrain cluster => Sys2Proof.Machine.execAccumulatorDrain cluster s
  | .engineTurn die => Sys2Proof.Machine.execEngineTurn die s
  | .testWaitWake r => Sys2Proof.Machine.execTestWaitWake r s
  | .ringWake r => Sys2Proof.Machine.execRingWake r s
  | .entryComplete r => Sys2Proof.Machine.execEntryComplete r s
  | .ringResume r => Sys2Proof.Machine.execRingResume r s
  | .cardDispatch die group idx => Sys2Proof.Machine.execCardDispatch die group idx s
  | .cardComplete die group idx => Sys2Proof.Machine.execCardComplete die group idx s
  | .decanterChunk cluster units => Sys2Proof.Machine.execDecanterChunk cluster units s
  | .schedulePeriod die => Sys2Proof.Machine.execSchedulePeriod die s
  | .guestSliceEnd die guest => Sys2Proof.Machine.execGuestSliceEnd die guest s
  | .coprocessorServe cluster u => Sys2Proof.Machine.execCoprocessorServe cluster u s
  | .coprocessorQueueRoom p => Sys2Proof.Machine.execCoprocessorQueueRoom p s
  | .lanePerform cluster idx => Sys2Proof.Machine.execLanePerform cluster idx s
  | .windowEntry cluster idx => Sys2Proof.Machine.execWindowEntry cluster idx s
  | .callRecordArrival cluster idx => Sys2Proof.Machine.execCallRecordArrival cluster idx s
  | .mailboxRecordWrite die => Sys2Proof.Machine.execMailboxRecordWrite die s
  | .tresRetry die tag => Sys2Proof.Machine.execTresRetry die tag s
  | .tresSkip die tag => Sys2Proof.Machine.execTresSkip die tag s
  | .tresRedirect die tag addr => Sys2Proof.Machine.execTresRedirect die tag addr s
  | .tresTerminate die tag decrement => Sys2Proof.Machine.execTresTerminate die tag decrement s
  | .tresPark die tag => Sys2Proof.Machine.execTresPark die tag s
  | .ureply die tag value => Sys2Proof.Machine.execUreply die tag value s
  | .ureplyTerminate die tag => Sys2Proof.Machine.execUreplyTerminate die tag s
  | .mgringWrite r asid desc valid => Sys2Proof.Machine.execMgringWrite r asid desc valid s
  | .hswscClear slice => Sys2Proof.Machine.execHswscClear slice s
  | .registerWrite writer off size value => Sys2Proof.Machine.execRegisterWrite writer off size value s
  | .scrubError die pa => Sys2Proof.Machine.execScrubError die pa s
  | .pluginPeriodStart die tenant => Sys2Proof.Machine.execPluginPeriodStart die tenant s
  | .pluginOverrun die tenant => Sys2Proof.Machine.execPluginOverrun die tenant s
  | .ecallReturn die tenant reply => Sys2Proof.Machine.execEcallReturn die tenant reply s
  | .ecallGuse die tenant guest => Sys2Proof.Machine.execEcallGuse die tenant guest s
  | .ecallLog die tenant value => Sys2Proof.Machine.execEcallLog die tenant value s
  | .pluginTimeout die tenant => Sys2Proof.Machine.execPluginTimeout die tenant s
  | .hostInboundRequest q => Sys2Proof.Machine.execHostInboundRequest q s
  | .storageInboundRequest q => Sys2Proof.Machine.execStorageInboundRequest q s
  | .inboundTimeout idx => Sys2Proof.Machine.execInboundTimeout idx s
  | .peerInboundRequest source q => Sys2Proof.Machine.execPeerInboundRequest source q s
  | .completionTimeout p => Sys2Proof.Machine.execCompletionTimeout p s
  | .linkDown port => Sys2Proof.Machine.execLinkDown port s
  | .linkUp port => Sys2Proof.Machine.execLinkUp port s
  | .portEnable port => Sys2Proof.Machine.execPortEnable port s
  | .moduleLost module => Sys2Proof.Machine.execModuleLost module s
  | .rollback => Sys2Proof.Machine.execRollback s
  | .checkpointTimer => Sys2Proof.Machine.execCheckpointTimer s
  | .cut n => Sys2Proof.Machine.execCut n s
  | .ready => Sys2Proof.Machine.execReady s
  | .go => Sys2Proof.Machine.execGo s
  | .commit n => Sys2Proof.Machine.execCommit n s
  | .powerOn => Sys2Proof.Machine.execPowerOn s
  | .hostColdStart => Sys2Proof.Machine.execHostColdStart s
  | .hostWarmStart => Sys2Proof.Machine.execHostWarmStart s
  | .monitorWarmStart => Sys2Proof.Machine.execMonitorWarmStart s
  | .firmwareImageWrite value => Sys2Proof.Machine.execFirmwareImageWrite value s
  | .getVersion => Sys2Proof.Machine.execGetVersion s
  | .getCapabilities => Sys2Proof.Machine.execGetCapabilities s
  | .negotiateAlgorithms asym hash => Sys2Proof.Machine.execNegotiateAlgorithms asym hash s
  | .getDigests => Sys2Proof.Machine.execGetDigests s
  | .getCertificate slot => Sys2Proof.Machine.execGetCertificate slot s
  | .challenge nonce => Sys2Proof.Machine.execChallenge nonce s
  | .getMeasurements index => Sys2Proof.Machine.execGetMeasurements index s
  | .thermalThrottle die => Sys2Proof.Machine.execThermalThrottle die s
  | .thermalShutdown die => Sys2Proof.Machine.execThermalShutdown die s
  | .powerLimitThrottle => Sys2Proof.Machine.execPowerLimitThrottle s
  | .checkpointCopyComplete module => Sys2Proof.Machine.execCheckpointCopyComplete module s
  | .residentCoreAccess hart q => Sys2Proof.Machine.execResidentCoreAccess hart q s
  | .satpWrite hart guest value => Sys2Proof.Machine.execSatpWrite hart guest value s
  | .powerLimitRelease => Sys2Proof.Machine.execPowerLimitRelease s
  | .hypervisorReenable die tenant => Sys2Proof.Machine.execHypervisorReenable die tenant s

end Sys2Proof.Machine
end

