-- ==== Sys2Proof/Machine/Other.lean ====
section
/-!
DEFINITION. What happens besides the events of the opcode table (notes/assumptions/64): the rules that R-numbers of the spec
give for caches, harts, soft errors, the firmware core and other modules, and that have no row of their own.
-/

namespace Sys2Proof.Machine

/-- A corrected soft error is counted, saturating (22_system R424, R431). -/
def State.corrected (s : State) (dn : Nat) : State :=
  let d := s.die dn
  if d.serrcnt = BitVec.allOnes 32 then s else s.setDie dn { d with serrcnt := d.serrcnt + 1 }

/-- One of these events. -/
def State.other (s : State) : Other → State
  | .evict core line => if (s.core (core % 512)).holds line then s.evictCopy (core % 512) line else s
  | .hartPerform hart idx => s.hartPerform (hart % 32) idx
  | .sfence hart => s.sfence (hart % 32)
  | .hartFence hart pred succ => s.hartFence (hart % 32) pred succ
  | .csrWrite hart reg value => s.csrWrite (hart % 32) reg value
  | .hartInterrupt hart => s.takeInterrupt (hart % 32)
  | .hartReturn hart => s.hartReturn (hart % 32)
  | .corrected die => s.corrected (die % 4)
  | .pluginEcall die tenant number => s.otherEcall (die % 4) tenant number
  | .firmwareAccess die addr size event store => s.firmwareAccess (die % 4) addr size event store
  | .protectionEntry die n base size perms => s.protectionEntry (die % 4) n base size perms
  | .pluginWindow die tenant base size => s.pluginWindow (die % 4) tenant base size
  | .moduleReleased m => s.releasedBy (.module m)

end Sys2Proof.Machine
end

