-- ==== Sys2Proof/Machine/Step.lean ====
section
/-!
DEFINITION. One step of the machine: the turn is prepared, and the instruction it comes to is executed. Beside it,
`withFetchWord` stands for what brings a program to run: a record that was launched and placed (05_work R118), or a card
that was dispatched (17_matrix R328), with its code page translated (notes/assumptions/22).
-/

namespace Sys2Proof.Machine

/-- One step. -/
noncomputable def step (s : State) : Host.Outcome State Fault Refusal :=
  match prepare s with
  | .run i t => exec i t
  | .more m t => .next (t.other m)
  | .done t => .next t

/-- Where `withFetchWord` places code: the same virtual and physical address. -/
def codeBase : Nat := 2 ^ 30

/-- The translation of the code page in a unit's cache, under ASID 0. -/
def codeTlb (u : UnitId) : TlbEntry :=
  { unit := u, asid := 0, base := codeBase, size := 2 ^ 20, leaf := 0, pa := codeBase, peer := 0, r := true, w := true
    x := true, dirty := true, kind := .rc, fmt := 0, geo := 0 }

/-- The record of the crew that runs the word: one gang, 64 registers per lane, a service crew. -/
def codeRecord : BitVec 512 := BitVec.ofNat 512 (codeBase + 2 ^ 160 + 64 * 2 ^ 168 + 2 ^ 178)

/-- The crew that runs the word, at its first instruction (03_encoding R60, 06_control R137). -/
def codeCrew : Crew :=
  { record := codeRecord, recptr := 0, asid := 0, guest := 0, core := 0, frame := .pool 0, phase := .running
    gangs := [(0, Gang.start (BitVec.ofNat 64 codeBase))], barriers := [], tiles := [], deadline := none, noticed := false
    overrun := 0, reason := 0, faulted := false, framePage := none, rank := none }

/-- The card whose program runs the word, for the words that only a Vintner executes. -/
def codeCard : Card :=
  { id := 0, vintner := true, addr := 0, block := BitVec.ofNat 512 (codeBase * 2 ^ 192), cluster := 0, cls := 0, guest := 0
    asid := 0, prints := [], edges := [], entry := none, state := .running, ended := none }

/-- The state with an instruction's word where the next step fetches. -/
def State.withFetchWord (s : State) (_nbits w : Nat) : State :=
  let major := w / 2 ^ 26 % 64
  let m : State := { s with mem := Memory.writeNat s.mem codeBase 4 (w % 2 ^ 32), agenda := [] }
  if major = 0x30 ∨ major = 0x31 then
    let c := m.cluster 0
    let t : State := { m with tlb := codeTlb (.vintner 0) :: m.tlb, cur := .vintner 0 }
    t.setCluster 0 { c with
      vcur := some 0
      vctx := SMap.put c.vctx 0 { die := 0, group := 0, card := codeCard, pc := BitVec.ofNat 64 codeBase, prod := 1 } }
  else
    { m with tlb := codeTlb (.core 0) :: m.tlb, crews := SMap.put m.crews 0 codeCrew, cur := .gang 0 0 0 }

end Sys2Proof.Machine
end

