-- ==== Sys2Proof/Safety.lean ====
section
/-!
DEFINITION. What a safe run is: a step never stops the machine, and memory keeps its canonical form.
-/

namespace Sys2Proof

/-- A step that answers a state. -/
def Safe (o : Host.Outcome Machine.State Machine.Fault Machine.Refusal) : Prop := ∃ t, o = .next t

/-- Memory, now and in every freeze image, is in canonical form. -/
def MemoryInv (s : Machine.State) : Prop :=
  Machine.Memory.wf s.mem = true ∧ ∀ p ∈ s.images, Machine.Memory.wf p.2.mem = true

end Sys2Proof
end

