-- ==== Sys2Proof/Certificates/Slice0/Obligations.lean ====
section
/-!
DEFINITION. The statements for the provers. `Sys2Proof.Claims` holds the words they are written in: what a part of a gang,
or a Vintner's context, must meet for an instruction to run; what the instruction then leaves; and, for each shape of
instruction, a list of the instructions of that shape with the value that the spec gives each.
-/

namespace Sys2Proof.Claims

open Machine

/-! ### Parts -/

/-- x is the part that issues. -/
def Issuing (s : State) (x : Ctx) : Prop := ∃ c g k, s.cur = .gang c g k ∧ s.ctxOf c g k = some x

/-- The part waits for no record of a coprocessor (R389) and for the data of no load (R113). -/
def NoRecords (x : Ctx) : Prop := (∀ r ∈ x.g.records, r.slices &&& x.mask = 0) ∧ ∀ f ∈ x.g.loads, f.slices &&& x.mask = 0

/-- The part runs past no fence (R268). -/
def NoFence (x : Ctx) : Prop := x.g.fences = []

/-- The named `v` registers, with the number of registers from each, lie in the crew's registers per lane (R58). -/
def Holds (x : Ctx) (rs : List (BitVec 6 × Nat)) : Prop := ∀ r ∈ rs, r.1.toNat + r.2 ≤ recRegs x.c.record

/-- The `v` registers of a source b: none when k says that b is an `s` register. -/
def bRegs (k : BitVec 1) (b : BitVec 6) (n : Nat) : List (BitVec 6 × Nat) := if k = 0 then [(b, n)] else []

/-- Source b of a lane: its `v` register, or its slice's `s` register (R147). -/
def srcOf (r : Regs) (k : BitVec 1) (b : BitVec 6) (i : Nat) : W32 :=
  if k = 0 then r.getV b.toNat i else r.getS (i / 4) b.toNat

/-- Source b as a pair. -/
def srcOf2 (r : Regs) (k : BitVec 1) (b : BitVec 6) (i : Nat) : W64 :=
  if k = 0 then r.getV2 b.toNat i else r.getS2 (i / 4) b.toNat

/-- Every register but the `v` registers lo to lo + n − 1 is as it was. -/
def OnlyV (r0 r : Regs) (lo n : Nat) : Prop :=
  (∀ q i, i < 32 → ¬(lo ≤ q ∧ q < lo + n) → r.getV q i = r0.getV q i)
    ∧ r.s = r0.s ∧ r.p = r0.p ∧ r.lk = r0.lk ∧ r.mq = r0.mq ∧ r.mkr = r0.mkr ∧ r.af = r0.af ∧ r.te = r0.te

/-- Every register but predicate d is as it was. -/
def OnlyP (r0 r : Regs) (d : Nat) : Prop :=
  (∀ q i, q < 8 → i < 32 → q ≠ d → r.getP q i = r0.getP q i)
    ∧ r.v = r0.v ∧ r.s = r0.s ∧ r.lk = r0.lk ∧ r.mq = r0.mq ∧ r.mkr = r0.mkr ∧ r.af = r0.af ∧ r.te = r0.te

/-- Every register but `s` registers lo to lo + n − 1 is as it was. -/
def OnlyS (r0 r : Regs) (lo n : Nat) : Prop :=
  (∀ q k, q < 64 → ¬(lo ≤ q ∧ q < lo + n) → r.getS k q = r0.getS k q)
    ∧ r.v = r0.v ∧ r.p = r0.p ∧ r.lk = r0.lk ∧ r.mq = r0.mq ∧ r.mkr = r0.mkr ∧ r.af = r0.af ∧ r.te = r0.te

/-- The outcome is a next state in which the part has gone to the next word with registers r, and all else, every byte of
memory included, is as it was. -/
def Steps (s : State) (x : Ctx) (o : Out) (r : Regs) : Prop :=
  ∃ t, o = .next t ∧ t = s.setGang x.crew x.gang (({ x.g with regs := r } : Gang).retire x)
    ∧ ∀ a, Memory.read t.mem a = Memory.read s.mem a

/-- As `Steps`, and flags have been ORed into `af`. -/
def StepsFlags (s : State) (x : Ctx) (o : Out) (r : Regs) (flags : W32) : Prop :=
  ∃ t, o = .next t ∧ t = s.setGang x.crew x.gang ((({ x.g with regs := r } : Gang).raise x.mask flags).retire x)
    ∧ ∀ a, Memory.read t.mem a = Memory.read s.mem a

/-- d of every active lane has the value, and d of the others is as it was. -/
def LanesV (x : Ctx) (r : Regs) (g : BitVec 3) (d : BitVec 6) (val : Nat → W32) : Prop :=
  OnlyV x.g.regs r d.toNat 1
    ∧ ∀ i, i < 32 → r.getV d.toNat i = if x.on g.toNat i then val i else x.g.regs.getV d.toNat i

/-- The pair d of every active lane has the value, and that of the others is as it was. -/
def LanesV2 (x : Ctx) (r : Regs) (g : BitVec 3) (d : BitVec 6) (val : Nat → W64) : Prop :=
  OnlyV x.g.regs r d.toNat 2
    ∧ ∀ i, i < 32 → r.getV2 d.toNat i = if x.on g.toNat i then val i else x.g.regs.getV2 d.toNat i

/-- Predicate d of every active lane has the value; a write to `p7` is discarded (R4). -/
def LanesP (x : Ctx) (r : Regs) (g : BitVec 3) (d : BitVec 3) (val : Nat → Bool) : Prop :=
  OnlyP x.g.regs r d.toNat
    ∧ ∀ i, i < 32 → r.getP d.toNat i = if d.toNat ≠ 7 ∧ x.on g.toNat i then val i else x.g.regs.getP d.toNat i

/-! ### Vintners -/

/-- x is the context that issues. -/
def VIssuing (s : State) (x : VRun) : Prop := ∃ cl, s.cur = .vintner cl ∧ s.vRun? cl = some x

/-- The context has gone to the next word as k, and all else is as it was. -/
def VSteps (s : State) (x : VRun) (o : Out) (k : VCtx) : Prop :=
  ∃ t, o = .next t ∧ t = s.setV x { k with pc := x.pc + 4, hints := [] } ∧ ∀ a, Memory.read t.mem a = Memory.read s.mem a

/-! ### Integer tables (07_integer R160 to R167) -/

/-- d := f(A, B, D) on 32 bits. -/
def alu32 : List ((OpA → Instr) × (W32 → W32 → W32 → W32)) :=
  [(.add, fun a b _ => a + b),
   (.sub, fun a b _ => a - b),
   (.mul, fun a b _ => a * b),
   (.mulhiS32, fun a b _ => BitVec.ofInt 32 (a.toInt * b.toInt / 2 ^ 32)),
   (.mulhiN32, fun a b _ => BitVec.ofNat 32 (a.toNat * b.toNat / 2 ^ 32)),
   (.mad, fun a b d => a * b + d),
   (.divS32, fun a b _ => if b = 0 then 0xFFFFFFFF else BitVec.ofInt 32 (a.toInt.tdiv b.toInt)),
   (.divN32, fun a b _ => if b = 0 then 0xFFFFFFFF else BitVec.ofNat 32 (a.toNat / b.toNat)),
   (.remS32, fun a b _ => if b = 0 then a else BitVec.ofInt 32 (a.toInt - b.toInt * a.toInt.tdiv b.toInt)),
   (.remN32, fun a b _ => if b = 0 then a else BitVec.ofNat 32 (a.toNat % b.toNat)),
   (.minS32, fun a b _ => BitVec.ofInt 32 (min a.toInt b.toInt)),
   (.maxS32, fun a b _ => BitVec.ofInt 32 (max a.toInt b.toInt)),
   (.minN32, fun a b _ => BitVec.ofNat 32 (min a.toNat b.toNat)),
   (.maxN32, fun a b _ => BitVec.ofNat 32 (max a.toNat b.toNat)),
   (.and_, fun a b _ => a &&& b),
   (.or_, fun a b _ => a ||| b),
   (.xor_, fun a b _ => a ^^^ b),
   (.andn, fun a b _ => a &&& ~~~ b),
   (.shl, fun a b _ => BitVec.ofNat 32 (a.toNat * 2 ^ b.toNat)),
   (.shrN32, fun a b _ => BitVec.ofNat 32 (a.toNat / 2 ^ b.toNat)),
   (.shrS32, fun a b _ => BitVec.ofInt 32 (a.toInt / 2 ^ b.toNat)),
   (.rotl, fun a b _ => a.rotateLeft (b.toNat % 32)),
   (.bext, fun a b _ =>
      let pos := b.toNat % 32
      let mask := BitVec.ofNat 32 ((2 ^ min (b.toNat / 256 % 64) 32 - 1) * 2 ^ pos)
      BitVec.ofNat 32 ((a &&& mask).toNat / 2 ^ pos)),
   (.bins, fun a b d =>
      let pos := b.toNat % 32
      let mask := BitVec.ofNat 32 ((2 ^ min (b.toNat / 256 % 64) 32 - 1) * 2 ^ pos)
      (d &&& ~~~ mask) ||| (BitVec.ofNat 32 (a.toNat * 2 ^ pos) &&& mask))]

/-- d := f(B) on 32 bits. -/
def unary32 : List ((OpU → Instr) × (W32 → W32)) :=
  [(.absS32, fun b => BitVec.ofNat 32 b.toInt.natAbs),
   (.popc, fun b => BitVec.ofNat 32 ((List.range 32).countP (fun i => b.getLsbD i))),
   (.clz, fun b => BitVec.ofNat 32 ((List.range 32).takeWhile (fun i => !b.getLsbD (31 - i))).length),
   (.ctz, fun b => BitVec.ofNat 32 ((List.range 32).takeWhile (fun i => !b.getLsbD i)).length),
   (.brev, fun b => b.reverse),
   (.mov, fun b => b)]

/-- d := f(A, B, D) on pairs. -/
def alu64 : List ((OpA → Instr) × (W64 → W64 → W64 → W64)) :=
  [(.addS64, fun a b _ => a + b),
   (.subS64, fun a b _ => a - b),
   (.mulS64, fun a b _ => a * b),
   (.mulhiS64, fun a b _ => BitVec.ofInt 64 (a.toInt * b.toInt / 2 ^ 64)),
   (.mulhiN64, fun a b _ => BitVec.ofNat 64 (a.toNat * b.toNat / 2 ^ 64)),
   (.madS64, fun a b d => a * b + d),
   (.minS64, fun a b _ => BitVec.ofInt 64 (min a.toInt b.toInt)),
   (.maxS64, fun a b _ => BitVec.ofInt 64 (max a.toInt b.toInt)),
   (.minN64, fun a b _ => BitVec.ofNat 64 (min a.toNat b.toNat)),
   (.maxN64, fun a b _ => BitVec.ofNat 64 (max a.toNat b.toNat))]

/-- d := f(hints, A, B) on a pair and a 32-bit register; the scale code of a kind-3 hint, or 0, is that of `lea`. -/
def shift64 : List ((OpA → Instr) × (List W32 → W64 → W32 → W64)) :=
  [(.shl64, fun _ a b => BitVec.ofNat 64 (a.toNat * 2 ^ b.toNat)),
   (.shrN64, fun _ a b => BitVec.ofNat 64 (a.toNat / 2 ^ b.toNat)),
   (.shrS64, fun _ a b => BitVec.ofInt 64 (a.toInt / 2 ^ b.toNat)),
   (.lea, fun hs a b => BitVec.ofNat 64 (a.toNat + b.toNat * 2 ^ ((hintOf hs 3).getD 0 % 8)))]

/-- p := f(A, B) on 32 bits. -/
def cmp32 : List ((OpCmp → Instr) × (W32 → W32 → Bool)) :=
  [(.eq, fun a b => decide (a = b)),
   (.ne, fun a b => decide (a ≠ b)),
   (.ltS32, fun a b => decide (a.toInt < b.toInt)),
   (.leS32, fun a b => decide (a.toInt ≤ b.toInt)),
   (.ltN32, fun a b => decide (a.toNat < b.toNat)),
   (.leN32, fun a b => decide (a.toNat ≤ b.toNat)),
   (.gtS32, fun a b => decide (a.toInt > b.toInt)),
   (.geS32, fun a b => decide (a.toInt ≥ b.toInt)),
   (.gtN32, fun a b => decide (a.toNat > b.toNat)),
   (.geN32, fun a b => decide (a.toNat ≥ b.toNat))]

/-- p := f(A, B) on pairs. -/
def cmp64 : List ((OpCmp → Instr) × (W64 → W64 → Bool)) :=
  [(.ltS64, fun a b => decide (a.toInt < b.toInt)),
   (.ltN64, fun a b => decide (a.toNat < b.toNat)),
   (.eq64, fun a b => decide (a = b))]

/-- p := f(pA, pB). -/
def preds : List ((OpPred → Instr) × (Bool → Bool → Bool)) :=
  [(.pand, fun a b => a && b), (.por, fun a b => a || b), (.pxor, fun a b => a ^^ b), (.pandn, fun a b => a && !b)]

/-! ### Floating-point tables (08_floating_point R177 to R184) -/

/-- d := f(A, B, D) on 32 bits, with flags. -/
def fp32 : List ((OpA → Instr) × (Rnd → Nat → Nat → Nat → Nat × Nat)) :=
  [(.addF32, fun r a b _ => fpAdd .f32 r a b),
   (.subF32, fun r a b _ => fpSub .f32 r a b),
   (.mulF32, fun r a b _ => fpMul .f32 r a b),
   (.fmaF32, fun r a b d => fpFma .f32 r false a b d),
   (.fnmaF32, fun r a b d => fpFma .f32 r true a b d),
   (.minF32, fun r a b _ => fpMinMax .f32 r false a b),
   (.maxF32, fun r a b _ => fpMinMax .f32 r true a b),
   (.copysignF32, fun _ a b _ => fpSign .f32 a (FpFmt.signOf .f32 b)),
   (.addH16, fun r a b _ => fpAdd .h16 r (a % 2 ^ 16) (b % 2 ^ 16)),
   (.mulH16, fun r a b _ => fpMul .h16 r (a % 2 ^ 16) (b % 2 ^ 16)),
   (.fmaH16, fun r a b d => fpFma .h16 r false (a % 2 ^ 16) (b % 2 ^ 16) (d % 2 ^ 16)),
   (.minH16, fun r a b _ => fpMinMax .h16 r false (a % 2 ^ 16) (b % 2 ^ 16)),
   (.maxH16, fun r a b _ => fpMinMax .h16 r true (a % 2 ^ 16) (b % 2 ^ 16)),
   (.addBf16, fun r a b _ => fpAdd .bf16 r (a % 2 ^ 16) (b % 2 ^ 16)),
   (.mulBf16, fun r a b _ => fpMul .bf16 r (a % 2 ^ 16) (b % 2 ^ 16)),
   (.fmaBf16, fun r a b d => fpFma .bf16 r false (a % 2 ^ 16) (b % 2 ^ 16) (d % 2 ^ 16)),
   (.minBf16, fun r a b _ => fpMinMax .bf16 r false (a % 2 ^ 16) (b % 2 ^ 16)),
   (.maxBf16, fun r a b _ => fpMinMax .bf16 r true (a % 2 ^ 16) (b % 2 ^ 16))]

/-- An operation on both halves of a register, each on its own, with the flags of both (R183). -/
def halves (f : Nat → Nat → Nat → Nat × Nat) (a b d : Nat) : Nat × Nat :=
  ((f (a % 2 ^ 16) (b % 2 ^ 16) (d % 2 ^ 16)).1
      + 2 ^ 16 * (f (a / 2 ^ 16 % 2 ^ 16) (b / 2 ^ 16 % 2 ^ 16) (d / 2 ^ 16 % 2 ^ 16)).1,
    (f (a % 2 ^ 16) (b % 2 ^ 16) (d % 2 ^ 16)).2 ||| (f (a / 2 ^ 16 % 2 ^ 16) (b / 2 ^ 16 % 2 ^ 16) (d / 2 ^ 16 % 2 ^ 16)).2)

/-- The packed forms. -/
def fpPacked : List ((OpA → Instr) × (Rnd → Nat → Nat → Nat → Nat × Nat)) :=
  [(.addH16x2, fun r a b _ => fpAdd .h16 r a b),
   (.mulH16x2, fun r a b _ => fpMul .h16 r a b),
   (.fmaH16x2, fun r a b d => fpFma .h16 r false a b d),
   (.minH16x2, fun r a b _ => fpMinMax .h16 r false a b),
   (.maxH16x2, fun r a b _ => fpMinMax .h16 r true a b),
   (.addBf16x2, fun r a b _ => fpAdd .bf16 r a b),
   (.mulBf16x2, fun r a b _ => fpMul .bf16 r a b),
   (.fmaBf16x2, fun r a b d => fpFma .bf16 r false a b d),
   (.minBf16x2, fun r a b _ => fpMinMax .bf16 r false a b),
   (.maxBf16x2, fun r a b _ => fpMinMax .bf16 r true a b)]

/-- d := f(B) on 32 bits, with flags. -/
def fpUnary32 : List ((OpU → Instr) × (Rnd → Nat → Nat × Nat)) :=
  [(.absF32, fun _ b => fpSign .f32 b false),
   (.negF32, fun _ b => fpSign .f32 b (!FpFmt.signOf .f32 b)),
   (.rcpF32, fun r b => fpRcp .f32 r b),
   (.rsqrtF32, fun r b => fpRsqrt .f32 r b),
   (.sqrtF32, fun r b => fpSqrt .f32 r b),
   (.exp2F32, fun r b => fpExp2 .f32 r b),
   (.log2F32, fun r b => fpLog2 .f32 r b)]

/-- d := f(A, B, D) on pairs, with flags. -/
def fp64 : List ((OpA → Instr) × (Rnd → Nat → Nat → Nat → Nat × Nat)) :=
  [(.addF64, fun r a b _ => fpAdd .f64 r a b),
   (.subF64, fun r a b _ => fpSub .f64 r a b),
   (.mulF64, fun r a b _ => fpMul .f64 r a b),
   (.fmaF64, fun r a b d => fpFma .f64 r false a b d),
   (.fnmaF64, fun r a b d => fpFma .f64 r true a b d),
   (.minF64, fun r a b _ => fpMinMax .f64 r false a b),
   (.maxF64, fun r a b _ => fpMinMax .f64 r true a b),
   (.copysignF64, fun _ a b _ => fpSign .f64 a (FpFmt.signOf .f64 b))]

/-- d := f(B) on pairs, with flags. -/
def fpUnary64 : List ((OpU → Instr) × (Rnd → Nat → Nat × Nat)) :=
  [(.absF64, fun _ b => fpSign .f64 b false),
   (.negF64, fun _ b => fpSign .f64 b (!FpFmt.signOf .f64 b)),
   (.rcpF64, fun r b => fpRcp .f64 r b),
   (.rsqrtF64, fun r b => fpRsqrt .f64 r b),
   (.sqrtF64, fun r b => fpSqrt .f64 r b)]

/-- The compares: the number of the relation of R184 (0 equal, 1 less, 2 less or equal, 3 unordered), and whether the
operands are pairs. -/
def fpCmps : List ((OpCmp → Instr) × Nat × Bool) :=
  [(.feqF32, 0, false),
   (.fltF32, 1, false),
   (.fleF32, 2, false),
   (.funordF32, 3, false),
   (.feqF64, 0, true),
   (.fltF64, 1, true),
   (.fleF64, 2, true),
   (.funordF64, 3, true)]

/-- The OR of the flags of the active lanes. -/
def flagsOf (x : Ctx) (g : BitVec 3) (one : Nat → Nat × Nat) : W32 := BitVec.ofNat 32 (orFlags ((x.lanes g.toNat).map (fun i => (one i).2)))

/-! ### Modular tables (15_modular R309 to R311) -/

/-- d := f(A, B, D) mod q. -/
def mod3 : List ((BitVec 3 → BitVec 1 → BitVec 2 → BitVec 6 → BitVec 6 → BitVec 6 → Instr) × (Int → Int → Int → Int)) :=
  [(.mmul, fun x y _ => x * y), (.madd, fun x y _ => x + y), (.msub, fun x y _ => x - y), (.mmac, fun x y z => x * y + z)]

/-- d := f(A) mod q, A a quad for `mred128`. -/
def mod1 : List ((BitVec 3 → BitVec 2 → BitVec 6 → BitVec 6 → Instr) × Bool × (Int → Int)) :=
  [(.mred, false, fun x => x), (.mred128, true, fun x => x), (.mneg, false, fun x => -x)]

/-- The value of d of a lane modulo its modulus, as a number of [0, q). -/
def modVal (x : Ctx) (n : BitVec 2) (i : Nat) (v : Int) : W64 := BitVec.ofInt 64 (v % ((x.g.regs.getMq n.toNat i).toNat : Int))

end Sys2Proof.Claims

open Sys2Proof Sys2Proof.Machine Sys2Proof.Claims

/-! ## Integer, address and predicate class -/

/-- R156, R160, R164, R165: every active lane writes the value of the tables to d, reading A, B and D before any lane
writes; every other register, all flags and all memory stay. -/
def Sys2Proof.Claims.IntBinary : Prop :=
  ∀ p ∈ alu32, ∀ o s x, Issuing s x → NoRecords x → Holds x ([(o.d, 1), (o.a, 1)] ++ bRegs o.k o.b 1) →
    ∃ r, Steps s x (exec (p.1 o) s) r ∧ LanesV x r o.g o.d
      (fun l => p.2 (x.g.regs.getV o.a.toNat l) (srcOf x.g.regs o.k o.b l) (x.g.regs.getV o.d.toNat l))

/-- R156, R160, R164: the unary forms. -/
def Sys2Proof.Claims.IntUnary : Prop :=
  ∀ p ∈ unary32, ∀ o s x, Issuing s x → NoRecords x → Holds x ([(o.d, 1)] ++ bRegs o.k o.b 1) →
    ∃ r, Steps s x (exec (p.1 o) s) r ∧ LanesV x r o.g o.d (fun l => p.2 (srcOf x.g.regs o.k o.b l))

/-- R163: pairs, and the forms of one pair and one 32-bit register. -/
def Sys2Proof.Claims.IntPairs : Prop :=
  (∀ p ∈ alu64, ∀ o s x, Issuing s x → NoRecords x → Holds x ([(o.d, 2), (o.a, 2)] ++ bRegs o.k o.b 2) →
    ∃ r, Steps s x (exec (p.1 o) s) r ∧ LanesV2 x r o.g o.d
      (fun l => p.2 (x.g.regs.getV2 o.a.toNat l) (srcOf2 x.g.regs o.k o.b l) (x.g.regs.getV2 o.d.toNat l)))
  ∧ (∀ p ∈ shift64, ∀ o s x, Issuing s x → NoRecords x → Holds x ([(o.d, 2), (o.a, 2)] ++ bRegs o.k o.b 1) →
    ∃ r, Steps s x (exec (p.1 o) s) r ∧ LanesV2 x r o.g o.d
      (fun l => p.2 x.hints (x.g.regs.getV2 o.a.toNat l) (srcOf x.g.regs o.k o.b l)))

/-- R166: one predicate per active lane; a write to `p7` is discarded. -/
def Sys2Proof.Claims.IntCompares : Prop :=
  (∀ p ∈ cmp32, ∀ o s x, Issuing s x → NoRecords x → Holds x ([(o.a, 1)] ++ bRegs o.k o.b 1) →
    ∃ r, Steps s x (exec (p.1 o) s) r ∧ LanesP x r o.g o.p (fun l => p.2 (x.g.regs.getV o.a.toNat l) (srcOf x.g.regs o.k o.b l)))
  ∧ (∀ p ∈ cmp64, ∀ o s x, Issuing s x → NoRecords x → Holds x ([(o.a, 2)] ++ bRegs o.k o.b 2) →
    ∃ r, Steps s x (exec (p.1 o) s) r ∧ LanesP x r o.g o.p (fun l => p.2 (x.g.regs.getV2 o.a.toNat l) (srcOf2 x.g.regs o.k o.b l)))

/-- R167, R155: predicate logic and `pread`; on a SIMT core a form with k = 1 raises the illegal-encoding fault. -/
def Sys2Proof.Claims.PredicateLogic : Prop :=
  (∀ p ∈ preds, ∀ o s x, Issuing s x → NoRecords x →
    (o.k = 0 → ∃ r, Steps s x (exec (p.1 o) s) r
      ∧ LanesP x r o.g o.p (fun l => p.2 (x.g.regs.getP o.a.toNat l) (x.g.regs.getP o.b.toNat l)))
    ∧ (o.k = 1 → exec (p.1 o) s = .next (s.takeTrap x { kind := .illegalEncoding })))
  ∧ (∀ g k d b s x, Issuing s x → NoRecords x →
    (k = 0 → ∃ r, Steps s x (exec (.pmov g k d b) s) r ∧ LanesP x r g d (fun l => x.g.regs.getP b.toNat l))
    ∧ (k = 1 → exec (.pmov g k d b) s = .next (s.takeTrap x { kind := .illegalEncoding })))
  ∧ (∀ g k d b s x, Issuing s x → NoRecords x →
    (k = 0 → Holds x [(d, 1)] → ∃ r, Steps s x (exec (.pread g k d b) s) r ∧ LanesV x r g d (fun l => if x.g.regs.getP b.toNat l then 1 else 0))
    ∧ (k = 1 → exec (.pread g k d b) s = .next (s.takeTrap x { kind := .illegalEncoding })))

/-- The immediate of R168 and R169: sext(field), or sext(payload : field) under a kind-0 hint. -/
def Sys2Proof.Claims.immOf {w : Nat} (hs : List W32) (field : BitVec w) : Int :=
  match hintOf hs 0 with
  | some p => (BitVec.ofNat 22 p ++ field).toInt
  | none => field.toInt

/-- An `s` destination of a part: every slice of the part takes one value, when some lane is active (R147). -/
def Sys2Proof.Claims.SlicesS (x : Ctx) (r : Regs) (g : BitVec 3) (d : BitVec 6) (val : Nat → W32) : Prop :=
  OnlyS x.g.regs r d.toNat 1 ∧ ∀ k, k < 8 → r.getS k d.toNat =
    match x.lanes g.toNat with
    | [] => x.g.regs.getS k d.toNat
    | l :: _ => if k ∈ x.part then val (l / 4) else x.g.regs.getS k d.toNat

/-- R168: `addi` of a part writes the low 32 bits of A + i to d of each active lane, i the field's signed value or, under a
kind-0 hint, that of payload : field; it does so in format I under major 0x0D, as the rule's two words show; and every value that
emgas accepts, from −2^32 to 2^32 − 1, is the immediate of some word under a hint. -/
def Obligations.AddImmediate : Prop :=
  (∀ g d a imm s x, Issuing s x → NoRecords x → Holds x [(d, 1), (a, 1)] →
    ∃ r, Steps s x (exec (.addi g d a imm) s) r
      ∧ LanesV x r g d (fun l => BitVec.ofInt 32 ((x.g.regs.getV a.toNat l).toNat + immOf x.hints imm)))
  ∧ (∀ g d a imm, encode (.addi g d a imm) = some (0x0D#6 ++ g ++ d ++ a ++ imm) ∧ decode (0x0D#6 ++ g ++ d ++ a ++ imm) = .ok (.addi g d a imm))
  ∧ decode 0x37841001 = .ok (.addi 7 2 2 1) ∧ decode 0x378827FA = .ok (.addi 7 4 4 (BitVec.ofInt 11 (-6)))
  ∧ (∀ i : Int, -2 ^ 32 ≤ i → i < 2 ^ 32 → ∃ (y : BitVec 22) (imm : BitVec 11), immOf [0x3E#6 ++ 0#4 ++ y] imm = i)

/-- R169: `movi` and `movhi` to a `v` and to an `s` register. -/
def Sys2Proof.Claims.Immediates : Prop :=
  (∀ g d imm s x, Issuing s x → NoRecords x → Holds x [(d, 1)] →
    ∃ r, Steps s x (exec (.movi g d 0 imm) s) r ∧ LanesV x r g d (fun _ => BitVec.ofInt 32 (immOf x.hints imm)))
  ∧ (∀ g d imm s x, Issuing s x → NoRecords x →
    ∃ r, Steps s x (exec (.movi g d 1 imm) s) r ∧ SlicesS x r g d (fun _ => BitVec.ofInt 32 (immOf x.hints imm)))
  ∧ (∀ g d imm s x, Issuing s x → NoRecords x → Holds x [(d, 1)] →
    ∃ r, Steps s x (exec (.movhi g d 0 imm) s) r
      ∧ LanesV x r g d (fun l => imm ++ (x.g.regs.getV d.toNat l).extractLsb' 0 16))
  ∧ (∀ g d imm s x, Issuing s x → NoRecords x →
    ∃ r, Steps s x (exec (.movhi g d 1 imm) s) r
      ∧ SlicesS x r g d (fun k => imm ++ (x.g.regs.getS k d.toNat).extractLsb' 0 16))

/-- The saturate bit of a kind-2 hint. -/
def Sys2Proof.Claims.satHint (hs : List W32) : Prop := ∃ p, hintOf hs 2 = some p ∧ p.testBit 2 = true

/-- The sum of R161 leaves the 32-bit range. -/
def Sys2Proof.Claims.overflows (a b : W32) : Prop := a.toInt + b.toInt < -2 ^ 31 ∨ 2 ^ 31 - 1 < a.toInt + b.toInt

/-- R161: `adds.s32` saturates under the hint, and sets the overflow flag once when any active lane overflows. -/
def Sys2Proof.Claims.AddsS32 : Prop :=
  ∀ (o : OpA) s x, Issuing s x → NoRecords x → Holds x ([(o.d, 1), (o.a, 1)] ++ bRegs o.k o.b 1) →
    ∃ r flags, StepsFlags s x (exec (.addsS32 o) s) r flags
      ∧ OnlyV x.g.regs r o.d.toNat 1
      ∧ (∀ l, l < 32 → x.on o.g.toNat l = false → r.getV o.d.toNat l = x.g.regs.getV o.d.toNat l)
      ∧ (∀ l, l < 32 → x.on o.g.toNat l = true →
          let a := x.g.regs.getV o.a.toNat l
          let b := srcOf x.g.regs o.k o.b l
          (¬ overflows a b → (r.getV o.d.toNat l).toInt = a.toInt + b.toInt)
          ∧ (overflows a b → ¬ satHint x.hints → r.getV o.d.toNat l = a + b)
          ∧ (overflows a b → satHint x.hints →
              r.getV o.d.toNat l = if a.toInt + b.toInt < 0 then BitVec.ofInt 32 (-2 ^ 31) else BitVec.ofInt 32 (2 ^ 31 - 1)))
      ∧ (flags = flagOF ↔ ∃ l, l < 32 ∧ x.on o.g.toNat l = true
          ∧ overflows (x.g.regs.getV o.a.toNat l) (srcOf x.g.regs o.k o.b l))
      ∧ (flags = flagOF ∨ flags = 0)

/-- R64, R155, R59: a Vintner's context runs the integer class over its `s` registers, and a false guard leaves every
effect undone. -/
def Sys2Proof.Claims.VintnerInteger : Prop :=
  (∀ p ∈ alu32, ∀ o s x, VIssuing s x → o.k = 1 →
    VSteps s x (exec (p.1 o) s) (if x.k.getP o.g.toNat then
      x.k.setS o.d.toNat (p.2 (x.k.getS o.a.toNat) (x.k.getS o.b.toNat) (x.k.getS o.d.toNat)) else x.k))
  ∧ (∀ p ∈ unary32, ∀ o s x, VIssuing s x → o.k = 1 →
    VSteps s x (exec (p.1 o) s) (if x.k.getP o.g.toNat then x.k.setS o.d.toNat (p.2 (x.k.getS o.b.toNat)) else x.k))
  ∧ (∀ p ∈ alu64, ∀ o s x, VIssuing s x → o.k = 1 →
    VSteps s x (exec (p.1 o) s) (if x.k.getP o.g.toNat then
      x.k.setS2 o.d.toNat (p.2 (x.k.getS2 o.a.toNat) (x.k.getS2 o.b.toNat) (x.k.getS2 o.d.toNat)) else x.k))
  ∧ (∀ p ∈ shift64, ∀ o s x, VIssuing s x → o.k = 1 →
    VSteps s x (exec (p.1 o) s) (if x.k.getP o.g.toNat then
      x.k.setS2 o.d.toNat (p.2 x.k.hints (x.k.getS2 o.a.toNat) (x.k.getS o.b.toNat)) else x.k))
  ∧ (∀ p ∈ cmp32, ∀ o s x, VIssuing s x → o.k = 1 →
    VSteps s x (exec (p.1 o) s) (if x.k.getP o.g.toNat then x.k.setP o.p.toNat (p.2 (x.k.getS o.a.toNat) (x.k.getS o.b.toNat)) else x.k))
  ∧ (∀ p ∈ cmp64, ∀ o s x, VIssuing s x → o.k = 1 →
    VSteps s x (exec (p.1 o) s) (if x.k.getP o.g.toNat then x.k.setP o.p.toNat (p.2 (x.k.getS2 o.a.toNat) (x.k.getS2 o.b.toNat)) else x.k))
  ∧ (∀ p ∈ alu32, ∀ o s x, VIssuing s x → o.k = 0 → exec (p.1 o) s = .next (s.vFault x .illegalEncoding))

/-! ## Floating-point class -/

/-- R171, R177 to R183: each active lane writes the code of its result, and the flags of all active lanes are ORed into `af`
once; nothing else changes.
Rests in part on the model's choices of notes/assumptions/20. -/
def Obligations.FpArithmetic : Prop :=
  (∀ p ∈ fp32, ∀ o s x, Issuing s x → NoRecords x → Holds x ([(o.d, 1), (o.a, 1)] ++ bRegs o.k o.b 1) →
    let one := fun l => p.2 x.rnd (x.g.regs.getV o.a.toNat l).toNat (srcOf x.g.regs o.k o.b l).toNat (x.g.regs.getV o.d.toNat l).toNat
    ∃ r, StepsFlags s x (exec (p.1 o) s) r (flagsOf x o.g one) ∧ LanesV x r o.g o.d (fun l => BitVec.ofNat 32 (one l).1))
  ∧ (∀ p ∈ fpPacked, ∀ o s x, Issuing s x → NoRecords x → Holds x ([(o.d, 1), (o.a, 1)] ++ bRegs o.k o.b 1) →
    let one := fun l => halves (p.2 x.rnd) (x.g.regs.getV o.a.toNat l).toNat (srcOf x.g.regs o.k o.b l).toNat
      (x.g.regs.getV o.d.toNat l).toNat
    ∃ r, StepsFlags s x (exec (p.1 o) s) r (flagsOf x o.g one) ∧ LanesV x r o.g o.d (fun l => BitVec.ofNat 32 (one l).1))
  ∧ (∀ p ∈ fpUnary32, ∀ o s x, Issuing s x → NoRecords x → Holds x ([(o.d, 1)] ++ bRegs o.k o.b 1) →
    let one := fun l => p.2 x.rnd (srcOf x.g.regs o.k o.b l).toNat
    ∃ r, StepsFlags s x (exec (p.1 o) s) r (flagsOf x o.g one) ∧ LanesV x r o.g o.d (fun l => BitVec.ofNat 32 (one l).1))
  ∧ (∀ p ∈ fp64, ∀ o s x, Issuing s x → NoRecords x → Holds x ([(o.d, 2), (o.a, 2)] ++ bRegs o.k o.b 2) →
    let one := fun l => p.2 x.rnd (x.g.regs.getV2 o.a.toNat l).toNat (srcOf2 x.g.regs o.k o.b l).toNat (x.g.regs.getV2 o.d.toNat l).toNat
    ∃ r, StepsFlags s x (exec (p.1 o) s) r (flagsOf x o.g one) ∧ LanesV2 x r o.g o.d (fun l => BitVec.ofNat 64 (one l).1))
  ∧ (∀ p ∈ fpUnary64, ∀ o s x, Issuing s x → NoRecords x → Holds x ([(o.d, 2)] ++ bRegs o.k o.b 2) →
    let one := fun l => p.2 x.rnd (srcOf2 x.g.regs o.k o.b l).toNat
    ∃ r, StepsFlags s x (exec (p.1 o) s) r (flagsOf x o.g one) ∧ LanesV2 x r o.g o.d (fun l => BitVec.ofNat 64 (one l).1))

/-- R184: the compares of R184 write one predicate per active lane, and their flags go to `af`. -/
def Sys2Proof.Claims.FpCompares : Prop :=
  ∀ p ∈ fpCmps, ∀ o s x, Issuing s x → NoRecords x →
    Holds x ([(o.a, if p.2.2 then 2 else 1)] ++ bRegs o.k o.b (if p.2.2 then 2 else 1)) →
    let one := fun l =>
      if p.2.2 then fpCompare .f64 x.rnd p.2.1 (x.g.regs.getV2 o.a.toNat l).toNat (srcOf2 x.g.regs o.k o.b l).toNat
      else fpCompare .f32 x.rnd p.2.1 (x.g.regs.getV o.a.toNat l).toNat (srcOf x.g.regs o.k o.b l).toNat
    ∃ r, StepsFlags s x (exec (p.1 o) s) r (BitVec.ofNat 32 (orFlags ((x.lanes o.g.toNat).map (fun l => (one l).2))))
      ∧ LanesP x r o.g o.p (fun l => (one l).1)

/-- R77, R184: a NaN operand makes every relation but unordered false, and sets invalid for less and less-or-equal. -/
def Sys2Proof.Claims.FpCompareNaN : Prop :=
  ∀ (f : FpFmt) (r : Rnd) (a b : Nat), ((f.value (f.input r a)).isNan = true ∨ (f.value (f.input r b)).isNan = true) →
    (fpCompare f r 0 a b).1 = false ∧ fpCompare f r 1 a b = (false, 1) ∧ fpCompare f r 2 a b = (false, 1)
      ∧ (fpCompare f r 3 a b).1 = true

/-- R77: an operation that reads a NaN gives the default NaN of its format, and sets invalid when an operand is a
signalling NaN; ∞ − ∞ and 0 × ∞ give it with invalid. -/
def Sys2Proof.Claims.FpNaN : Prop :=
  ∀ (f : FpFmt) (r : Rnd) (a b : Nat),
    let x := f.value (f.input r a)
    let y := f.value (f.input r b)
    let q := (f.nanCode, if x.snan || y.snan then 1 else 0)
    (x.isNan = true ∨ y.isNan = true → fpAdd f r a b = q ∧ fpSub f r a b = q ∧ fpMul f r a b = q)
    ∧ (∀ n, x = .inf n → y = .inf n → fpSub f r a b = (f.nanCode, 1))
    ∧ (∀ n, x = .inf n → y = .inf (!n) → fpAdd f r a b = (f.nanCode, 1))
    ∧ (∀ m n, (x = .inf m ∧ y = .zero n) ∨ (x = .zero m ∧ y = .inf n) → fpMul f r a b = (f.nanCode, 1))

/-- R83, R84: addition and multiplication do not depend on the order of their operands, flags included. -/
def Sys2Proof.Claims.FpCommutes : Prop :=
  ∀ (f : FpFmt) (r : Rnd) (a b : Nat), fpAdd f r a b = fpAdd f r b a ∧ fpMul f r a b = fpMul f r b a

/-- R185, R65: `cvt` writes the conversion in the destination's type; a code that names no type raises the illegal-encoding
fault. -/
def Sys2Proof.Claims.Conversion : Prop :=
  (∀ g c d a u dst src s x, Issuing s x → NoRecords x → RegType.ofCode c.toNat = some dst → RegType.ofCode u.toNat = some src →
    Holds x [(d, if dst.wide then 2 else 1), (a, if src.wide then 2 else 1)] →
    let val := fun l => if src.wide then (x.g.regs.getV2 a.toNat l).toNat else (x.g.regs.getV a.toNat l).toNat
    let one := fun l => cvtCode dst src x.rnd (val l)
    ∃ r, StepsFlags s x (exec (.cvt g c d a u) s) r (flagsOf x g one)
      ∧ if dst.wide then LanesV2 x r g d (fun l => BitVec.ofNat 64 (one l).1) else LanesV x r g d (fun l => BitVec.ofNat 32 (one l).1))
  ∧ (∀ g c d a u s x, Issuing s x → NoRecords x → (RegType.ofCode c.toNat = none ∨ RegType.ofCode u.toNat = none) →
    exec (.cvt g c d a u) s = .next (s.takeTrap x { kind := .illegalEncoding }))

/-- R186: `tfence` goes on when no enabled flag is set, and else takes the arithmetic-trap fault with e in its detail, `af`
and `te` unchanged. -/
def Sys2Proof.Claims.TrapFence : Prop :=
  ∀ s x, Issuing s x → NoRecords x →
    let e := x.g.regs.af &&& x.g.regs.te &&& 0x7F
    (e = 0 → Steps s x (exec .tfence s) x.g.regs)
    ∧ (e ≠ 0 → exec .tfence s = .next (s.takeTrap x { kind := .arithmeticTrap, detail := e.toNat }))

/-! ## Modular class -/

/-- R307, R309, R310: each active lane writes the residue modulo its own modulus; a lane without a modulus faults before any
lane writes. -/
def Sys2Proof.Claims.ModularArithmetic : Prop :=
  (∀ p ∈ mod3, ∀ g k n d a b s x, Issuing s x → NoRecords x →
    Holds x ([(d, 2), (a, 2)] ++ bRegs k b 2) →
    let bad := (x.lanes g.toNat).filter (fun l => x.g.regs.getMq n.toNat l == 0)
    (bad = [] → ∃ r, Steps s x (exec (p.1 g k n d a b) s) r ∧ LanesV2 x r g d (fun l => modVal x n l
      (p.2 (x.g.regs.getV2 a.toNat l).toNat (srcOf2 x.g.regs k b l).toNat (x.g.regs.getV2 d.toNat l).toNat)))
    ∧ (bad ≠ [] → exec (p.1 g k n d a b) s = .next (s.takeTrapAt x { kind := .modulusUnset } 0 (laneMask bad))))
  ∧ (∀ p ∈ mod1, ∀ g n d a s x, Issuing s x → NoRecords x →
    Holds x [(d, 2), (a, if p.2.1 then 4 else 2)] →
    let bad := (x.lanes g.toNat).filter (fun l => x.g.regs.getMq n.toNat l == 0)
    (bad = [] → ∃ r, Steps s x (exec (p.1 g n d a) s) r ∧ LanesV2 x r g d (fun l => modVal x n l
      (p.2.2 (if p.2.1 then (x.g.regs.getV4 a.toNat l).toNat else (x.g.regs.getV2 a.toNat l).toNat))))
    ∧ (bad ≠ [] → exec (p.1 g n d a) s = .next (s.takeTrapAt x { kind := .modulusUnset } 0 (laneMask bad))))

/-- The lanes of a stage's pair that holds lane l (R311). -/
def Sys2Proof.Claims.lowLane (stage l : Nat) : Nat := if l / 2 ^ stage % 2 = 0 then l else l - 2 ^ stage

/-- R311: a pair of lanes that are both active takes the two outputs of the butterfly, with the twiddle and the modulus of
the lower lane; every other lane keeps its d. -/
def Sys2Proof.Claims.Butterflies : Prop :=
  ∀ (inv : Bool) g n d a (st : BitVec 3) s x, Issuing s x → NoRecords x → Holds x [(d, 2), (a, 2)] → st.toNat ≤ 4 →
    let i := if inv then Instr.ibfly g n d a st else Instr.bfly g n d a st
    let low := lowLane st.toNat
    let both := fun l => x.on g.toNat (low l) && x.on g.toNat (low l + 2 ^ st.toNat)
    let q := fun l => ((x.g.regs.getMq n.toNat (low l)).toNat : Int)
    let w := fun l => ((x.g.regs.getV2 a.toNat (low l)).toNat : Int)
    let u := fun l => ((x.g.regs.getV2 d.toNat (low l)).toNat : Int)
    let v := fun l => ((x.g.regs.getV2 d.toNat (low l + 2 ^ st.toNat)).toNat : Int)
    (∀ l, l < 32 → both l = true → q l ≠ 0) →
    ∃ r, Steps s x (exec i s) r ∧ OnlyV x.g.regs r d.toNat 2
      ∧ ∀ l, l < 32 → r.getV2 d.toNat l =
        if both l then
          BitVec.ofInt 64 ((if inv then (if l = low l then u l + v l else (u l - v l) * w l)
            else (if l = low l then u l + w l * v l else u l - w l * v l)) % q l)
        else x.g.regs.getV2 d.toNat l

/-- R305, R315: `setm` writes a lane's modulus and its constant ⌊2^(62 + L) ÷ q⌋; a lane outside 3 to 2^62 faults and
nothing is written. -/
def Sys2Proof.Claims.Moduli : Prop :=
  ∀ g n a s x, Issuing s x → NoRecords x → Holds x [(a, 2)] →
    let q := fun l => (x.g.regs.getV2 a.toNat l).toNat
    let bad := (x.lanes g.toNat).filter (fun l => decide (q l < 3) || decide (2 ^ 62 < q l))
    (bad = [] → ∃ r, Steps s x (exec (.setm g n a) s) r
      ∧ r.v = x.g.regs.v ∧ r.s = x.g.regs.s ∧ r.p = x.g.regs.p ∧ r.lk = x.g.regs.lk ∧ r.af = x.g.regs.af ∧ r.te = x.g.regs.te
      ∧ ∀ m l, m < 4 → l < 32 →
        r.getMq m l = (if m = n.toNat ∧ x.on g.toNat l then BitVec.ofNat 64 (q l) else x.g.regs.getMq m l)
        ∧ r.getMk m l = (if m = n.toNat ∧ x.on g.toNat l then BitVec.ofNat 64 (2 ^ (62 + (q l).log2 + 1) / q l) else x.g.regs.getMk m l))
    ∧ (bad ≠ [] → exec (.setm g n a) s = .next (s.takeTrapAt x { kind := .modulusRange } 0 (laneMask bad)))

/-- R316: `getm` and `getk` give each active lane's destination pair the lane's modulus or its constant, zero when none has been set,
and go on: no state makes them fault. -/
def Obligations.ReadModulus : Prop :=
  (∀ g n a s x, Issuing s x → NoRecords x → Holds x [(a, 2)] →
    (∃ r, Steps s x (exec (.getm g n a) s) r ∧ LanesV2 x r g a (fun l => x.g.regs.getMq n.toNat l))
    ∧ (∃ r, Steps s x (exec (.getk g n a) s) r ∧ LanesV2 x r g a (fun l => x.g.regs.getMk n.toNat l)))
  ∧ ∀ pc n l, (Gang.start pc).regs.getMq n l = 0 ∧ (Gang.start pc).regs.getMk n l = 0

/-- The lane that `perm` reads for lane l: its partner of the stage when the control word's bit for the pair is set. -/
def Sys2Proof.Claims.permLane (c : W32) (l : Nat) : Nat :=
  let st := c.toNat / 2 ^ 16 % 8
  if st ≤ 4 ∧ c.getLsbD (l / 2 ^ (st + 1) * 2 ^ st + l % 2 ^ st) then
    (if l / 2 ^ st % 2 = 0 then l + 2 ^ st else l - 2 ^ st)
  else l

/-- R313, R314: `perm` and `lrot` move a register among the active lanes of the part; a lane whose source is not active
takes its own. -/
def Sys2Proof.Claims.LaneMoves : Prop :=
  (∀ g d a b s x, Issuing s x → NoRecords x → Holds x [(d, 1), (a, 1)] →
    let src := fun l => permLane (x.g.regs.getS (l / 4) b.toNat) l
    ∃ r, Steps s x (exec (.perm g d a b) s) r
      ∧ LanesV x r g d (fun l => if x.on g.toNat (src l) then x.g.regs.getV a.toNat (src l) else x.g.regs.getV a.toNat l))
  ∧ (∀ g d a b s x, Issuing s x → NoRecords x → Holds x [(d, 1), (a, 1)] →
    let src := fun l => (l + 32 - (x.g.regs.getS (l / 4) b.toNat).toNat % 32) % 32
    ∃ r, Steps s x (exec (.lrot g d a b) s) r
      ∧ LanesV x r g d (fun l => if x.on g.toNat (src l) then x.g.regs.getV a.toNat (src l) else x.g.regs.getV a.toNat l))

/-! ## Collectives -/

/-- The number of active lanes below n whose predicate a is 1. -/
def Sys2Proof.Claims.selBelow (x : Ctx) (g a : BitVec 3) (n : Nat) : Nat :=
  (List.range n).countP (fun l => x.on g.toNat l && x.g.regs.getP a.toNat l)

/-- The number of active lanes. -/
def Sys2Proof.Claims.actives (x : Ctx) (g : BitVec 3) : Nat := (List.range 32).countP (fun l => x.on g.toNat l)

/-- The folds of R153, from the number selected and the number active. -/
def Sys2Proof.Claims.folds : List ((OpPp → Instr) × (Nat → Nat → Bool)) :=
  [(.pfoldEvery, fun n a => decide (n = a)),
   (.pfoldSome, fun n _ => decide (1 ≤ n)),
   (.pfoldOdd, fun n _ => decide (n % 2 = 1)),
   (.pfoldAgree, fun n a => decide (n = 0) || decide (n = a))]

/-- R153: the folds, the masks and the ranks over the active lanes of the issuing part. -/
def Sys2Proof.Claims.PredicateCollectives : Prop :=
  (∀ p ∈ folds, ∀ f s x, Issuing s x → NoRecords x →
    ∃ r, Steps s x (exec (p.1 f) s) r ∧ LanesP x r f.g f.p (fun _ => p.2 (selBelow x f.g f.a 32) (actives x f.g)))
  ∧ (∀ f s x, Issuing s x → NoRecords x → Holds x [(f.d, 1)] →
    (∃ r val, Steps s x (exec (.pmask f) s) r ∧ LanesV x r f.g f.d val
      ∧ ∀ l j, j < 32 → (val l).getLsbD j = (x.on f.g.toNat j && x.g.regs.getP f.a.toNat j))
    ∧ (∃ r val, Steps s x (exec (.pmaskBelow f) s) r ∧ LanesV x r f.g f.d val
      ∧ ∀ l j, j < 32 → (val l).getLsbD j = (decide (j < l) && (x.on f.g.toNat j && x.g.regs.getP f.a.toNat j)))
    ∧ (∃ r, Steps s x (exec (.prank f) s) r ∧ LanesV x r f.g f.d (fun l => BitVec.ofNat 32 (selBelow x f.g f.a l)))
    ∧ (∃ r, Steps s x (exec (.prankTotal f) s) r ∧ LanesV x r f.g f.d (fun _ => BitVec.ofNat 32 (selBelow x f.g f.a 32))))

/-- The lane that each form of `lfetch` picks for lane i from its selector (R154). -/
def Sys2Proof.Claims.picks : List ((OpA → Instr) × (Nat → W32 → Int)) :=
  [(.lfetchAt, fun _ c => (c.toNat : Int)),
   (.lfetchOff, fun i c => (i : Int) + c.toInt),
   (.lfetchFlip, fun i c => ((Nat.xor i c.toNat : Nat) : Int)),
   (.lfetchHead, fun i c => if c.toNat ≤ 5 then ((i / 2 ^ c.toNat * 2 ^ c.toNat : Nat) : Int) else -1)]

/-- R154: each active lane takes A of the lane its selector picks, or its own A where that lane is not active. -/
def Sys2Proof.Claims.LaneFetch : Prop :=
  ∀ p ∈ picks, ∀ o s x, Issuing s x → NoRecords x → Holds x ([(o.d, 1), (o.a, 1)] ++ bRegs o.k o.b 1) →
    ∃ r, Steps s x (exec (p.1 o) s) r ∧ LanesV x r o.g o.d (fun l =>
      let j := p.2 l (srcOf x.g.regs o.k o.b l)
      if 0 ≤ j ∧ j ≤ 31 ∧ x.on o.g.toNat j.toNat then x.g.regs.getV o.a.toNat j.toNat else x.g.regs.getV o.a.toNat l)

/-- The integer reductions and scans with their operation (R249). -/
def Sys2Proof.Claims.redInts : List ((OpN → Instr) × (OpN → Instr) × (W32 → W32 → W32)) :=
  [(.gredAddS32, .gscanAddS32, fun a b => a + b),
   (.gredMinS32, .gscanMinS32, fun a b => BitVec.ofInt 32 (min a.toInt b.toInt)),
   (.gredMaxS32, .gscanMaxS32, fun a b => BitVec.ofInt 32 (max a.toInt b.toInt)),
   (.gredMinN32, .gscanMinN32, fun a b => BitVec.ofNat 32 (min a.toNat b.toNat)),
   (.gredMaxN32, .gscanMaxN32, fun a b => BitVec.ofNat 32 (max a.toNat b.toNat)),
   (.gredAnd, .gscanAnd, fun a b => a &&& b),
   (.gredOr, .gscanOr, fun a b => a ||| b),
   (.gredXor, .gscanXor, fun a b => a ^^^ b)]

/-- The operation over A of the active lanes below n, from the lowest lane on; 0 when there is none. -/
def Sys2Proof.Claims.foldLanes (x : Ctx) (f : OpN) (op : W32 → W32 → W32) (n : Nat) : W32 :=
  match (List.range n).filter (fun l => x.on f.g.toNat l) with
  | [] => 0
  | l :: t => t.foldl (fun v j => op v (x.g.regs.getV f.a.toNat j)) (x.g.regs.getV f.a.toNat l)

/-- R94, R95, R249: an integer reduction gives every active lane the operation over all active lanes, and a scan gives lane
i the operation over the active lanes up to i: the trees of R94 and R95 do not show. -/
def Sys2Proof.Claims.IntegerReductions : Prop :=
  ∀ p ∈ redInts, ∀ f s x, Issuing s x → NoRecords x → Holds x [(f.d, 1), (f.a, 1)] →
    (∃ r, Steps s x (exec (p.1 f) s) r ∧ LanesV x r f.g f.d (fun _ => foldLanes x f p.2.2 32))
    ∧ (∃ r, Steps s x (exec (p.2.1 f) s) r ∧ LanesV x r f.g f.d (fun l => foldLanes x f p.2.2 (l + 1)))

/-- The floating reductions and scans with their operation, and whether they take pairs. -/
def Sys2Proof.Claims.redFps : List ((OpN → Instr) × (OpN → Instr) × Bool × (Nat → Nat → Nat × Nat)) :=
  [(.gredAddF32, .gscanAddF32, false, fpAdd .f32 {}),
   (.gredMinF32, .gscanMinF32, false, fpMinMax .f32 {} false),
   (.gredMaxF32, .gscanMaxF32, false, fpMinMax .f32 {} true),
   (.gredAddF64, .gscanAddF64, true, fpAdd .f64 {}),
   (.gredMinF64, .gscanMinF64, true, fpMinMax .f64 {} false),
   (.gredMaxF64, .gscanMaxF64, true, fpMinMax .f64 {} true)]

/-- Two operands joined, either of which may be absent, and the flags of the operation that was made. -/
def Sys2Proof.Claims.join2 (op : Nat → Nat → Nat × Nat) (a b : Option Nat) : Option Nat × Nat :=
  match a, b with
  | some u, some v => (some (op u v).1, (op u v).2)
  | none, b => (b, 0)
  | a, none => (a, 0)

/-- The tree of R94 over the 2^n lanes from lane i on. -/
def Sys2Proof.Claims.tree (op : Nat → Nat → Nat × Nat) (t : Nat → Option Nat) : Nat → Nat → Option Nat
  | 0, i => t i
  | n + 1, i => (join2 op (tree op t n i) (tree op t n (i + 2 ^ n))).1

/-- Lane i after the first n steps of R95. -/
def Sys2Proof.Claims.scanAt (op : Nat → Nat → Nat × Nat) (t : Nat → Option Nat) : Nat → Nat → Option Nat
  | 0, i => t i
  | n + 1, i => if 2 ^ n ≤ i then (join2 op (scanAt op t n (i - 2 ^ n)) (scanAt op t n i)).1 else scanAt op t n i

/-- R94, R95, R96, R249: a floating reduction and a floating scan take exactly the trees of R94 and R95. -/
def Sys2Proof.Claims.FloatReductions : Prop :=
  ∀ p ∈ redFps, ∀ f s x, Issuing s x → NoRecords x →
    Holds x [(f.d, if p.2.2.1 then 2 else 1), (f.a, if p.2.2.1 then 2 else 1)] →
    let t := fun l => if l < 32 ∧ x.on f.g.toNat l then
      some (if p.2.2.1 then (x.g.regs.getV2 f.a.toNat l).toNat else (x.g.regs.getV f.a.toNat l).toNat) else none
    let leaves := fun r (val : Nat → Nat) =>
      if p.2.2.1 then LanesV2 x r f.g f.d (fun l => BitVec.ofNat 64 (val l)) else LanesV x r f.g f.d (fun l => BitVec.ofNat 32 (val l))
    (∃ r flags, StepsFlags s x (exec (p.1 f) s) r flags ∧ leaves r (fun _ => (tree p.2.2.2 t 5 0).getD 0)
      ∧ ∀ b, flags.getLsbD b = true ↔ b < 32 ∧ ∃ n i, n < 5 ∧ i + 2 ^ n < 32 ∧ i % 2 ^ (n + 1) = 0
        ∧ (join2 p.2.2.2 (tree p.2.2.2 t n i) (tree p.2.2.2 t n (i + 2 ^ n))).2.testBit b = true)
    ∧ (∃ r flags, StepsFlags s x (exec (p.2.1 f) s) r flags ∧ leaves r (fun l => (scanAt p.2.2.2 t 5 l).getD 0)
      ∧ ∀ b, flags.getLsbD b = true ↔ b < 32 ∧ ∃ n i, n < 5 ∧ 2 ^ n ≤ i ∧ i < 32
        ∧ (join2 p.2.2.2 (scanAt p.2.2.2 t n (i - 2 ^ n)) (scanAt p.2.2.2 t n i)).2.testBit b = true)

/-! ## Control class -/

/-- Slice k of the part after a transfer of all of its lanes to a place, with nothing pushed: mask, reconvergence address
and stack stay (R140). -/
def Sys2Proof.Claims.WentTo (x : Ctx) (g : Gang) (k : Nat) (pc : W64) : Prop :=
  (g.slice k).pc = pc ∧ (g.slice k).mask = (x.g.slice k).mask ∧ (g.slice k).rpc = (x.g.slice k).rpc
    ∧ (g.slice k).stack = (x.g.slice k).stack ∧ (g.slice k).spilled = (x.g.slice k).spilled ∧ (g.slice k).hints = []

/-- Every slice of the part went to a place of its own, the rest of the gang is as it was, and the state holds that gang. -/
def Sys2Proof.Claims.Transfers (s : State) (x : Ctx) (o : Out) (regs : Regs) (pc : Nat → W64) : Prop :=
  ∃ t g, o = .next t ∧ t = s.setGang x.crew x.gang g
    ∧ g = { x.g with regs := regs, slices := g.slices, replay := SMap.erase x.g.replay x.low }
    ∧ (∀ k ∈ x.part, WentTo x g k (pc k))
    ∧ (∀ k ∈ x.part, ∀ j ∈ x.part, (g.slice k).part = (g.slice j).part ↔ pc k = pc j)
    ∧ (∀ k, k ∉ x.part → g.slice k = x.g.slice k)
    ∧ (∀ a, Memory.read t.mem a = Memory.read s.mem a)

/-- The gang has its eight slices. -/
def Sys2Proof.Claims.Eight (x : Ctx) : Prop := x.g.slices.length = 8

/-- The word offset of a branch: off22, or payload : off22 under a kind-0 hint (R148). -/
def Sys2Proof.Claims.branchTo (x : Ctx) (o : BitVec 22) : W64 := x.pc + 4 * BitVec.ofInt 64 (immOf x.hints o)

/-- R64, R148: a Vintner's branch goes to its target when its predicate says so. -/
def Sys2Proof.Claims.VintnerBranch : Prop :=
  ∀ p n (o : BitVec 22) s x, VIssuing s x →
    ∃ t, exec (.br p n o) s = .next t ∧ t = s.setV x { x.k with
        pc := if x.k.getP p.toNat != (n == 1) then x.pc + 4 * BitVec.ofInt 64 (immOf x.k.hints o) else x.pc + 4, hints := [] }
      ∧ ∀ a, Memory.read t.mem a = Memory.read s.mem a

/-- R148, R149: a branch or a call whose condition is the same in every active lane of each slice sends the slice to the
target, or on to the next word when no active lane takes it; a call writes the next word's address to `lk` of the lanes
that take it. -/
def Sys2Proof.Claims.UniformBranches : Prop :=
  ∀ p n o s x, Issuing s x → NoRecords x → Eight x →
    let takes := fun l => x.on 7 l && (x.g.regs.getP p.toNat l != (n == 1))
    let stays := fun l => x.on 7 l && !(x.g.regs.getP p.toNat l != (n == 1))
    let pc := fun k => if (List.range 4).any (fun j => takes (4 * k + j)) then branchTo x o else x.pc + 4
    (∀ k ∈ x.part, (∀ j, j < 4 → takes (4 * k + j) = false) ∨ (∀ j, j < 4 → stays (4 * k + j) = false)) →
    (Transfers s x (exec (.br p n o) s) x.g.regs pc)
    ∧ (∃ r, Transfers s x (exec (.call p n o) s) r pc
      ∧ r.v = x.g.regs.v ∧ r.s = x.g.regs.s ∧ r.p = x.g.regs.p ∧ r.mq = x.g.regs.mq ∧ r.mkr = x.g.regs.mkr
      ∧ r.af = x.g.regs.af ∧ r.te = x.g.regs.te
      ∧ ∀ l, l < 32 → r.getLk l = if takes l then x.pc + 4 else x.g.regs.getLk l)

/-- R140, R143, R148: a slice whose active lanes differ runs the lanes that take the branch first; above the entries it
held it has one entry with its whole mask at the join address, and over it one with the other lanes at the next word; the
join address is that of a kind-1 hint, else the target of a forward branch, else the next word. -/
def Sys2Proof.Claims.DivergentBranch : Prop :=
  ∀ p n o s x k, Issuing s x → NoRecords x → Eight x → x.part = [k] → (x.g.slice k).stack.length ≤ 14 → (x.g.slice k).spilled = 0 →
    let takes := fun l => x.on 7 l && (x.g.regs.getP p.toNat l != (n == 1))
    let stays := fun l => x.on 7 l && !(x.g.regs.getP p.toNat l != (n == 1))
    (∃ j, j < 4 ∧ takes (4 * k + j) = true) → (∃ j, j < 4 ∧ stays (4 * k + j) = true) →
    let tgt := branchTo x o
    let join := match hintOf x.hints 1 with
      | some q => x.pc + 4 * BitVec.ofInt 64 (BitVec.ofNat 22 q).toInt
      | none => if x.pc.toNat < tgt.toNat then tgt else x.pc + 4
    ∃ t g m w, exec (.br p n o) s = .next t ∧ t = s.setGang x.crew x.gang g ∧ g.regs = x.g.regs
      ∧ (∀ j, j < 4 → m.getLsbD j = takes (4 * k + j)) ∧ (∀ j, j < 4 → w.getLsbD j = stays (4 * k + j))
      ∧ (g.slice k).pc = tgt ∧ (g.slice k).mask = m ∧ (g.slice k).rpc = some join
      ∧ (g.slice k).stack = [{ pc := x.pc + 4, mask := w, rpc := some join },
          { pc := join, mask := (x.g.slice k).mask, rpc := (x.g.slice k).rpc }] ++ (x.g.slice k).stack
      ∧ ∀ j, j ≠ k → g.slice j = x.g.slice j

/-- R141: a divergence that would bring a stack to 256 entries raises the divergence-overflow fault, and no slice changes. -/
def Sys2Proof.Claims.DivergenceOverflow : Prop :=
  ∀ p n o s x k, Issuing s x → NoRecords x → k ∈ x.part → 254 ≤ (x.g.slice k).stack.length + (x.g.slice k).spilled →
    let takes := fun l => x.on 7 l && (x.g.regs.getP p.toNat l != (n == 1))
    let stays := fun l => x.on 7 l && !(x.g.regs.getP p.toNat l != (n == 1))
    (∃ j, j < 4 ∧ takes (4 * k + j) = true) → (∃ j, j < 4 ∧ stays (4 * k + j) = true) →
    exec (.br p n o) s = .next (s.takeTrap x { kind := .divergenceOverflow })

/-- The indirect transfers with where a lane's target comes from and whether `lk` is written. -/
def Sys2Proof.Claims.indirects (f : OpN) : List (Instr × BitVec 3 × List (BitVec 6 × Nat) × (Regs → Nat → W64) × Bool) :=
  [(.jmpi f.g f.a, f.g, [(f.a, 2)], fun r l => r.getV2 f.a.toNat l, false),
   (.calli f.g f.a, f.g, [(f.a, 2)], fun r l => r.getV2 f.a.toNat l, true),
   (.ret_ f.g, f.g, [], fun r l => r.getLk l, false)]

/-- R150: an indirect transfer whose active lanes of each slice have one target sends each slice there; a call writes `lk`,
and its saving form the old `lk` to a pair; a target that is not a multiple of 4 raises the misaligned-code fault and
nothing changes. -/
def Sys2Proof.Claims.IndirectTransfers : Prop :=
  ∀ f s x, Issuing s x → NoRecords x → Eight x →
    (∀ e ∈ indirects f, Holds x e.2.2.1 →
      let tgt := e.2.2.2.1 x.g.regs
      let bad := (x.lanes e.2.1.toNat).filter (fun l => decide ((tgt l).toNat % 4 ≠ 0))
      (bad ≠ [] → exec e.1 s = .next (s.takeTrapAt x { kind := .misalignedCode } 0 (laneMask bad)))
      ∧ (bad = [] → ∀ pc : Nat → W64,
          (∀ k ∈ x.part, (∀ j, j < 4 → x.on e.2.1.toNat (4 * k + j) = false) → pc k = x.pc + 4) →
          (∀ k ∈ x.part, ∀ j, j < 4 → x.on e.2.1.toNat (4 * k + j) = true → tgt (4 * k + j) = pc k) →
          ∃ r, Transfers s x (exec e.1 s) r pc ∧ r.v = x.g.regs.v ∧ r.s = x.g.regs.s ∧ r.p = x.g.regs.p
            ∧ ∀ l, l < 32 → r.getLk l = if e.2.2.2.2 ∧ x.on e.2.1.toNat l then x.pc + 4 else x.g.regs.getLk l))
    ∧ (Holds x [(f.d, 2), (f.a, 2)] →
      let tgt := fun l => x.g.regs.getV2 f.a.toNat l
      (∀ l ∈ x.lanes f.g.toNat, (tgt l).toNat % 4 = 0) → ∀ pc : Nat → W64,
      (∀ k ∈ x.part, (∀ j, j < 4 → x.on f.g.toNat (4 * k + j) = false) → pc k = x.pc + 4) →
      (∀ k ∈ x.part, ∀ j, j < 4 → x.on f.g.toNat (4 * k + j) = true → tgt (4 * k + j) = pc k) →
      ∃ r, Transfers s x (exec (.calliSave f) s) r pc ∧ r.s = x.g.regs.s ∧ r.p = x.g.regs.p
        ∧ ∀ l, l < 32 → r.getLk l = (if x.on f.g.toNat l then x.pc + 4 else x.g.regs.getLk l)
          ∧ r.getV2 f.d.toNat l = if x.on f.g.toNat l then x.g.regs.getLk l else x.g.regs.getV2 f.d.toNat l)

/-! ## Memory -/

/-- The part waits for nothing before it acts: no record, no load, no fill of a tile, no fence, no buffered store of its own,
no restart. -/
def Sys2Proof.Claims.Fresh (s : State) (x : Ctx) : Prop :=
  NoRecords x ∧ NoFence x ∧ (∀ e ∈ x.g.buffer, e.slices &&& x.mask = 0) ∧ SMap.find x.g.replay x.low = none
    ∧ ∀ f ∈ s.fills, f.ofPart x.crew x.gang x.mask = false

/-- The n bytes at va translate for the part to one run of this module's DRAM, by a translation its core holds already,
and no line of it is marked as uncorrectable. -/
def Sys2Proof.Claims.Reaches (s : State) (x : Ctx) (acc : Access) (va : W64) (n : Nat) (p : Page) : Prop :=
  s.translateSpan x.unit x.c.asid va n acc (n / 4096 + 2) = (.ok [(p, n)], s) ∧ p.local = true ∧ s.poisonedIn [(p, n)] = false

/-- The part has gone to the next word, and the gang's registers are r. -/
def Sys2Proof.Claims.Went (_s : State) (x : Ctx) (t : State) (r : Regs) : Prop :=
  ∃ g, t.gang? x.crew x.gang = some g ∧ g.regs = r
    ∧ (∀ k ∈ x.part, g.slice k = { x.g.slice k with pc := x.pc + 4, hints := [], unchecked := false, remote := 0 })
    ∧ (∀ k, k ∉ x.part → g.slice k = x.g.slice k)

/-- Every byte of memory is as it was. -/
def Sys2Proof.Claims.SameMem (s t : State) : Prop := ∀ a, Memory.read t.mem a = Memory.read s.mem a

/-- A core holds the byte v of address a in a copy of a PV line that it has changed (R286). -/
def Sys2Proof.Claims.PvByte (s : State) (a : Nat) (v : Byte) : Prop :=
  ∃ c l, s.pvLine c (lineOf a) = some l ∧ l.dirty = true ∧ v = SMap.getD l.data (a % 128) 0

/-- Every byte of memory is as it was, but for lines that a core held changed: a line request may evict one (R187, R189), which
publishes it (R286). -/
def Sys2Proof.Claims.KeptMem (s t : State) : Prop :=
  ∀ a, Memory.read t.mem a = Memory.read s.mem a ∨ PvByte s a (Memory.read t.mem a)

/-- The n bytes from address a on have become those of v; every other byte is kept, as `KeptMem` says. -/
def Sys2Proof.Claims.WroteBut (s t : State) (a n v : Nat) : Prop :=
  ∀ b, if a ≤ b ∧ b < a + n then Memory.read t.mem b = BitVec.ofNat 8 (v / 256 ^ (b - a))
    else Memory.read t.mem b = Memory.read s.mem b ∨ PvByte s b (Memory.read t.mem b)

/-- Registers after a load: d to d + n − 1 of the chosen lanes hold the value, predicate f of the active lanes is `flag`. -/
def Sys2Proof.Claims.LoadRegs (x : Ctx) (r : Regs) (act sel : Nat → Bool) (d n f : Nat) (flag : Bool) (val : Nat → Nat) : Prop :=
  r.s = x.g.regs.s ∧ r.lk = x.g.regs.lk ∧ r.mq = x.g.regs.mq ∧ r.mkr = x.g.regs.mkr ∧ r.te = x.g.regs.te
    ∧ (∀ q l, l < 32 → r.getV q l =
        if d ≤ q ∧ q < d + n ∧ sel l then BitVec.ofNat 32 (val l / 2 ^ (32 * (q - d))) else x.g.regs.getV q l)
    ∧ (∀ q l, q < 8 → l < 32 → r.getP q l = if q = f ∧ q ≠ 7 ∧ act l then flag else x.g.regs.getP q l)

/-- A load in flight of the part, for a destination and lanes. -/
def Sys2Proof.Claims.InFlight (s : State) (x : Ctx) (dest : FlightDest) (lanes : List FlightLane) (f : Flight) : Prop :=
  f.id = s.serial ∧ f.slices = x.mask ∧ f.dest = dest ∧ f.lanes = lanes ∧ f.start = x.start ∧ f.len = x.len ∧ f.past = none
    ∧ f.failed = none

/-- The state has a load of the part in flight behind those of the gang. -/
def Sys2Proof.Claims.Flies (s : State) (x : Ctx) (t : State) (dest : FlightDest) (lanes : List FlightLane) : Prop :=
  ∃ h f, t.gang? x.crew x.gang = some h ∧ h.loads = x.g.loads ++ [f] ∧ InFlight s x dest lanes f

/-- Every lane's address, the walks of the lanes one after another, finds a page that is not present. -/
def Sys2Proof.Claims.FindsAbsent (x : Ctx) (n : Nat) (addr : Nat → W64) (s : State) : List Nat → State → Prop
  | [], t => t = s
  | l :: ls, t => ∃ leaf u, s.translateSpan x.unit x.c.asid (addr l) n .read (n / 4096 + 2) = (.error (.notPresent leaf, addr l), u)
      ∧ FindsAbsent x n addr u ls t

/-- R113, R190, R193, R200: `ld` gives each active lane the bytes at its address and clears the flag predicate; a lane whose page
is not present takes zero and sets it. Where the data come later, the flag predicate is written, the destination is as it was, and
the load is in flight over the lanes; LOAD_DATA_ARRIVAL ends it. -/
def Sys2Proof.Claims.Load : Prop :=
  ∀ (f : OpM) s x, Issuing s x → Fresh s x → f.w.toNat ≤ 4 →
    let n := 2 ^ f.w.toNat
    let regs := if f.w.toNat = 4 then 4 else if f.w.toNat = 3 then 2 else 1
    Holds x [(f.x, 1), (f.t, regs)] →
    (∀ p : Nat → Page, (∀ l ∈ x.lanes f.g.toNat, Reaches s x .read (x.laneAddr f l) n (p l)) →
      (s.late = none → ∃ t r, exec (.ld f) s = .next t ∧ Went s x t r ∧ KeptMem s t ∧ r.af = x.g.regs.af
        ∧ LoadRegs x r (x.on f.g.toNat) (x.on f.g.toNat) f.t.toNat regs f.f.toNat false
            (fun l => bytesNat (s.coreData x.c.core [(p l, n)])))
      ∧ (s.late ≠ none → x.lanes f.g.toNat ≠ [] → ∃ t r, exec (.ld f) s = .next t ∧ Went s x t r ∧ KeptMem s t
        ∧ r.af = x.g.regs.af ∧ LoadRegs x r (x.on f.g.toNat) (fun _ => false) f.t.toNat regs f.f.toNat false (fun _ => 0)
        ∧ Flies s x t (.plain f.t.toNat f.w.toNat)
            ((x.lanes f.g.toNat).map (fun l => flyLane l (x.laneAddr f l) n [(p l, n)]))))
    ∧ (∀ w, FindsAbsent x n (x.laneAddr f) s (x.lanes f.g.toNat) w → ∃ t r, exec (.ld f) s = .next t ∧ Went s x t r ∧ KeptMem s t
      ∧ r.af = x.g.regs.af ∧ LoadRegs x r (x.on f.g.toNat) (x.on f.g.toNat) f.t.toNat regs f.f.toNat true (fun _ => 0))

/-- R202, R203: `lde` of a linear format of whole bytes, named by a kind-6 hint, converts the element at base + e × size to
the register's type; or the load is in flight with the format. -/
def Sys2Proof.Claims.LoadElement : Prop :=
  ∀ (f : OpM) fmt ty s x (p : Nat → Page), Issuing s x → Fresh s x → ty = memType f.w.toNat →
    Holds x [(f.x, 1), (f.t, if ty.wide then 2 else 1)] →
    x.fmtHint = some (fmt, 0) → blockFormat fmt = false → fmt ≠ 0 → 8 ≤ elemBits fmt →
    let n := elemBits fmt / 8
    (∀ l ∈ x.lanes f.g.toNat, vaNat (x.laneBase f.sb l) % n = 0
      ∧ Reaches s x .read (x.laneBase f.sb l + BitVec.ofNat 64 (x.laneIndex f.x l * elemBits fmt / 8)) n (p l)) →
    let one := fun l => convert ty {} (linearValue fmt (bytesNat (s.coreData x.c.core [(p l, n)])))
    (s.late = none → ∃ t r, exec (.lde f) s = .next t ∧ Went s x t r ∧ KeptMem s t ∧ r.af = x.g.regs.af ||| flagsOf x f.g one
      ∧ LoadRegs x r (x.on f.g.toNat) (x.on f.g.toNat) f.t.toNat (if ty.wide then 2 else 1) f.f.toNat false (fun l => (one l).1))
    ∧ (s.late ≠ none → x.lanes f.g.toNat ≠ [] → ∃ t r, exec (.lde f) s = .next t ∧ Went s x t r ∧ KeptMem s t ∧ r.af = x.g.regs.af
      ∧ LoadRegs x r (x.on f.g.toNat) (fun _ => false) f.t.toNat (if ty.wide then 2 else 1) f.f.toNat false (fun _ => 0)
      ∧ Flies s x t (.decoded f.t.toNat f.w.toNat) ((x.lanes f.g.toNat).map (fun l =>
          let at_ := x.laneBase f.sb l + BitVec.ofNat 64 (x.laneIndex f.x l * elemBits fmt / 8)
          { flyLane l at_ n [(p l, n)] with fmt := fmt, half := x.laneIndex f.x l % 2 })))

/-- R206, R209: `lds` gives every slice of the part the datum at its base; `exld` gives the selected lanes, in their order,
consecutive data; or the data come later.
Rests in part on the model's choices of notes/assumptions/9, 49, 63. -/
def Obligations.UniformLoads : Prop :=
  (∀ d a f (w : BitVec 2) s x k p, Issuing s x → Fresh s x → x.uslice = some k →
    Reaches s x .read (x.ubase k a) (2 ^ w.toNat) p →
    let n := if w = 3 then 2 else 1
    let v := bytesNat (s.coreData x.c.core [(p, 2 ^ w.toNat)])
    ∃ t r, exec (.lds d a f w) s = .next t ∧ Went s x t r ∧ KeptMem s t
      ∧ (s.late ≠ none → Flies s x t (.uniform d.toNat w.toNat) [flyLane 0 (x.ubase k a) (2 ^ w.toNat) [(p, 2 ^ w.toNat)]])
      ∧ r.v = x.g.regs.v ∧ r.lk = x.g.regs.lk ∧ r.mq = x.g.regs.mq ∧ r.mkr = x.g.regs.mkr ∧ r.af = x.g.regs.af ∧ r.te = x.g.regs.te
      ∧ (∀ q j, q < 64 → j < 8 → d.toNat + n ≤ 64 → r.getS j q =
          if s.late = none ∧ d.toNat ≤ q ∧ q < d.toNat + n ∧ j ∈ x.part then BitVec.ofNat 32 (v / 2 ^ (32 * (q - d.toNat))) else x.g.regs.getS j q)
      ∧ (∀ q l, q < 8 → l < 32 → r.getP q l = if q = f.toNat ∧ q ≠ 7 ∧ x.on 7 l then false else x.g.regs.getP q l))
  ∧ (∀ d a f q (w : BitVec 2) s x k (p : Nat → Page), Issuing s x → Fresh s x → x.uslice = some k →
    Holds x [(d, if w = 3 then 2 else 1)] →
    let sel := fun l => x.on 7 l && x.g.regs.getP q.toNat l
    (∀ l, l < 32 → sel l = true → Reaches s x .read
      (x.ubase k a + BitVec.ofNat 64 (((List.range l).countP sel) * 2 ^ w.toNat)) (2 ^ w.toNat) (p l)) →
    ∃ t r, exec (.exld d a f q w) s = .next t ∧ Went s x t r ∧ KeptMem s t ∧ r.af = x.g.regs.af
      ∧ LoadRegs x r (x.on 7) (fun l => s.late.isNone && sel l) d.toNat (if w = 3 then 2 else 1) f.toNat false
          (fun l => bytesNat (s.coreData x.c.core [(p l, 2 ^ w.toNat)]))
      ∧ (s.late ≠ none → (x.lanes 7).filter sel ≠ [] → Flies s x t (.plain d.toNat w.toNat) (((x.lanes 7).filter sel).map (fun l =>
          flyLane l (x.ubase k a + BitVec.ofNat 64 (((List.range l).countP sel) * 2 ^ w.toNat)) (2 ^ w.toNat)
            [(p l, 2 ^ w.toNat)]))))

/-- The entry that one lane's store of v puts into the buffer (R191, R192, R196). -/
def Sys2Proof.Claims.storeEntry (s : State) (x : Ctx) (p : Page) (va : W64) (n v : Nat) : BufEntry :=
  { slices := x.mask, op := storeOp x.policy p.kind (byteWrites p.pa n v), scope := x.scope, policy := x.policy
    whole := oneEvent va n, stamp := s.serial }

/-- The entry that fills the rest of its line with zeros (R200). -/
def Sys2Proof.Claims.fillEntry (s : State) (x : Ctx) (p : Page) (n : Nat) : BufEntry :=
  { slices := x.mask, op := storeOp x.policy p.kind (fillLine (lineOf p.pa) ((List.range n).map (p.pa + ·))), scope := x.scope,
    policy := x.policy, whole := false, stamp := s.serial }

/-- The core holds no changed copy of a PV line of the bytes that a policy or `.fl` has it write back first (R196, R200). -/
def Sys2Proof.Claims.Published (s : State) (x : Ctx) (fl : Bool) (p : Page) (n : Nat) : Prop :=
  x.policy = 3 ∨ fl = true → p.kind = .pv → ∀ a l, p.pa ≤ a → a < p.pa + n → s.pvLine x.c.core (lineOf a) = some l → l.dirty = false

/-- One store of v into the buffer of the part, its flags, and nothing else but the step to the next word. -/
def Sys2Proof.Claims.Buffers (s : State) (x : Ctx) (o : Out) (p : Page) (va : W64) (fl : Bool) (n v flags : Nat) : Prop :=
  ∃ t, o = .next t ∧ t = s.setGang x.crew x.gang (({ x.g with
      regs := { x.g.regs with af := x.g.regs.af ||| BitVec.ofNat 32 flags }
      buffer := x.g.buffer ++ (if fl then [fillEntry s x p n] else []) ++ [storeEntry s x p va n v] } : Gang).retire x)
    ∧ SameMem s t

/-- The bytes that an entry stores. -/
def Sys2Proof.Claims.storedBytes (e : BufEntry) : List ByteWrite :=
  match e.op with
  | .write _ bs => bs
  | .through bs => bs
  | _ => []

/-- R187, R191, R192, R200, R204, R209: a store of one lane puts the bytes of its datum, at the address that the instruction
computes, into the store buffer, as one event if it is naturally aligned: `st`, `ste` of a linear format of whole bytes, `cst`;
`.fl` adds the zeros of the rest of the line. Of several lanes of `st`, the bytes buffered are those of the highest lane that
writes each. No byte of memory changes until HOME_SLICE_WRITE.
Rests in part on the model's choices of notes/assumptions/9. -/
def Obligations.Stores : Prop :=
  (∀ (f : OpM) s x l p, Issuing s x → Fresh s x → f.w.toNat ≤ 4 → x.lanes f.g.toNat = [l] →
    Holds x [(f.x, 1), (f.t, if f.w.toNat = 4 then 4 else if f.w.toNat = 3 then 2 else 1)] →
    let n := 2 ^ f.w.toNat
    Reaches s x .write (x.laneAddr f l) n p → p.pa % 128 + n ≤ 128 → Published s x (f.f == 1) p n →
    Buffers s x (exec (.st f) s) p (x.laneAddr f l) (f.f == 1) n (if f.w.toNat = 4 then (x.g.regs.getV4 f.t.toNat l).toNat
      else if f.w.toNat = 3 then (x.g.regs.getV2 f.t.toNat l).toNat else (x.g.regs.getV f.t.toNat l).toNat) 0)
  ∧ (∀ (f : OpM) s x (p : Nat → Page), Issuing s x → Fresh s x → f.w.toNat ≤ 4 → f.f = 0 →
    Holds x [(f.x, 1), (f.t, if f.w.toNat = 4 then 4 else if f.w.toNat = 3 then 2 else 1)] →
    let n := 2 ^ f.w.toNat
    let val := fun l => if f.w.toNat = 4 then (x.g.regs.getV4 f.t.toNat l).toNat
      else if f.w.toNat = 3 then (x.g.regs.getV2 f.t.toNat l).toNat else (x.g.regs.getV f.t.toNat l).toNat
    (∀ l ∈ x.lanes f.g.toNat, Reaches s x .write (x.laneAddr f l) n (p l) ∧ Published s x false (p l) n) →
    ∃ t es, exec (.st f) s = .next t ∧ SameMem s t
      ∧ t.gang? x.crew x.gang = some (({ x.g with buffer := x.g.buffer ++ es } : Gang).retire x)
      ∧ (∀ e ∈ es, e.slices = x.mask ∧ e.scope = x.scope ∧ e.policy = x.policy)
      ∧ ∀ m a, Memory.read (Memory.apply m (es.flatMap storedBytes)) a =
          match ((x.lanes f.g.toNat).filter (fun l => decide ((p l).pa ≤ a ∧ a < (p l).pa + n))).getLast? with
          | some l => BitVec.ofNat 8 (val l / 256 ^ (a - (p l).pa))
          | none => Memory.read m a)
  ∧ (∀ (f : OpM) fmt ty s x l p, Issuing s x → Fresh s x → ty = memType f.w.toNat → x.lanes f.g.toNat = [l] →
    Holds x [(f.x, 1), (f.t, if ty.wide then 2 else 1)] →
    x.fmtHint = some (fmt, 0) → blockFormat fmt = false → fmt ≠ 0 → 8 ≤ elemBits fmt →
    let n := elemBits fmt / 8
    vaNat (x.laneBase f.sb l) % n = 0 →
    let at_ := x.laneBase f.sb l + BitVec.ofNat 64 (x.laneIndex f.x l * elemBits fmt / 8)
    Reaches s x .write at_ n p →
    p.pa % 128 + n ≤ 128 → Published s x (f.f == 1) p n →
    let c := linearCode fmt x.rnd (ty.source x.rnd
      (if ty.wide then (x.g.regs.getV2 f.t.toNat l).toNat else (x.g.regs.getV f.t.toNat l).toNat))
    Buffers s x (exec (.ste f) s) p at_ (f.f == 1) n c.1 c.2)
  ∧ (∀ d a q (w : BitVec 2) s x k l p, Issuing s x → Fresh s x → x.uslice = some k →
    Holds x [(d, if w = 3 then 2 else 1)] →
    (x.lanes 7).filter (x.g.regs.getP q.toNat) = [l] →
    Reaches s x .write (x.ubase k a) (2 ^ w.toNat) p → p.pa % 128 + 2 ^ w.toNat ≤ 128 → Published s x false p (2 ^ w.toNat) →
    Buffers s x (exec (.cst d a q w) s) p (x.ubase k a) false (2 ^ w.toNat)
      (if w = 3 then (x.g.regs.getV2 d.toNat l).toNat else (x.g.regs.getV d.toNat l).toNat) 0)

/-- Every read that the entry's part has issued has its value. -/
def Sys2Proof.Claims.AllRead (s : State) (crew gang : Nat) (g : Gang) (e : BufEntry) : Prop :=
  (∀ f ∈ g.loads, f.done = true ∨ f.slices &&& e.slices = 0) ∧ ∀ f ∈ s.fills, f.ofPart crew gang e.slices = false

/-- R187, R191, R250, R286, R292: HOME_SLICE_WRITE performs the oldest entry of a gang's buffer, or, of one that is not one event,
one of its bytes: a store's bytes then stand in memory, those of a PV line in the core's copy of the line, which it fills if it
has none; a reduction has read and written its location; and what was performed is gone from the buffer. -/
def Sys2Proof.Claims.HomeSliceWrite : Prop :=
  (∀ crew gang s g e rest k a n v, s.gang? crew gang = some g → g.buffer = e :: rest → AllRead s crew gang g e →
    e.op = .write k (byteWrites a n v) → k ≠ .pv → a % 128 + n ≤ 128 →
    (e.whole = true → ∃ t, exec (.homeSliceWrite crew gang 0) s = .next t ∧ WroteBut s t a n v
      ∧ (g.fences = [] → ∃ h, t.gang? crew gang = some h ∧ h.buffer = rest ∧ h.regs = g.regs ∧ h.slices = g.slices))
    ∧ (e.whole = false → k ≠ .sc → 1 < n → ∀ i, i < n →
      ∃ t, exec (.homeSliceWrite crew gang i) s = .next t ∧ WroteBut s t (a + i) 1 (v / 256 ^ i)
      ∧ (g.fences = [] → ∃ h, t.gang? crew gang = some h
        ∧ h.buffer = { e with op := .write k ((byteWrites a n v).eraseIdx i) } :: rest)))
  ∧ (∀ crew gang s g e rest a n v, s.gang? crew gang = some g → g.buffer = e :: rest → AllRead s crew gang g e →
    e.op = .write .pv (byteWrites a n v) → e.whole = true → 0 < n → a % 128 + n ≤ 128 →
    let core := s.coreOf crew
    (∀ l, s.pvLine core (lineOf a) = some l → (s.core core).holds (lineOf a) = true →
      ∃ t m, exec (.homeSliceWrite crew gang 0) s = .next t ∧ SameMem s t ∧ t.pvLine core (lineOf a) = some m ∧ m.dirty = true
        ∧ m.crew = l.crew ∧ ∀ i, i < 128 → SMap.getD m.data i 0 =
            if a % 128 ≤ i ∧ i < a % 128 + n then BitVec.ofNat 8 (v / 256 ^ (i - a % 128)) else SMap.getD l.data i 0)
    ∧ (s.pvLine core (lineOf a) = none → (SMap.getD (s.core core).cache (cacheSet (lineOf a)) []).length < 16 →
      ∃ t m, exec (.homeSliceWrite crew gang 0) s = .next t ∧ KeptMem s t ∧ t.pvLine core (lineOf a) = some m ∧ m.dirty = true
        ∧ m.crew = crew ∧ ∀ i, i < 128 → SMap.getD m.data i 0 =
            if a % 128 ≤ i ∧ i < a % 128 + n then BitVec.ofNat 8 (v / 256 ^ (i - a % 128))
            else Memory.read t.mem (lineOf a * 128 + i)))
  ∧ (∀ crew gang s g e rest k op a n (v : W64), s.gang? crew gang = some g → g.buffer = e :: rest → AllRead s crew gang g e →
    e.op = .reduce k (.int op) n [(a, v)] → a % 128 + n ≤ 128 →
    ∃ t, exec (.homeSliceWrite crew gang 0) s = .next t
      ∧ match intOp op (8 * n) (Memory.readNat s.mem a n) v.toNat 0 with
        | some new => WroteBut s t a n new
        | none => KeptMem s t)

/-- R14, R207, R208: cache maintenance and prefetch store nothing: `lclean` and `lflush` over lines
without a PV page, `linv` over any lines, `pf`. -/
def Sys2Proof.Claims.CacheMaintenance : Prop :=
  (∀ a (i : BitVec 8) s x k ps, Issuing s x → Fresh s x → x.uslice = some k →
    let vas := (List.range (i.toNat + 1)).map (fun j => BitVec.ofNat 64 ((x.ubase k a).toNat / 128 * 128) + BitVec.ofNat 64 (128 * j))
    (s.rangePages x false vas = (.ok ps, s) → (∀ p ∈ ps, p.kind ≠ .pv) →
      Steps s x (exec (.lclean a i) s) x.g.regs ∧ Steps s x (exec (.lflush a i) s) x.g.regs)
    ∧ (s.rangePages x true vas = (.ok ps, s) →
      ∃ t, exec (.linv a i) s = .next t ∧ Went s x t x.g.regs ∧ SameMem s t
        ∧ ∀ p ∈ ps, p.local = true → t.pvLine x.c.core (lineOf p.pa) = none))
  ∧ (∀ d a w s x k, Issuing s x → Fresh s x → x.uslice = some k → Holds x [(d, 1)] →
    ∃ t, exec (.pf d a w) s = .next t ∧ Went s x t x.g.regs ∧ KeptMem s t)
  ∧ (∀ s x a i f w q d, Issuing s x → Fresh s x → x.uslice = none →
    (∀ y ∈ [Instr.lclean a i, .lflush a i, .linv a i, .lds d a f w], Steps s x (exec y s) x.g.regs)
    ∧ (∀ y ∈ [Instr.exld d a f q w, .cst d a q w], Steps s x (exec y s) x.g.regs))

/-! ## Atomics -/

/-- A lane's location of n bytes: aligned, on a page of kind SC or RC of this module, held translated. -/
def Sys2Proof.Claims.Located (s : State) (x : Ctx) (acc : Access) (a : BitVec 6) (l n : Nat) (p : Page) : Prop :=
  s.placeWord x acc none n n true (x.g.regs.getV2 a.toNat l) = (.ok p, s) ∧ p.remote = false ∧ p.pa % n = 0

/-- The integer atomics of 4 and of 8 bytes that return, with the new value from the old one and the operand (R257). -/
noncomputable def Sys2Proof.Claims.atomInts : List ((OpA → Instr) × (OpA → Instr) × (OpRed → Instr) × (OpRed → Instr) × (Nat → Nat → Nat → Nat)) :=
  [(.atomAdd, .atomAddN64, .redAdd, .redAddN64, fun w old b => (old + b) % 2 ^ w),
   (.atomAnd, .atomAndN64, .redAnd, .redAndN64, fun _ old b => old &&& b),
   (.atomOr, .atomOrN64, .redOr, .redOrN64, fun _ old b => old ||| b),
   (.atomXor, .atomXorN64, .redXor, .redXorN64, fun _ old b => old ^^^ b),
   (.atomMinS32, .atomMinS64, .redMinS32, .redMinS64, fun w old b =>
      if (BitVec.ofNat w b).toInt < (BitVec.ofNat w old).toInt then b else old),
   (.atomMaxS32, .atomMaxS64, .redMaxS32, .redMaxS64, fun w old b =>
      if (BitVec.ofNat w b).toInt < (BitVec.ofNat w old).toInt then old else b),
   (.atomMinN32, .atomMinN64, .redMinN32, .redMinN64, fun _ old b => min old b),
   (.atomMaxN32, .atomMaxN64, .redMaxN32, .redMaxN64, fun _ old b => max old b)]

/-- The floating atomics and reductions: size of the location and operation with its flags (R258). -/
noncomputable def Sys2Proof.Claims.atomFps : List ((OpA → Instr) × (OpRed → Instr) × Nat × (Nat → Nat → Nat × Nat)) :=
  let two := fun (f : Nat → Nat → Nat × Nat) (a b : Nat) => halves (fun u v _ => f u v) a b 0
  let low := fun (f : Nat → Nat → Nat × Nat) (a b : Nat) => f (a % 2 ^ 16) (b % 2 ^ 16)
  [(.atomAddF32, .redAddF32, 4, fpAdd .f32 {}), (.atomMinF32, .redMinF32, 4, fpMinMax .f32 {} false),
   (.atomMaxF32, .redMaxF32, 4, fpMinMax .f32 {} true),
   (.atomAddF64, .redAddF64, 8, fpAdd .f64 {}), (.atomMinF64, .redMinF64, 8, fpMinMax .f64 {} false),
   (.atomMaxF64, .redMaxF64, 8, fpMinMax .f64 {} true),
   (.atomAddBf16x2, .redAddBf16x2, 4, two (fpAdd .bf16 {})), (.atomMinBf16x2, .redMinBf16x2, 4, two (fpMinMax .bf16 {} false)),
   (.atomMaxBf16x2, .redMaxBf16x2, 4, two (fpMinMax .bf16 {} true)),
   (.atomAddH16x2, .redAddH16x2, 4, two (fpAdd .h16 {})), (.atomMinH16x2, .redMinH16x2, 4, two (fpMinMax .h16 {} false)),
   (.atomMaxH16x2, .redMaxH16x2, 4, two (fpMinMax .h16 {} true)),
   (.atomAddBf16, .redAddBf16, 2, low (fpAdd .bf16 {})), (.atomMinBf16, .redMinBf16, 2, low (fpMinMax .bf16 {} false)),
   (.atomMaxBf16, .redMaxBf16, 2, low (fpMinMax .bf16 {} true))]

/-- The operand of one lane of an atomic of n bytes. -/
def Sys2Proof.Claims.operandOf (x : Ctx) (n : Nat) (k : BitVec 1) (b : BitVec 6) (l : Nat) : Nat :=
  if n = 8 then (srcOf2 x.g.regs k b l).toNat else (srcOf x.g.regs k b l).toNat % 2 ^ (8 * n)

/-- What an atomic of one active lane leaves: the old value in d, the new one at the location and at no other byte, the
flags in `af`, every other register as it was. -/
def Sys2Proof.Claims.Swaps (s : State) (x : Ctx) (o : Out) (l : Nat) (p : Page) (n d regs flags : Nat) (new : Option Nat) : Prop :=
  ∃ t r, o = .next t ∧ Went s x t r ∧ r.s = x.g.regs.s ∧ r.p = x.g.regs.p ∧ r.lk = x.g.regs.lk ∧ r.mq = x.g.regs.mq
    ∧ r.mkr = x.g.regs.mkr ∧ r.te = x.g.regs.te ∧ r.af = x.g.regs.af ||| BitVec.ofNat 32 flags
    ∧ (∀ q i, i < 32 → r.getV q i = if i = l ∧ d ≤ q ∧ q < d + regs
        then BitVec.ofNat 32 (Memory.readNat s.mem p.pa n / 2 ^ (32 * (q - d))) else x.g.regs.getV q i)
    ∧ match new with | some v => WroteBut s t p.pa n v | none => KeptMem s t

/-- R250, R253, R255, R257, R258, R259: the atomics that return, on one active lane: the integer ones, exchange and
compare-and-swap at 4, 8 and 16 bytes, and the floating ones, which round to nearest even and set flags. -/
def Sys2Proof.Claims.Atomics : Prop :=
  (∀ e ∈ atomInts, ∀ (f : OpA) s x l p, Issuing s x → Fresh s x → x.lanes f.g.toNat = [l] →
    (Holds x ([(f.d, 1), (f.a, 2)] ++ bRegs f.k f.b 1) → Located s x .atomic f.a l 4 p →
      Swaps s x (exec (e.1 f) s) l p 4 f.d.toNat 1 0
        (some (e.2.2.2.2 32 (Memory.readNat s.mem p.pa 4) (operandOf x 4 f.k f.b l))))
    ∧ (Holds x ([(f.d, 2), (f.a, 2)] ++ bRegs f.k f.b 2) → Located s x .atomic f.a l 8 p →
      Swaps s x (exec (e.2.1 f) s) l p 8 f.d.toNat 2 0
        (some (e.2.2.2.2 64 (Memory.readNat s.mem p.pa 8) (operandOf x 8 f.k f.b l)))))
  ∧ (∀ (f : OpA) s x l p, Issuing s x → Fresh s x → x.lanes f.g.toNat = [l] →
    (Holds x ([(f.d, 1), (f.a, 2)] ++ bRegs f.k f.b 1) → Located s x .atomic f.a l 4 p →
      Swaps s x (exec (.atomXchg f) s) l p 4 f.d.toNat 1 0 (some (operandOf x 4 f.k f.b l))
      ∧ Swaps s x (exec (.atomCas f) s) l p 4 f.d.toNat 1 0
          (if Memory.readNat s.mem p.pa 4 = (x.g.regs.getV f.d.toNat l).toNat then some (operandOf x 4 f.k f.b l) else none))
    ∧ (Holds x ([(f.d, 2), (f.a, 2)] ++ bRegs f.k f.b 2) → Located s x .atomic f.a l 8 p →
      Swaps s x (exec (.atomXchgN64 f) s) l p 8 f.d.toNat 2 0 (some (operandOf x 8 f.k f.b l))
      ∧ Swaps s x (exec (.atomCasN64 f) s) l p 8 f.d.toNat 2 0
          (if Memory.readNat s.mem p.pa 8 = (x.g.regs.getV2 f.d.toNat l).toNat then some (operandOf x 8 f.k f.b l) else none)))
  ∧ (∀ g d a b s x l p, Issuing s x → Fresh s x → x.lanes g.toNat = [l] → Holds x [(d, 4), (a, 2), (b, 4)] →
    Located s x .atomic a l 16 p →
    Swaps s x (exec (.cas128 g d a b) s) l p 16 d.toNat 4 0
      (if Memory.readNat s.mem p.pa 16 = (x.g.regs.getV4 d.toNat l).toNat then some (x.g.regs.getV4 b.toNat l).toNat else none))
  ∧ (∀ e ∈ atomFps, ∀ (f : OpA) s x l p, Issuing s x → Fresh s x → x.lanes f.g.toNat = [l] →
    let regs := if e.2.2.1 = 8 then 2 else 1
    Holds x ([(f.d, regs), (f.a, 2)] ++ bRegs f.k f.b regs) → Located s x .atomic f.a l e.2.2.1 p →
    let v := e.2.2.2 (Memory.readNat s.mem p.pa e.2.2.1) (operandOf x e.2.2.1 f.k f.b l)
    Swaps s x (exec (e.1 f) s) l p e.2.2.1 f.d.toNat regs v.2 (some v.1))

/-- A no-return reduction of one active lane adds one entry to the store buffer, which the home slice performs (R256). -/
def Sys2Proof.Claims.Reduces (s : State) (x : Ctx) (o : Out) (p : Page) (n v : Nat) (new : Nat → Nat) : Prop :=
  ∃ op t, (∀ old, old < 2 ^ (8 * n) → (HomeOp.apply op n old v 0).1 = some (new old))
    ∧ o = .next t ∧ t = s.setGang x.crew x.gang (({ x.g with
        buffer := x.g.buffer ++ [{ slices := x.mask, op := .reduce p.kind op n [(p.pa, BitVec.ofNat 64 v)], scope := x.scope
                                   stamp := s.serial }] } : Gang).retire x)
    ∧ SameMem s t

/-- R256, R257, R258: the reductions that return nothing, on one active lane. -/
def Sys2Proof.Claims.Reductions : Prop :=
  (∀ e ∈ atomInts, ∀ (f : OpRed) s x l p, Issuing s x → Fresh s x → x.lanes f.g.toNat = [l] →
    (Holds x ([(f.a, 2)] ++ bRegs f.k f.b 1) → Located s x .atomic f.a l 4 p →
      Reduces s x (exec (e.2.2.1 f) s) p 4 (operandOf x 4 f.k f.b l) (fun old => e.2.2.2.2 32 old (operandOf x 4 f.k f.b l)))
    ∧ (Holds x ([(f.a, 2)] ++ bRegs f.k f.b 2) → Located s x .atomic f.a l 8 p →
      Reduces s x (exec (e.2.2.2.1 f) s) p 8 (operandOf x 8 f.k f.b l) (fun old => e.2.2.2.2 64 old (operandOf x 8 f.k f.b l))))
  ∧ (∀ e ∈ atomFps, ∀ (f : OpRed) s x l p, Issuing s x → Fresh s x → x.lanes f.g.toNat = [l] →
    Holds x ([(f.a, 2)] ++ bRegs f.k f.b (if e.2.2.1 = 8 then 2 else 1)) → Located s x .atomic f.a l e.2.2.1 p →
    Reduces s x (exec (e.2.1 f) s) p e.2.2.1 (operandOf x e.2.2.1 f.k f.b l)
      (fun old => (e.2.2.2 old (operandOf x e.2.2.1 f.k f.b l)).1))

/-- The reservation of a lane (R260). -/
def Sys2Proof.Claims.resvOf (t : State) (x : Ctx) (l : Nat) : Option (Nat × Nat) :=
  ((t.gang? x.crew x.gang).bind (fun g => SMap.find g.resv l)).map (fun r => (r.addr, r.width))

/-- R260, R261, R262, R264: `lres` reads a location and reserves it; `scond` stores and writes 0 when the lane holds that
reservation, else writes 1 and stores nothing, and gives the reservation up; `mon` arms a watch on the line. -/
def Obligations.Reservations : Prop :=
  (∀ (f : OpN) s x l p, Issuing s x → Fresh s x → x.lanes f.g.toNat = [l] → p.remote = false →
    (Holds x [(f.d, 1), (f.a, 2)] → s.placeWord x .read none 4 4 true (x.g.regs.getV2 f.a.toNat l) = (.ok p, s) →
      Swaps s x (exec (.lres32 f) s) l p 4 f.d.toNat 1 0 none
      ∧ ∀ t, exec (.lres32 f) s = .next t → resvOf t x l = some (p.pa, 4))
    ∧ (Holds x [(f.d, 2), (f.a, 2)] → s.placeWord x .read none 8 8 true (x.g.regs.getV2 f.a.toNat l) = (.ok p, s) →
      Swaps s x (exec (.lres64 f) s) l p 8 f.d.toNat 2 0 none
      ∧ ∀ t, exec (.lres64 f) s = .next t → resvOf t x l = some (p.pa, 8)))
  ∧ (∀ (wide : Bool) (f : OpA) s x l p, Issuing s x → Fresh s x → x.lanes f.g.toNat = [l] →
    let n := if wide then 8 else 4
    Holds x ([(f.d, 1), (f.a, 2)] ++ bRegs f.k f.b (if wide then 2 else 1)) → Located s x .atomic f.a l n p →
    ∃ t r, exec (if wide then .scond64 f else .scond32 f) s = .next t ∧ Went s x t r ∧ resvOf t x l = none
      ∧ LanesV x r f.g f.d (fun _ => if resvOf s x l = some (p.pa, n) then 0 else 1)
      ∧ if resvOf s x l = some (p.pa, n) then WroteBut s t p.pa n (operandOf x n f.k f.b l) else KeptMem s t)
  ∧ (∀ g a s x l p, Issuing s x → Fresh s x → x.lanes g.toNat = [l] → Holds x [(a, 2)] → p.remote = false →
    s.placeWord x .read none 1 1 true (x.g.regs.getV2 a.toNat l) = (.ok p, s) →
    (∀ w ∈ x.g.watches, w.slice ≠ l / 4) → s.watchCount (homeOf (lineOf p.pa * 128)) < 256 →
    ∃ t h, exec (.mon g a) s = .next t ∧ t.gang? x.crew x.gang = some h ∧ SameMem s t ∧ h.regs = x.g.regs
      ∧ h.watches = x.g.watches ++ [{ slice := l / 4, line := lineOf p.pa, fired := false }])

/-! ## Joining, waiting and fences -/

/-- The part waits at the first hint of its group, as R113 gives it; registers, buffer and memory are as they were. -/
def Sys2Proof.Claims.Waits (s : State) (x : Ctx) (o : Out) (code num operand : Nat) (mem : State → State → Prop := SameMem) : Prop :=
  ∃ t h, o = .next t ∧ t.gang? x.crew x.gang = some h ∧ h.regs = x.g.regs ∧ h.buffer = x.g.buffer
    ∧ (∀ k ∈ x.part, h.slice k = { x.g.slice k with
        pc := x.start, hints := [], remote := 0
        wait := some { code := code, num := num, operand := operand, since := s.clock, len := x.len } })
    ∧ (∀ k, k ∉ x.part → h.slice k = x.g.slice k)
    ∧ mem s t

/-- Some slice of the gang outside the part neither has exited nor waits at a barrier. -/
def Sys2Proof.Claims.OthersRun (x : Ctx) : Prop :=
  ∃ k, k < 8 ∧ k ∉ x.part ∧ (x.g.slice k).exited = false ∧ (x.g.slice k).wait = none

/-- The `s` registers are listed in rising order, none of them zero. -/
def Sys2Proof.Claims.SCanon (g : Gang) : Prop := g.regs.s.Pairwise (fun a b => a.1 < b.1) ∧ ∀ p ∈ g.regs.s, p.2 ≠ 0

/-- The live slices of a gang have become one part at pc, every copy of the `s` registers that of slice w (R152). -/
def Sys2Proof.Claims.Joined (g h : Gang) (w : Nat) (pc : W64) : Prop :=
  (∀ k ∈ g.liveSlices, (h.slice k).pc = pc ∧ (h.slice k).part = w ∧ (h.slice k).wait = none
      ∧ (h.slice k).mask = (g.slice k).mask ∧ (h.slice k).stack = (g.slice k).stack)
    ∧ (∀ k ∈ g.liveSlices, ∀ r, r < 64 → h.regs.getS k r = g.regs.getS w r)
    ∧ (h.regs.af = if ∃ k ∈ g.liveSlices, ∃ r, r < 64 ∧ g.regs.getS k r ≠ g.regs.getS w r then g.regs.af ||| flagUD else g.regs.af)
    ∧ h.regs.v = g.regs.v ∧ h.regs.p = g.regs.p ∧ h.regs.lk = g.regs.lk ∧ h.regs.te = g.regs.te

/-- R152: `regang` of the only part completes at once; of one of several parts it waits with code 12; REGANG_JOIN, with every
live slice waiting at one `regang`, joins them behind it: masks and stacks stay, the copies of the `s` registers become those
of the lowest live slice, and a difference sets the uniform-divergence flag. -/
def Sys2Proof.Claims.Regang : Prop :=
  (∀ s x w, Issuing s x → Fresh s x → SCanon x.g → x.part = x.g.liveSlices → x.part.head? = some w →
    ∃ t h, exec .regang s = .next t ∧ t = s.setGang x.crew x.gang h ∧ Joined x.g h w (x.pc + 4) ∧ SameMem s t)
  ∧ (∀ s x, Issuing s x → Fresh s x → OthersRun x → Waits s x (exec .regang s) 12 0 0)
  ∧ (∀ s crew gang g w pc u, s.gang? crew gang = some g → SCanon g → g.liveSlices.head? = some w → (g.slice w).wait = some u →
    (∀ k ∈ g.liveSlices, (g.slice k).waitKey = (12, 0) ∧ (g.slice k).pc = pc) →
    ∃ h, exec (.regangJoin crew gang) s = .next (s.setGang crew gang h) ∧ Joined g h w (pc + BitVec.ofNat 64 u.len))

/-- R263, R265: `mwait` goes on at once when nothing is armed, or when a watch has fired or an overflow bit is set, and then
disarms the part's slices; else the part waits with code 6. `bar` and `gbar` of one of several parts wait with codes 1 and
2 (R113, R271, R272), `yield` waits with code 11 while a stop is pending (R135), and `gbar` of a group that is not valid or not
named raises the group-membership fault. -/
def Sys2Proof.Claims.WaitingInstructions : Prop :=
  (∀ s x, Issuing s x → Fresh s x →
    let armed := x.g.watches.filter (fun w => x.part.contains w.slice)
    let lost := x.g.overflow &&& x.mask
    ((armed = [] ∨ (∃ w ∈ armed, w.fired = true) ∨ lost ≠ 0) →
      exec .mwait s = .next (s.setGang x.crew x.gang (({ x.g with
        watches := x.g.watches.filter (fun w => !x.part.contains w.slice)
        overflow := x.g.overflow &&& ~~~ x.mask } : Gang).retire x)))
    ∧ (armed ≠ [] → (∀ w ∈ armed, w.fired = false) → lost = 0 → Waits s x (exec .mwait s) 6 0 0))
  ∧ (∀ n s x, Issuing s x → Fresh s x → OthersRun x → Waits s x (exec (.bar n) s) 1 n.toNat 0)
  ∧ (∀ s x, Issuing s x → Fresh s x →
    (x.c.phase ≠ .stopping → Steps s x (exec .yield s) x.g.regs)
    ∧ (x.c.phase = .stopping → x.lanes 7 ≠ [] → Waits s x (exec .yield s) 11 0 0))
  ∧ (∀ a s x k e s1, Issuing s x → Fresh s x → x.uslice = some k →
    let n := (x.g.regs.getS k a.toNat).toNat % 256
    s.groupEntry x.unit x.c.asid n = (e, s1) →
    (∀ p w, e = some (p, w) → w.getLsbD 17 = true → n ∈ recGroups x.c.record → OthersRun x →
      Waits s x (exec (.gbar a) s) 2 n 0 (fun _ => SameMem s1))
    ∧ ((∀ p w, e = some (p, w) → w.getLsbD 17 = false ∨ n ∉ recGroups x.c.record) →
      exec (.gbar a) s = .next (s1.takeTrap x { kind := .groupMembership })))

/-- The fences with their kinds: 0 full, 1 acquire, 2 release. -/
noncomputable def Sys2Proof.Claims.fences : List ((BitVec 3 → Instr) × Nat) := [(.fence, 0), (.fenceAcq, 1), (.fenceRel, 2)]

/-- R266 to R269, R280: a fence keeps what a rollback restores, marks the store buffer and lets the part run on; scope 7 is
illegal; FENCE_COMPLETE ends it, after the buffered stores that stand before it and that its scope covers unless it is an acquire
fence, and leaves the others buffered; FENCE_ROLLBACK evicts a line that the part read past the fence, and puts the part back at
the fence with the registers of then.
Rests in part on the model's choices of notes/assumptions/9, 48. -/
def Obligations.Fences : Prop :=
  (∀ e ∈ fences, ∀ sc s x, Issuing s x → NoRecords x → (∀ f ∈ x.g.fences, f.slices &&& x.mask = 0) →
    (sc ≠ 7 → ∃ t f, exec (e.1 sc) s = .next t ∧ SameMem s t ∧ f.kind = e.2 ∧ f.scope = sc.toNat ∧ f.slices = x.mask
      ∧ f.regs = x.g.regs ∧ f.control = x.g.slices ∧ f.lines = [] ∧ f.rollbacks = 0
      ∧ t.gang? x.crew x.gang = some (({ x.g with
          fences := x.g.fences ++ [f]
          buffer := x.g.buffer ++ [{ slices := x.mask, op := .fence f.id, scope := sc.toNat, stamp := f.id }] } : Gang).retire x))
    ∧ (sc = 7 → exec (e.1 sc) s = .next (s.takeTrap x { kind := .illegalEncoding })))
  ∧ (∀ p s x f, s.ctxOf p.crew p.gang p.slice = some x → x.g.fences = [f] → f.slices = x.mask → x.mask ≠ 0 → f.back = false →
    x.g.loads = [] → (∀ q ∈ s.fills, q.ofPart p.crew p.gang x.mask = false) →
    (f.kind = 1 → ∃ t h, exec (.fenceComplete p) s = .next t ∧ SameMem s t ∧ t.gang? p.crew p.gang = some h ∧ h.fences = []
      ∧ h.regs = x.g.regs ∧ h.slices = x.g.slices)
    ∧ (f.kind ≠ 1 → ∀ e m, x.g.buffer = [e, m] → e.slices = x.mask → m.slices = x.mask → m.op = .fence f.id →
      (∀ a n v k, e.op = .write k (byteWrites a n v) → k ≠ .pv → 0 < n → a % 128 + n ≤ 128 → e.covered f.scope = true →
        ∃ t h, exec (.fenceComplete p) s = .next t ∧ WroteBut s t a n v ∧ t.gang? p.crew p.gang = some h ∧ h.fences = []
          ∧ h.buffer = [])
      ∧ ((∀ n, e.op ≠ .fence n) → e.covered f.scope = false →
        ∃ t h, exec (.fenceComplete p) s = .next t ∧ SameMem s t ∧ t.gang? p.crew p.gang = some h ∧ h.fences = []
          ∧ h.buffer = [e] ∧ h.regs = x.g.regs ∧ h.slices = x.g.slices)))
  ∧ (∀ p s x f, s.ctxOf p.crew p.gang p.slice = some x → x.g.fences = [f] → f.slices = x.mask → x.mask ≠ 0 → f.back = false → f.lines ≠ [] →
    ∃ t h, exec (.fenceRollback p) s = .next t ∧ KeptMem s t ∧ t.gang? p.crew p.gang = some h
      ∧ h.regs.af = f.regs.af ||| f.others
      ∧ (∀ k, k < 8 → k ∈ x.part → k < f.control.length → h.slice k = f.control.getD k {})
      ∧ (∀ k, k ∉ x.part → h.slice k = x.g.slice k)
      ∧ ∀ g ∈ h.fences, g.rollbacks = f.rollbacks + 1 ∧ g.lines = [] ∧ g.back = true)

/-- What a released barrier leaves of a slice that waits: it goes on behind its group. -/
def Sys2Proof.Claims.PassedSlice (old new : Slice) : Prop :=
  ∃ w, old.wait = some w ∧ new = { old with pc := old.pc + BitVec.ofNat 64 w.len, wait := none, hints := [], unchecked := false, remote := 0 }

/-- R109, R271, R272: BAR_RELEASE, with every live gang arrived, clears the mask, flips the parity and lets every slice go on;
GBAR_RELEASE, once arrived and exited members make up the group, raises the phase and clears the arrivals in the entry. -/
def Sys2Proof.Claims.BarrierReleases : Prop :=
  (∀ crew n s c, s.crew? crew = some c → n < 16 → c.phase = .running → c.liveGangs ≠ [] →
    (∀ q ∈ c.liveGangs, ∀ k ∈ q.2.liveSlices, (q.2.slice k).waitKey = (1, n)) →
    ∃ t d, exec (.barRelease crew n) s = .next t ∧ t = s.setCrew crew d
      ∧ SMap.getD d.barriers n (0, false) = (0, !(SMap.getD c.barriers n (0, false)).2)
      ∧ ∀ j g, SMap.find c.gangs j = some g → ∃ h, SMap.find d.gangs j = some h ∧ h.regs = g.regs
        ∧ (∀ k ∈ g.liveSlices, PassedSlice (g.slice k) (h.slice k)) ∧ ∀ k, k ∉ g.liveSlices → h.slice k = g.slice k)
  ∧ (∀ asid group s crew c p w, s.crews.find? (fun q => q.2.asid == asid && (recGroups q.2.record).contains group) = some (crew, c) →
    ∀ s1, s.groupEntry (.cellarer (dieOfCore c.core)) asid group = (some (p, w), s1) → w.getLsbD 17 = true →
    let members := (w.extractLsb' 0 16).toNat
    let phase := (w.extractLsb' 32 32).toNat
    let arrived := (w.extractLsb' 64 16).toNat
    let exited := (w.extractLsb' 96 16).toNat
    0 < arrived → members ≤ arrived + exited → p.pa % 16 = 0 →
    ∃ t, exec (.gbarRelease asid group) s = .next t
      ∧ Memory.readNat t.mem (p.pa + 4) 4 = (phase + 1) % 2 ^ 32 ∧ Memory.readNat t.mem (p.pa + 8) 2 = 0
      ∧ ∀ b, (b < p.pa + 4 ∨ p.pa + 16 ≤ b) →
        Memory.read t.mem b = Memory.read s1.mem b ∨ PvByte s1 b (Memory.read t.mem b))

/-- The wakes of waits that a condition ends, with the code of their wait (R113). -/
noncomputable def Sys2Proof.Claims.wakes : List ((PartRef → Instr) × Nat) :=
  [(.mwaitWake, 6), (.seqwaitWake, 5), (.ringRoomWake, 4), (.taskQueueRoomWake, 9), (.coprocessorQueueRoom, 8)]

/-- Slices of a part stand ready to issue their instruction again. -/
def Sys2Proof.Claims.Woken (x : Ctx) (h : Gang) : Prop :=
  h.regs = x.g.regs ∧ (∀ k ∈ x.part, h.slice k = { x.g.slice k with wait := none }) ∧ ∀ k, k ∉ x.part → h.slice k = x.g.slice k

/-- R113, R131, R221, R265, R342, R378, R389, R455: a wake ends the wait of its code when the wait's condition holds, and
leaves the part to issue its instruction again; while the condition does not hold it leaves everything as it is. The data of a
load in flight go to its destination. The outcome of a remote access, or the end of its time, is kept for that issue. A token that
the array holds goes to the crew; a tile freed meanwhile ends the wait without one. -/
def Sys2Proof.Claims.Wakes : Prop :=
  (∀ e ∈ wakes, ∀ p s x w, s.ctxOf p.crew p.gang p.slice = some x → (x.g.slice x.low).wait = some w → w.code = e.2 →
    x.c.phase = .running →
    (s.waitHolds p.crew x.c x.g x.low = true →
      ∃ h, exec (e.1 p) s = .next (s.setGang p.crew p.gang h) ∧ Woken x h)
    ∧ (s.waitHolds p.crew x.c x.g x.low = false → exec (e.1 p) s = .next s))
  ∧ (∀ p s x w, s.ctxOf p.crew p.gang p.slice = some x → (x.g.slice x.low).wait = some w → w.code = 3 → w.num = 1 →
    (x.g.slice x.low).remote = 0 → x.g.loads = [] → ∀ n,
    ∃ t u h j r, exec (.loadDataArrival ⟨p, n⟩) s = .next t ∧ exec (.completionTimeout p) s = .next u ∧ SameMem s t ∧ SameMem s u
      ∧ t.gang? p.crew p.gang = some h ∧ u.gang? p.crew p.gang = some j ∧ (r = 1 ∨ r = 3)
      ∧ (∀ k ∈ x.part, h.slice k = { x.g.slice k with wait := none, remote := r } ∧ j.slice k = { x.g.slice k with wait := none, remote := 2 })
      ∧ h.regs = x.g.regs ∧ j.regs = x.g.regs)
  ∧ (∀ p s x f l a n k d w, s.ctxOf p.crew p.gang p.slice = some x → x.c.phase = .running → x.g.loads = [f] → f.slices = x.mask →
    x.mask ≠ 0 → f.failed = none → (∀ q ∈ s.fills, q.ofPart p.crew p.gang x.mask = false) → f.lanes = [l] → l.whole = true →
    l.lane < 32 → 0 < n → l.bytes = (List.range n).map (fun i => { addr := a + i, kind := k }) → k ≠ .pv → f.dest = .plain d w →
    ∃ t h, exec (.loadDataArrival ⟨p, 0⟩) s = .next t ∧ SameMem s t ∧ t.gang? p.crew p.gang = some h ∧ h.loads = []
      ∧ (∀ q i, i < 32 → h.regs.getV q i = if i = l.lane ∧ d ≤ q ∧ q < d + (if w = 4 then 4 else if w = 3 then 2 else 1)
          then BitVec.ofNat 32 (Memory.readNat s.mem a n / 2 ^ (32 * (q - d))) else x.g.regs.getV q i)
      ∧ h.regs.s = x.g.regs.s ∧ h.regs.p = x.g.regs.p
      ∧ ∀ j, j < x.g.slices.length → ∀ u, (x.g.slice j).wait = some u → u.code = 3 → u.num = 5 → (h.slice j).wait = none)
  ∧ (∀ p s x w a, s.ctxOf p.crew p.gang p.slice = some x → (x.g.slice x.low).wait = some w → w.code = 13 → x.c.phase = .running →
    s.acc? (clusterOfCore x.c.core) x.c.asid w.operand = some a →
    (a.id ≠ w.num → ∃ h, exec (.tokenAcquire p) s = .next (s.setGang p.crew p.gang h) ∧ Woken x h)
    ∧ (a.id = w.num → a.token = none →
    ∃ t h, exec (.tokenAcquire p) s = .next t ∧ t.gang? p.crew p.gang = some h ∧ Woken x h
      ∧ ∃ b, SMap.find (t.cluster (clusterOfCore x.c.core)).accs (w.operand % 1024) = some b ∧ b.token = some p.crew ∧ b.data = a.data))
  ∧ (∀ p s x h, s.ctxOf p.crew p.gang p.slice = some x → (s.core x.c.core).held = [h] → h.1 = .part p →
    32 ≤ (s.core x.c.core).filter.length → exec (.filterEntryFreeWake p) s = .next s)
  ∧ (∀ p s x w q leaf, s.ctxOf p.crew p.gang p.slice = some x → x.pageWait = some w → w.num = 0 →
    (s.core x.c.core).held = [(.part p, [(x.c.asid, q, 1, leaf)])] → (s.core x.c.core).filter = [] →
    ∃ t, exec (.filterEntryFreeWake p) s = .next t ∧ SameMem s t ∧ (t.core x.c.core).held = []
      ∧ (t.core x.c.core).filter = [{ asid := x.c.asid, page := q, union := 1, waiters := [.part p] }])

/-! ## Tiles -/

/-- The active lanes lie in one slice. -/
def Sys2Proof.Claims.OneSlice (x : Ctx) (k : Nat) : Prop := x.lanes 7 ≠ [] ∧ ∀ l ∈ x.lanes 7, l / 4 = k

/-- Every tile but that of a slot is as it was. -/
def Sys2Proof.Claims.OtherTiles (s t : State) (q : Slot) : Prop := ∀ r, r ≠ q → t.tileOf r = s.tileOf r

/-- `s` register d of slice k alone has become v. -/
def Sys2Proof.Claims.SliceS (x : Ctx) (r : Regs) (k : Nat) (d : BitVec 6) (v : W32) : Prop :=
  OnlyS x.g.regs r d.toNat 1 ∧ ∀ j, j < 8 → r.getS j d.toNat = if j = k then v else x.g.regs.getS j d.toNat

/-- R236, R237, R238, R246: `talloc` takes a free handle for a tile of zeros, and reports a lack of banks or of table entries
without taking it; `tfree` frees a tile that no fill is pending on; `tfill` makes it pending, and TFILL_COMPLETE loads it from
memory; `tquery` reports it; `tflush` of a tile with a pending fill waits. -/
def Obligations.TileManagement : Prop :=
  (∀ d a b s x k, Issuing s x → Fresh s x → OneSlice x k →
    let v := x.view k a
    let e := (x.g.regs.getS k b.toNat).toNat
    v.zero = true → v.level = 0 → e % 16 ≤ 9 → e / 16 % 32 ≤ 9 → e / 512 = 0 → s.tileOf (.core x.crew v.index) = none →
    (s.banksUsed x.c.core + 2 ^ (e % 16) ≤ 512 → s.entriesUsed x.c.core < 1024 →
      ∃ t r tl, exec (.talloc d a b) s = .next t ∧ SliceS x r k d 0 ∧ Went s x t r ∧ SameMem s t
        ∧ t.tileOf (.core x.crew v.index) = some tl ∧ tl.k = e % 16 ∧ tl.fmt = e / 16 % 32 ∧ tl.mode = v.mode ∧ tl.data = []
        ∧ tl.reads = 0 ∧ tl.pending = 0 ∧ tl.filled = false ∧ OtherTiles s t (.core x.crew v.index))
    ∧ (512 < s.banksUsed x.c.core + 2 ^ (e % 16) →
      ∃ r, Steps s x (exec (.talloc d a b) s) r ∧ SliceS x r k d 1))
  ∧ (∀ a s x k q tl, Issuing s x → Fresh s x → OneSlice x k → (x.view k a).level ≤ 1 →
    s.viewSlot x (x.view k a) false = .ok q → s.tileOf q = some tl →
    (tl.pending = 0 → ∃ t, exec (.tfree a) s = .next t ∧ Went s x t x.g.regs ∧ t.tileOf q = none ∧ OtherTiles s t q ∧ SameMem s t)
    ∧ (tl.pending ≠ 0 → Waits s x (exec (.tfree a) s) 3 2 (x.view k a).handle)
    ∧ (∀ d, tl.pending ≠ 0 → vaNat (x.g.regs.getS2 k d.toNat) % 128 = 0 →
        Waits s x (exec (.tflush d a) s) 3 2 (x.view k a).handle))
  ∧ (∀ d a s x k q tl ps, Issuing s x → Fresh s x → OneSlice x k → (x.view k a).level ≤ 1 →
    s.viewSlot x (x.view k a) false = .ok q → s.tileOf q = some tl → tl.pending = 0 →
    let va := x.g.regs.getS2 k d.toNat
    vaNat va % 128 = 0 → s.tileRange x .write va (2 ^ tl.k * 1024) = (.ok ps, s) →
    let n := 2 ^ tl.k * 1024
    let w : LaneWrite := { lane := 0, va := va, size := n, writes := .ok (pieceWrites ps ((List.range n).map (fun o => SMap.getD tl.data o 0)), 0) }
    exec (.tflush d a) s = .next (s.setGang x.crew x.gang (({ x.g with
      buffer := x.g.buffer ++ storeEntries x 0 s.serial false [] [w] } : Gang).retire x)))
  ∧ (∀ d a b s x k q tl ps, Issuing s x → Fresh s x → OneSlice x k → (x.view k a).level ≤ 1 →
    s.viewSlot x (x.view k a) false = .ok q → s.tileOf q = some tl → (x.g.regs.getS k b.toNat).toNat < 2 ^ 16 →
    let va := x.g.regs.getS2 k d.toNat
    vaNat va % 128 = 0 → s.tileRange x .read va (2 ^ tl.k * 1024) = (.ok ps, s) →
    ∃ t f, exec (.tfill d a b) s = .next t ∧ Went s x t x.g.regs ∧ SameMem s t
      ∧ t.tileOf q = some { tl with pending := tl.pending + 1 } ∧ t.fills = s.fills ++ [f] ∧ f.slot = q
      ∧ f.part = some (x.crew, x.gang, x.mask) ∧ f.stamp = s.serial ∧ f.data = none
      ∧ f.reads = (x.g.regs.getS k b.toNat).toNat ∧ f.spans = ps.map spanOf)
  ∧ (∀ s f rest c pa len tl, s.fills = f :: rest → f ∉ rest → f.crew = some c → f.data = none →
    (∀ c g k y, f.part = some (c, g, k) → s.gang? c g = some y → y.loads = []) → f.spans = [{ pa := pa, len := len, peer := none, pv := false }] →
    pa + len ≤ 2 ^ 39 → s.tileOf f.slot = some tl →
    ∃ t u, exec (.tfillComplete 0) s = .next t ∧ KeptMem s t ∧ t.fills = rest ∧ t.tileOf f.slot = some u ∧ u.filled = true
      ∧ u.pending = tl.pending - 1 ∧ u.reads = f.reads ∧ u.k = tl.k ∧ u.fmt = tl.fmt ∧ u.mode = tl.mode
      ∧ ∀ o, o < len → SMap.getD u.data o 0 = Memory.read s.mem (pa + o))
  ∧ (∀ f s x l rest, Issuing s x → Fresh s x → x.lanes f.g.toNat = l :: rest →
    let v := x.view (l / 4) f.a
    v.zero = true → v.level ≤ 1 →
    ∃ r, Steps s x (exec (.tquery f) s) r ∧ SlicesS x r f.g f.d (fun _ =>
      match s.tileOf (x.slot v) with
      | some tl => BitVec.ofNat 32 (1 + (if tl.pending = 0 then 0 else 2) + (if tl.filled then 4 else 0) + 8 * tl.k + 128 * tl.fmt
          + 4096 * tl.mode + 65536 * tl.reads)
      | none => 0))

/-- One active lane's element of z bits of a tile: its slot, its tile without a count of reads, its index in range. -/
def Sys2Proof.Claims.OneElem (s : State) (x : Ctx) (g : BitVec 3) (a : BitVec 6) (c : W32) (accs : Bool) (l z : Nat) (q : Slot) (tl : Tile)
    (e : Nat) : Prop :=
  x.lanes g.toNat = [l] ∧ s.viewSlot x (x.view (l / 4) a) accs = .ok q ∧ s.tileOf q = some tl ∧ tl.reads = 0 ∧ tl.pending = 0
    ∧ (x.view (l / 4) a).elem c = (e : Int) ∧ (e + 1) * z ≤ 2 ^ tl.k * 1024 * 8

/-- A tile access of a lane wrote n bytes of v at offset o of a slot, and nothing else but the step to the next word and flags;
`made` is the predicate that says that the access was made, if it has one. -/
def Sys2Proof.Claims.TileWrote (s : State) (x : Ctx) (out : Out) (q : Slot) (o n v flags : Nat) (made : Option (Nat × Nat) := none) :
    Prop :=
  ∃ t r, out = .next t ∧ Went s x t r ∧ r.v = x.g.regs.v ∧ r.s = x.g.regs.s
    ∧ (∀ j i, j < 8 → i < 32 → r.getP j i = if made = some (j, i) ∧ j ≠ 7 then false else x.g.regs.getP j i)
    ∧ r.af = x.g.regs.af ||| BitVec.ofNat 32 flags ∧ SameMem s t ∧ OtherTiles s t q
    ∧ ∀ j, t.slotByte q j = if o ≤ j ∧ j < o + n then BitVec.ofNat 8 (v / 256 ^ (j - o)) else s.slotByte q j

/-- A word of a tile, little-endian. -/
def Sys2Proof.Claims.tileNat (s : State) (q : Slot) (o n : Nat) : Nat := bytesNat ((List.range n).map (fun i => s.slotByte q (o + i)))

/-- R235, R239, R247, R248: tile loads and stores of one lane, at the element that its view gives; decoding forms convert as
R247 says, under the tile's format; remote forms reach the tile of a member of the group, and of a member that has exited read
zero with the flag set and store nothing; where the access is made the flag is cleared. -/
def Sys2Proof.Claims.TileAccess : Prop :=
  (∀ g k (w : BitVec 2) d a b s x l q tl e, Issuing s x → Fresh s x → Holds x ([(d, if w = 3 then 2 else 1)] ++ bRegs k b 1) →
    let n := 2 ^ w.toNat
    OneElem s x g a (srcOf x.g.regs k b l) (w == 2) l (8 * n) q tl e →
    (∃ r, Steps s x (exec (.tld g k w d a b) s) r
      ∧ if w = 3 then LanesV2 x r g d (fun _ => BitVec.ofNat 64 (tileNat s q (e * n) n))
        else LanesV x r g d (fun _ => BitVec.ofNat 32 (tileNat s q (e * n) n)))
    ∧ TileWrote s x (exec (.tst g k w d a b) s) q (e * n) n
        (if w = 3 then (x.g.regs.getV2 d.toNat l).toNat else (x.g.regs.getV d.toNat l).toNat) 0)
  ∧ (∀ (f : OpA) s x l q tl e, Issuing s x → Fresh s x → x.fmtHint = none →
    let ty := tileType f
    let z := if tl.fmt = 0 then ty.bits else elemBits tl.fmt
    Holds x [(f.d, if ty.wide then 2 else 1), (f.b, 1)] → 8 ≤ z → tl.fmt ≤ 9 →
    OneElem s x f.g f.a (x.g.regs.getV f.b.toNat l) (decide (ty = .fp .f32)) l z q tl e →
    let code := tileNat s q (e * (z / 8)) (z / 8)
    let got := if tl.fmt = 0 then (code, 0) else convert ty {} (linearValue tl.fmt code)
    let src := if ty.wide then (x.g.regs.getV2 f.d.toNat l).toNat else (x.g.regs.getV f.d.toNat l).toNat
    let put := if tl.fmt = 0 then (src, 0) else linearCode tl.fmt x.rnd (ty.source x.rnd src)
    (∃ r, StepsFlags s x (exec (.tlde f) s) r (BitVec.ofNat 32 got.2)
      ∧ if ty.wide then LanesV2 x r f.g f.d (fun _ => BitVec.ofNat 64 got.1) else LanesV x r f.g f.d (fun _ => BitVec.ofNat 32 got.1))
    ∧ TileWrote s x (exec (.tste f) s) q (e * (z / 8)) (z / 8) put.1 put.2)
  ∧ (∀ (f : OpA) s x l, Issuing s x → Fresh s x → x.lanes f.g.toNat = [l] → Holds x ([(f.d, 1)] ++ bRegs f.k f.b 1) →
    let flag := (x.view (l / 4) f.a).fourth.toNat / 2 ^ 12 % 8
    (∀ q o e tl, s.remoteElem x f.a (srcOf x.g.regs f.k f.b) l = .ok (some q, o, ((e : Nat) : Int)) → s.tileOf q = some tl →
      tl.reads = 0 → tl.pending = 0 → (e + 1) * 32 ≤ 2 ^ tl.k * 1024 * 8 →
      (∃ t r, exec (.tldg f) s = .next t ∧ Went s x t r ∧ SameMem s t
        ∧ LoadRegs x r (x.on f.g.toNat) (x.on f.g.toNat) f.d.toNat 1 flag false (fun _ => tileNat s q (4 * e) 4))
      ∧ TileWrote s x (exec (.tstg f) s) q (4 * e) 4 (x.g.regs.getV f.d.toNat l).toNat 0 (some (flag, l)))
    ∧ (∀ o e, s.remoteElem x f.a (srcOf x.g.regs f.k f.b) l = .ok (none, o, e) →
      (∃ t r, exec (.tldg f) s = .next t ∧ Went s x t r ∧ SameMem s t
        ∧ LoadRegs x r (x.on f.g.toNat) (x.on f.g.toNat) f.d.toNat 1 flag true (fun _ => 0))
      ∧ StepsFlags s x (exec (.tstg f) s) x.g.regs flagAT))

/-- R327, R342: `macq` takes a token that the array holds, and waits with code 13 while another crew holds it; `mrel` gives it
back; an `mrel` of a token that the crew does not hold raises the accumulator-token fault, and so does, with illegal-handle, a
`macq` whose tile was freed while it waited. -/
def Sys2Proof.Claims.Tokens : Prop :=
  ∀ a s x k c, Issuing s x → Fresh s x → OneSlice x k →
    let h := (x.view k a).handle
    let cl := clusterOfCore x.c.core
    s.acc? cl x.c.asid h = some c →
    ((x.g.slice x.low).remote = 4 → exec (.macq a) s = .next (s.takeTrap x { kind := .illegalHandle }))
    ∧ ((x.g.slice x.low).remote ≠ 4 → c.token = none → ∃ t, exec (.macq a) s = .next t ∧ Went s x t x.g.regs ∧ SameMem s t
      ∧ SMap.find (t.cluster cl).accs (h % 1024) = some { c with token := some x.crew })
    ∧ (c.token = some x.crew → ((x.g.slice x.low).remote ≠ 4 → Steps s x (exec (.macq a) s) x.g.regs)
      ∧ ∃ t, exec (.mrel a) s = .next t ∧ Went s x t x.g.regs ∧ SameMem s t
        ∧ SMap.find (t.cluster cl).accs (h % 1024) = some { c with token := none })
    ∧ (∀ o, (x.g.slice x.low).remote ≠ 4 → c.token = some o → o ≠ x.crew → Waits s x (exec (.macq a) s) 13 c.id h)
    ∧ (c.token ≠ some x.crew → exec (.mrel a) s = .next (s.takeTrap x { kind := .accumulatorToken }))

/-! ## Work -/

/-- No store of the gang is buffered, and no WS tag stands: what a release performs has been performed. -/
def Sys2Proof.Claims.Settled (s : State) (x : Ctx) : Prop := x.g.buffer = [] ∧ s.wsTags = []

/-- The part has gone to the next word with registers r; line requests may have evicted lines. -/
def Sys2Proof.Claims.Moves (s : State) (x : Ctx) (o : Out) (r : Regs) : Prop := ∃ t, o = .next t ∧ Went s x t r ∧ KeptMem s t

/-- A record that R103 sends to a class queue. -/
def Sys2Proof.Claims.ClassRecord (r : BitVec 512) : Prop := recService r = false ∧ recTilesN r = 0 ∧ recCoresident r = false

/-- Records have entered the class queue of the part's die at its tail; memory is as in w. -/
def Sys2Proof.Claims.Enqueues (s w : State) (x : Ctx) (o : Out) (key : Nat) (addr : W64) (rs : List (BitVec 512)) : Prop :=
  ∃ t l, o = .next t ∧ Went s x t x.g.regs ∧ SameMem w t
    ∧ SMap.getD (t.die x.die).queues key [] = SMap.getD (s.die x.die).queues key [] ++ l ∧ l.map (·.record) = rs
    ∧ ∀ q ∈ l, q.recptr = addr ∧ q.asid = x.c.asid ∧ q.guest = x.c.guest ∧ q.crew = none

/-- R103, R131, R132: `launch` enqueues a copy of the record, `spawn` one for each active lane with that lane's arg1, in
lane order, when the queue has room for all of them, and else wait with code 9; an address that is not a multiple of 64 raises
the malformed-record fault, and a record that R100 refuses raises the fault of the check. -/
def Obligations.LaunchAndSpawn : Prop :=
  ∀ a d s x k, Issuing s x → Fresh s x → Settled s x → x.hint 5 = none → x.uslice = some k → Holds x [(d, 2)] →
    let addr := x.g.regs.getS2 k a.toNat
    let i := Instr.launch a
    let j := Instr.spawn { d := d, a := a }
    (addr.toNat % 64 ≠ 0 → exec i s = .next (s.takeTrap x { kind := .malformedRecord })
      ∧ exec j s = .next (s.takeTrap x { kind := .malformedRecord }))
    ∧ (∀ r ts c u w, addr.toNat % 64 = 0 → s.readRecord x.unit x.c.asid addr = (.ok (r, ts), u) →
      u.checkRecord x.die x.c.asid (recService x.c.record) r ts = (some c, w) →
      exec i s = .next (w.takeTrap x { kind := c }) ∧ exec j s = .next (w.takeTrap x { kind := c }))
    ∧ (∀ r ts u w, addr.toNat % 64 = 0 → s.readRecord x.unit x.c.asid addr = (.ok (r, ts), u) →
      u.checkRecord x.die x.c.asid (recService x.c.record) r ts = (none, w) → ClassRecord r →
      let key := 4 * x.c.guest + recClass r
      let room := fun n => ((SMap.getD (s.die x.die).queues key []).filter (fun q => q.crew.isNone)).length + n ≤ 2 ^ (s.die x.die).cls2
      let n := (x.lanes 7).length
      (room 1 → Enqueues s w x (exec i s) key addr [r])
      ∧ (¬ room 1 → Waits s x (exec i s) 9 (1 + 64 * 4) addr.toNat (fun _ => SameMem w))
      ∧ (room n → Enqueues s w x (exec j s) key addr
          ((x.lanes 7).map (fun l => x.g.regs.getV2 d.toNat l ++ r.extractLsb' 0 448)))
      ∧ (¬ room n → Waits s x (exec j s) 9 (n + 64 * 4) addr.toNat (fun _ => SameMem w)))

/-- R133: `jcnt` lowers the counter, writes the new count to every slice, and hands the record to the Cellarer at zero; a
counter below the amount raises join-underflow and stays. -/
def Sys2Proof.Claims.JoinCounter : Prop :=
  ∀ d a (imm : BitVec 8) s x k p, Issuing s x → Fresh s x → Settled s x → x.hint 0 = none → x.uslice = some k →
    let addr := x.g.regs.getS2 k a.toNat
    (imm = 0 → exec (.jcnt d a imm) s = .next (s.takeTrap x { kind := .illegalEncoding }))
    ∧ (imm ≠ 0 → addr.toNat % 64 ≠ 16 → exec (.jcnt d a imm) s = .next (s.takeTrap x { kind := .malformedRecord }))
    ∧ (imm ≠ 0 → addr.toNat % 64 = 16 → s.placeWord x .write (some (.int .add)) 4 1 false addr = (.ok p, s) → p.local = true → p.pa % 4 = 0 →
      let old := Memory.readNat s.mem p.pa 4
      (old < imm.toNat → exec (.jcnt d a imm) s = .next (s.takeTrap x { kind := .joinUnderflow }))
      ∧ (imm.toNat ≤ old → ∃ t r, exec (.jcnt d a imm) s = .next t ∧ Went s x t r
          ∧ SlicesS x r 7 d (fun _ => BitVec.ofNat 32 (old - imm.toNat)) ∧ WroteBut s t p.pa 4 (old - imm.toNat)
          ∧ (imm.toNat < old → (t.die x.die).pushes = (s.die x.die).pushes)
          ∧ (old = imm.toNat → ∃ q, (t.die x.die).pushes = (s.die x.die).pushes ++ [q] ∧ q.addr = addr - 16 ∧ q.asid = x.c.asid
              ∧ q.service = recService x.c.record)))

/-- R134, R136, R139: `exit` retires the active lanes, and they leave the mask and the stack of their slice; a slice without a live lane has exited; the exit of the last lanes of a crew
leaves it to CREW_EXIT_COMPLETE. `gquery` reports a group's members, flags and place in the crew's record. -/
def Sys2Proof.Claims.ExitAndQuery : Prop :=
  (∀ s x, Issuing s x → Fresh s x → OthersRun x →
    ∃ h, exec .exit_ s = .next (s.setGang x.crew x.gang h) ∧ h.regs = x.g.regs
      ∧ (∀ k ∈ x.part, (h.slice k).live = (x.g.slice k).live &&& ~~~ (x.g.slice k).mask
          ∧ ((h.slice k).exited = true ↔ (x.g.slice k).live &&& ~~~ (x.g.slice k).mask = 0) ∧ (h.slice k).pc = x.pc + 4
          ∧ (h.slice k).mask = (x.g.slice k).mask &&& (h.slice k).live
          ∧ ∀ e ∈ (h.slice k).stack, e.mask &&& ~~~ (h.slice k).live = 0)
      ∧ ∀ k, k ∉ x.part → h.slice k = x.g.slice k)
  ∧ (∀ s x, Issuing s x → Fresh s x → x.part = x.g.liveSlices → x.c.gangs = [(x.gang, x.g)] → x.c.phase = .running →
    (∀ k ∈ x.part, (x.g.slice k).live &&& ~~~ (x.g.slice k).mask = 0) →
    ∃ t c, exec .exit_ s = .next t ∧ t.crew? x.crew = some c ∧ c.phase = .exited ∧ SameMem s t)
  ∧ (∀ f s x k e s1, Issuing s x → Fresh s x → x.uslice = some k →
    let n := (x.g.regs.getS k f.a.toNat).toNat % 256
    s.groupEntry x.unit x.c.asid n = (e, s1) →
    ∃ t r, exec (.gquery f) s = .next t ∧ Went s x t r ∧ SameMem s1 t ∧ SlicesS x r 7 f.d (fun _ =>
      match e with
      | some (_, w) => if w.getLsbD 17 then
          BitVec.ofNat 32 ((w.extractLsb' 0 18).toNat + match (List.range 4).find? (fun i => recGroup x.c.record i == n) with
            | some i => 2 ^ 18 + 2 ^ 19 * i
            | none => 0) else 0
      | none => 0))

/-! ## Queues -/

/-- An `s` pair of every slice of the part has become v. -/
def Sys2Proof.Claims.SlicesS2 (x : Ctx) (r : Regs) (d : BitVec 6) (v : W64) : Prop :=
  OnlyS x.g.regs r d.toNat 2 ∧ ∀ j, j < 8 → r.getS2 j d.toNat = if j ∈ x.part then v else x.g.regs.getS2 j d.toNat

/-- A location of a queue instruction: held translated, in this module's DRAM, aligned to its size. -/
def Sys2Proof.Claims.Queueable (s : State) (x : Ctx) (addr : W64) (n : Nat) (op : Option HomeOp) (p : Page) : Prop :=
  s.placeWord x .atomic op n n true addr = (.ok p, s) ∧ p.local = true ∧ p.pa % n = 0

/-- The state in which a queue instruction reads the n bytes of its location: the line request has reached the home slice. -/
def Sys2Proof.Claims.asked (s : State) (x : Ctx) (p : Page) (n : Nat) : State := s.requestRead [(p, n)] x.writer

/-- No core holds a changed copy of the line of an address. -/
def Sys2Proof.Claims.NoPvCopy (s : State) (a : Nat) : Prop := ∀ c l, s.pvLine c (lineOf a) = some l → l.dirty = false

/-- An entry stands in its slot of a ring without growth, as state u holds the ring, the tail has risen by one, and every other byte
is kept; a full ring makes the part wait with code 4. -/
def Sys2Proof.Claims.Pushes (s u : State) (x : Ctx) (o : Out) (addr : W64) (p : Page) (entry : W64) : Prop :=
  let size := 2 ^ (Memory.readNat u.mem (p.pa + 48) 4 % 32)
  let base := Memory.readNat u.mem p.pa 8
  let tail := Memory.readNat u.mem (p.pa + 8) 8
  let head := Memory.readNat u.mem (p.pa + 16) 8
  (size ≤ tail - head → Waits s x o 4 0 addr.toNat (fun _ => KeptMem u))
  ∧ (tail - head < size → ∀ a : Page, u.translate x.unit x.c.asid (BitVec.ofNat 64 (base + 8 * (tail % size))) .write = (.ok a, u) →
      a.local = true → a.pa % 8 = 0 → (a.pa + 8 ≤ p.pa ∨ p.pa + 64 ≤ a.pa) → NoPvCopy u a.pa →
      ∃ t, o = .next t ∧ Went s x t x.g.regs ∧ Memory.readNat t.mem a.pa 8 = entry.toNat
        ∧ Memory.readNat t.mem (p.pa + 8) 8 = (tail + 1) % 2 ^ 64
        ∧ ∀ b, (b < a.pa ∨ a.pa + 8 ≤ b) → (b < p.pa + 8 ∨ p.pa + 16 ≤ b) →
            Memory.read t.mem b = Memory.read u.mem b ∨ PvByte u b (Memory.read t.mem b))

/-- R356, R376 to R379: `qpush` appends an entry at the ring's tail; `qtail` moves a tail, never backwards and never past
the entries; the submissions append a well-formed block's address with the crew's class. A descriptor or a block that is
malformed raises the malformed-command fault. -/
def Sys2Proof.Claims.RingWrites : Prop :=
  (∀ f s x k p, Issuing s x → Fresh s x → Settled s x → x.uslice = some k →
    let addr := x.g.regs.getS2 k f.a.toNat
    let v := x.g.regs.getS2 k f.d.toNat
    let u := asked s x p 64
    let ctl := Memory.readNat u.mem (p.pa + 48) 4
    Queueable s x addr 64 none p →
    (pushBad ctl v = true → exec (.qpush f) s = .next (u.takeTrap x { kind := .malformedCommand }))
    ∧ (pushBad ctl v = false → ctl.testBit 5 = false → KeptMem s u ∧ Pushes s u x (exec (.qpush f) s) addr p v)
    ∧ (let tail := Memory.readNat u.mem (p.pa + 8) 8
       let head := Memory.readNat u.mem (p.pa + 16) 8
       ((v.toNat < tail ∨ (ctl.testBit 5 = false ∧ head + 2 ^ (ctl % 32) < v.toNat)) →
          exec (.qtail f) s = .next (u.takeTrap x { kind := .malformedCommand }))
       ∧ (tail ≤ v.toNat → (ctl.testBit 5 = true ∨ v.toNat ≤ head + 2 ^ (ctl % 32)) →
          ∃ t, exec (.qtail f) s = .next t ∧ Went s x t x.g.regs ∧ WroteBut s t (p.pa + 8) 8 v.toNat)))
  ∧ (∀ e ∈ [((Instr.dsub : OpS → Instr), 2), (.vsub, 3), (.csub, 256)], ∀ f s x k p bs u, Issuing s x → Fresh s x → Settled s x →
    x.uslice = some k →
    let addr := x.g.regs.getS2 k f.a.toNat
    let block := x.g.regs.getS2 k f.d.toNat
    let b := BitVec.ofNat 512 (bytesNat bs)
    Queueable s x addr 64 none p → (asked s x p 64).unitRead x.unit x.c.asid block 64 .read = (.ok bs, u) →
    (submitBad (Memory.desc u.mem p.pa) e.2 block b = true → exec (e.1 f) s = .next (u.takeTrap x { kind := .malformedCommand }))
    ∧ (submitBad (Memory.desc u.mem p.pa) e.2 block b = false → (Memory.readNat u.mem (p.pa + 48) 4).testBit 5 = false →
      let entry := block ||| BitVec.ofNat 64 (16 + 4 * recClass x.c.record)
      pushBad (Memory.readNat u.mem (p.pa + 48) 4) entry = false → Pushes s u x (exec (e.1 f) s) addr p entry))

/-- R380: `qhead` writes the head of the ring's descriptor, as its home slice holds it, to the pair of every slice; `qhead.wait` first
waits with code 4 while head = tail. -/
def Obligations.RingHead : Prop :=
  ∀ f s x k p, Issuing s x → Fresh s x → x.uslice = some k → f.d.toNat % 2 = 0 →
    let addr := x.g.regs.getS2 k f.a.toNat
    Queueable s x addr 64 none p →
    let u := asked s x p 64
    let tail := Memory.readNat u.mem (p.pa + 8) 8
    let head := Memory.readNat u.mem (p.pa + 16) 8
    (∃ r, Moves s x (exec (.qhead f) s) r ∧ SlicesS2 x r f.d (BitVec.ofNat 64 head))
    ∧ (head = tail → Waits s x (exec (.qheadWait f) s) 4 1 addr.toNat KeptMem)
    ∧ (head ≠ tail → ∃ r, Moves s x (exec (.qheadWait f) s) r ∧ SlicesS2 x r f.d (BitVec.ofNat 64 head))

/-- R378, R381: `seqwait` goes on when the word has reached the value and else waits with code 5; `seqread` reads the word into
every slice. On a Vintner `seqwait`, `qtail` and `qpush` do the same for the context. -/
def Sys2Proof.Claims.RingReads : Prop :=
  (∀ f s x k p, Issuing s x → Fresh s x → x.uslice = some k →
    let addr := x.g.regs.getS2 k f.a.toNat
    let v := (x.g.regs.getS2 k f.d.toNat).toNat
    let u := asked s x p 8
    (Queueable s x addr 8 none p →
      (v ≤ Memory.readNat u.mem p.pa 8 → Moves s x (exec (.seqwait f) s) x.g.regs)
      ∧ (Memory.readNat u.mem p.pa 8 < v → Waits s x (exec (.seqwait f) s) 5 v addr.toNat KeptMem))
    ∧ (f.d.toNat % 2 = 0 → Queueable s x addr 8 (some (.int .add)) p →
      ∃ r, Moves s x (exec (.seqread f) s) r ∧ SlicesS2 x r f.d (BitVec.ofNat 64 (Memory.readNat u.mem p.pa 8))))
  ∧ (∀ f s x p, VIssuing s x →
    let addr := x.k.getS2 f.a.toNat
    let v := (x.k.getS2 f.d.toNat).toNat
    (s.vWord x 8 addr = (.ok p, s) →
      (v ≤ Memory.readNat s.mem p.pa 8 → VSteps s x (exec (.seqwait f) s) x.k)
      ∧ (Memory.readNat s.mem p.pa 8 < v → exec (.seqwait f) s = .next (s.setV x { x.k with
          pc := x.start, hints := [], wait := some (.seq addr v) })))
    ∧ (s.vWord x 64 addr = (.ok p, s) → s.vPerformed x = true → p.local = true → p.pa % 64 = 0 →
      Memory.readNat s.mem (p.pa + 8) 8 ≤ v → v ≤ Memory.readNat s.mem (p.pa + 16) 8 + 2 ^ (Memory.readNat s.mem (p.pa + 48) 4 % 32) →
      ∃ t, exec (.qtail f) s = .next t ∧ WroteBut s t (p.pa + 8) 8 v)
    ∧ (s.vWord x 64 addr = (.ok p, s) → s.vPerformed x = true →
      let ctl := Memory.readNat s.mem (p.pa + 48) 4
      (pushBad ctl (x.k.getS2 f.d.toNat) = true → exec (.qpush f) s = .next (s.vFault x .malformedCommand))
      ∧ (pushBad ctl (x.k.getS2 f.d.toNat) = false → ctl.testBit 5 = false → p.local = true →
        2 ^ (ctl % 32) ≤ Memory.readNat s.mem (p.pa + 8) 8 - Memory.readNat s.mem (p.pa + 16) 8 →
        exec (.qpush f) s = .next (s.setV x { x.k with pc := x.start, hints := [], wait := some (.ring addr) }))))

/-! ## State registers, traps and upcalls -/

/-- The state registers of 03_encoding R61, in the order of their numbers, as a lane reads them. -/
def Sys2Proof.Claims.stateRegs (s : State) (x : Ctx) (lane : Nat) : List W64 :=
  let nat := BitVec.ofNat 64
  let r := x.c.record
  [nat lane, nat (lane / 4), nat x.gang, nat x.crew, nat x.c.core, nat (x.c.core / 8), nat (x.c.core / 128), nat s.ports.devid,
   x.c.recptr, r.extractLsb' 64 64, r.extractLsb' 384 64, r.extractLsb' 448 64, nat (r.extractLsb' 160 8).toNat,
   nat (r.extractLsb' 208 32).toNat, nat x.mask.toNat, (if x.c.phase = .stopping then 1 else 0), nat s.clock,
   (s.core x.c.core).parkthr.setWidth 64, x.g.regs.af.setWidth 64, x.g.regs.te.setWidth 64, nat x.c.asid,
   nat ((x.g.slice (lane / 4)).spilled + (x.g.slice (lane / 4)).stack.length)]

/-- A state register is 64 bits wide (R61). -/
def Sys2Proof.Claims.wideReg (n : Nat) : Prop := (8 ≤ n ∧ n ≤ 11) ∨ n = 16

/-- R61, R62, R64, R175, R436: `rds` gives each active lane, or each slice of the part, its value of the state register; a
number that names none is illegal, and so is `laneid` into `s`; `wrs` writes `parkthr` (of a service crew, clamped to 64 and
2^24), `af` and `te`; `nop` of a Vintner only goes on. -/
def Sys2Proof.Claims.StateRegisters : Prop :=
  (∀ d (n : BitVec 8) s x, Issuing s x → NoRecords x →
    (0x15 < n.toNat → (Holds x [(d, 1)] → exec (.rdsV d n) s = .next (s.takeTrap x { kind := .illegalEncoding }))
      ∧ exec (.rdsS d n) s = .next (s.takeTrap x { kind := .illegalEncoding }))
    ∧ (n = 0 → exec (.rdsS d n) s = .next (s.takeTrap x { kind := .illegalEncoding }))
    ∧ (n.toNat ≤ 0x15 → let val := fun l => (stateRegs s x l).getD n.toNat 0
      (wideReg n.toNat → Holds x [(d, 2)] → ∃ r, Steps s x (exec (.rdsV d n) s) r ∧ LanesV2 x r 7 d val)
      ∧ (¬ wideReg n.toNat → Holds x [(d, 1)] → ∃ r, Steps s x (exec (.rdsV d n) s) r ∧ LanesV x r 7 d (fun l => (val l).setWidth 32))
      ∧ (n ≠ 0 → x.lanes 7 ≠ [] → ¬ wideReg n.toNat → ∃ r, Steps s x (exec (.rdsS d n) s) r ∧ OnlyS x.g.regs r d.toNat 1
          ∧ ∀ k, k < 8 → r.getS k d.toNat = if k ∈ x.part then (val (4 * k)).setWidth 32 else x.g.regs.getS k d.toNat)
      ∧ (x.lanes 7 ≠ [] → wideReg n.toNat → d.toNat % 2 = 0 → ∃ r, Steps s x (exec (.rdsS d n) s) r ∧ OnlyS x.g.regs r d.toNat 2
          ∧ ∀ k, k < 8 → r.getS2 k d.toNat = if k ∈ x.part then val (4 * k) else x.g.regs.getS2 k d.toNat)))
  ∧ (∀ a s x k, Issuing s x → Fresh s x → x.uslice = some k →
    let v := x.g.regs.getS k a.toNat
    Steps s x (exec (.wrs a 0x12) s) { x.g.regs with af := v &&& 0x7F }
    ∧ Steps s x (exec (.wrs a 0x13) s) { x.g.regs with te := v &&& 0x7F }
    ∧ (recService x.c.record = true → ∃ t, exec (.wrs a 0x11) s = .next t ∧ Went s x t x.g.regs ∧ SameMem s t
        ∧ (t.core x.c.core).parkthr = if v.toNat < 64 then 64 else if 2 ^ 24 < v.toNat then 0x1000000 else v)
    ∧ (recService x.c.record = false → exec (.wrs a 0x11) s = .next (s.takeTrap x { kind := .privilegedInstruction }))
    ∧ ∀ n : BitVec 8, n ≠ 0x11 → n ≠ 0x12 → n ≠ 0x13 → exec (.wrs a n) s = .next (s.takeTrap x { kind := .illegalEncoding }))
  ∧ (∀ s x, VIssuing s x → VSteps s x (exec .nop s) x.k)

/-- The hint words with their kinds. -/
noncomputable def Sys2Proof.Claims.hintWords : List ((BitVec 22 → Instr) × Nat) :=
  [(.hintImmediate, 0), (.hintJoin, 1), (.hintRounding, 2), (.hintScalePolicy, 3), (.hintPriority, 4), (.hintScope, 5), (.hintFormat, 6)]

/-- R66, R68, R71, R72: a hint word waits for the instruction that follows, unless two wait already or one of its kind does: that
is the illegal-encoding fault, as is a word that is no instruction, on a part and on a Vintner. -/
def Sys2Proof.Claims.HintsAndReserved : Prop :=
  (∀ e ∈ hintWords, ∀ y s x, Issuing s x → NoRecords x →
    let w : W32 := (0x3E : BitVec 6) ++ BitVec.ofNat 4 e.2 ++ y
    let bad := 2 ≤ x.hints.length ∨ ∃ h ∈ x.hints, (h.extractLsb' 22 4).toNat = e.2
    (bad → exec (e.1 y) s = .next (s.takeTrap (s.wholeGroup x) { kind := .illegalEncoding }))
    ∧ (¬ bad → ∃ h, exec (e.1 y) s = .next (s.setGang x.crew x.gang h) ∧ h.regs = x.g.regs
      ∧ (∀ k ∈ x.part, h.slice k = { x.g.slice k with pc := x.pc + 4, hints := x.hints ++ [w] })
      ∧ ∀ k, k ∉ x.part → h.slice k = x.g.slice k))
  ∧ (∀ w s x, Issuing s x → NoRecords x → exec (.reservedWord w) s = .next (s.takeTrap (s.wholeGroup x) { kind := .illegalEncoding }))
  ∧ (∀ w s x, VIssuing s x → exec (.reservedWord w) s = .next (s.vFault x .illegalEncoding))

/-- R426, R437, R440: a precise trap stops the part at the first hint of its group, in a wait of code 10, with its cause,
addresses and lanes kept for the record, and leaves every register, every buffered store and every byte of memory as it was.
A debug breakpoint takes the breakpoint trap with bit 8 and the register's number, and `upcall` waits with code 7, its message
kept. -/
def Sys2Proof.Claims.PreciseTraps : Prop :=
  (∀ s x (c : Trap) va lanes, Issuing s x → NoFence x → ∃ h, s.takeTrapAt x c va lanes = s.setGang x.crew x.gang h
    ∧ h.regs = x.g.regs ∧ h.buffer = x.g.buffer
    ∧ h.stops = x.g.stops ++ [{ slices := x.mask, trap := c, addr := x.start, va := va, lanes := lanes, tag := none, park := false }]
    ∧ (∀ k ∈ x.part, (h.slice k).pc = x.start ∧ (h.slice k).hints = []
        ∧ (h.slice k).wait = some { code := 10, num := 0, operand := va.toNat % 2 ^ 52, since := s.clock, len := x.len })
    ∧ ∀ k, k ∉ x.part → h.slice k = x.g.slice k)
  ∧ (∀ n s x, Issuing s x → NoRecords x → n < 4 →
    exec (.debugBreakpoint n) s = .next (s.takeTrapAt (s.wholeGroup x) { kind := .breakpoint, detail := 256 + n } 0 (laneMask (x.lanes 7))))
  ∧ (∀ (d a : BitVec 6) (n : BitVec 8) s x k, Issuing s x → Fresh s x → Settled s x → x.uslice = some k →
    Waits s x (exec (.upcall d a n) s) 7 n.toNat 0
    ∧ ∀ t h, exec (.upcall d a n) s = .next t → t.gang? x.crew x.gang = some h → ∃ u, h.upcalls = x.g.upcalls ++ [u]
      ∧ u.slices = x.mask ∧ u.channel = n.toNat ∧ u.dest = d.toNat ∧ u.addr = x.start ∧ u.tag = none
      ∧ u.msg = (List.range 8).map (fun i => x.g.regs.getS k (a.toNat + i)))

/-- The slices of a mask, by their bits. -/
def Sys2Proof.Claims.Passed (g h : Gang) (m : BitVec 8) : Prop :=
  ∀ k, k < 8 → m.getLsbD k = true → k < g.slices.length → ∀ w, (g.slice k).wait = some w →
    (h.slice k).wait = none ∧ (h.slice k).pc = (g.slice k).pc + BitVec.ofNat 64 w.len

/-- R427, R437, R438: a trap's record goes to the tail of its die's fault queue once there is room, with the part's cause,
slices and crew, and its tag is the record's sequence number; a mailbox record goes to the mailbox in the same way. -/
def Sys2Proof.Claims.TrapRecords : Prop :=
  (∀ p s x st, s.ctxOf p.crew p.gang p.slice = some x → x.g.stops = [st] → st.tag = none → st.slices = x.mask → x.mask ≠ 0 →
    let d := s.die x.die
    d.faults = [] → ((d.fqtail + 1) % 1024 ≠ d.fqhead) →
    let a := d.fqbase.toNat + 64 * d.fqtail
    a % 64 = 0 → x.g.fences = [] →
    ∃ t h, exec (.trapRecordWrite p) s = .next t ∧ Memory.readNat t.mem a 2 = (st.trap.kind.code) % 2 ^ 16
      ∧ Memory.readNat t.mem (a + 2) 1 = 0 ∧ Memory.readNat t.mem (a + 3) 1 = st.slices.toNat ∧ Memory.readNat t.mem (a + 4) 4 = p.crew % 2 ^ 32
      ∧ Memory.readNat t.mem (a + 8) 8 = st.addr.toNat ∧ Memory.readNat t.mem (a + 16) 8 = st.va.toNat
      ∧ Memory.readNat t.mem (a + 48) 8 = d.fqseq % 2 ^ 64
      ∧ (∀ b, (b < a ∨ a + 64 ≤ b) → Memory.read t.mem b = Memory.read s.mem b ∨ PvByte s b (Memory.read t.mem b))
      ∧ (t.die x.die).fqtail = (d.fqtail + 1) % 1024 ∧ (t.die x.die).fqseq = d.fqseq + 1
      ∧ t.gang? p.crew p.gang = some h ∧ h.stops = [{ st with tag := some d.fqseq }])
  ∧ (∀ die s, let d := s.die (die % 4)
    (d.mbtail + 1) % 512 = d.mbhead → exec (.mailboxRecordWrite die) s = .next s)
  ∧ (∀ die s crew c gang g u, let d := s.die (die % 4)
    (d.mbtail + 1) % 512 ≠ d.mbhead → s.gangsOfDie (die % 4) = [(crew, c, gang, g)] → g.upcalls = [u] → u.tag = none → u.msg.length = 8 →
    let a := d.mbbase.toNat + 64 * d.mbtail
    a % 64 = 0 →
    ∃ t, exec (.mailboxRecordWrite die) s = .next t ∧ (t.die (die % 4)).mbtail = (d.mbtail + 1) % 512
      ∧ (t.die (die % 4)).mbseq = d.mbseq + 1 ∧ Memory.readNat t.mem (a + 32) 4 = crew % 2 ^ 32
      ∧ (∀ i, i < 8 → Memory.readNat t.mem (a + 4 * i) 4 = (u.msg.getD i 0).toNat)
      ∧ ∀ b, (b < a ∨ a + 64 ≤ b) → Memory.read t.mem b = Memory.read s.mem b ∨ PvByte s b (Memory.read t.mem b))

/-- R439: `brk` of a part takes the breakpoint fault, precisely, with its code in the detail field, whatever lanes are active: no
register, buffered store or byte of memory changes and the part stops at it. A skip resolution of that stop lets the part go on
behind it. `nop` changes nothing but the program counter. -/
def Obligations.BreakpointAndNop : Prop :=
  (∀ n s x, Issuing s x → NoRecords x → NoFence x →
    ∃ t h, exec (.brk n) s = .next t ∧ t = s.setGang x.crew x.gang h ∧ SameMem s t ∧ h.regs = x.g.regs ∧ h.buffer = x.g.buffer
      ∧ h.stops = x.g.stops ++ [{ slices := x.mask, trap := { kind := .breakpoint, detail := n.toNat }, addr := x.start, va := 0
                                  lanes := laneMask (x.lanes 7), tag := none, park := false }]
      ∧ (∀ k ∈ x.part, (h.slice k).pc = x.start
          ∧ (h.slice k).wait = some { code := 10, num := 0, operand := 0, since := s.clock, len := x.len })
      ∧ ∀ k, k ∉ x.part → h.slice k = x.g.slice k)
  ∧ (∀ die tag s crew c gang g st, s.findStop (die % 4) tag = some (crew, c, gang, g, st) → c.phase = .running →
    st.trap.kind = .breakpoint →
    ∃ h, exec (.tresSkip die tag) s = .next (s.setGang crew gang h) ∧ h.regs = g.regs ∧ st ∉ h.stops ∧ Passed g h st.slices)
  ∧ (∀ s x, Issuing s x → NoRecords x → Steps s x (exec .nop s) x.g.regs)

/-- R428, R437: how the resident kernel resolves a trap: retry lets the part issue again, skip lets it go on behind its group,
redirect sends it to the address with `lk` of its active lanes at the stop, park marks it, terminate ends its crew; a reply to
an upcall writes the pair in every slice of the part and lets it go on. For a crew that is resident. -/
def Obligations.Resolutions : Prop :=
  (∀ die tag s crew c gang g st, s.findStop (die % 4) tag = some (crew, c, gang, g, st) → c.phase = .running →
    (∃ h, exec (.tresRetry die tag) s = .next (s.setGang crew gang h) ∧ h.regs = g.regs ∧ st ∉ h.stops
      ∧ ∀ k, k < 8 → st.slices.getLsbD k = true → k < g.slices.length →
          h.slice k = { g.slice k with wait := none, unchecked := true })
    ∧ (∃ h, exec (.tresSkip die tag) s = .next (s.setGang crew gang h) ∧ h.regs = g.regs ∧ st ∉ h.stops ∧ Passed g h st.slices)
    ∧ (∀ addr : Nat, addr < 2 ^ 51 → addr % 4 = 0 →
      ∃ h, exec (.tresRedirect die tag addr) s = .next (s.setGang crew gang h) ∧ st ∉ h.stops ∧ h.regs.v = g.regs.v ∧ h.regs.s = g.regs.s
        ∧ (∀ k, k < 8 → st.slices.getLsbD k = true → k < g.slices.length → (h.slice k).pc = BitVec.ofNat 64 addr ∧ (h.slice k).wait = none)
        ∧ ∀ l, l < 32 → h.regs.getLk l = if st.slices.getLsbD (l / 4) = true
            ∧ ((g.slice (l / 4)).mask &&& (g.slice (l / 4)).live).getLsbD (l % 4) = true then st.addr else g.regs.getLk l)
    ∧ (∃ h, exec (.tresPark die tag) s = .next (s.setGang crew gang h) ∧ h.slices = g.slices ∧ h.regs = g.regs
        ∧ h.stops = g.stops.map (fun u => if u = st then { u with park := true } else u))
    ∧ (∀ dec, ∃ t, exec (.tresTerminate die tag dec) s = .next t ∧ t.crew? crew = none))
  ∧ (∀ die tag (v : W64) s crew c gang g u, s.findUpcall (die % 4) tag = some (crew, c, gang, g, u) → c.phase = .running →
    u.dest % 2 = 0 → u.dest < 64 →
    (∃ h, exec (.ureply die tag v) s = .next (s.setGang crew gang h) ∧ u ∉ h.upcalls ∧ Passed g h u.slices ∧ h.regs.v = g.regs.v
      ∧ ∀ k, k < 8 → h.regs.getS2 k u.dest = if u.slices.getLsbD k then v else g.regs.getS2 k u.dest)
    ∧ (∃ t, exec (.ureplyTerminate die tag) s = .next t ∧ t.crew? crew = none))

/-! ## Pages -/

/-- The modes of `tlbi`: whether an operand address is read, and the translations that go (R227). -/
noncomputable def Sys2Proof.Claims.tlbis : List ((OpS → Instr) × Bool × (Nat → W64 → TlbEntry → Prop)) :=
  [(.tlbiPage, true, fun asid va e => e.asid = asid ∧ e.base ≤ va.toNat % 2 ^ 52 ∧ va.toNat % 2 ^ 52 < e.base + e.size),
   (.tlbiAsid, false, fun asid _ e => e.asid = asid),
   (.tlbiAll, false, fun _ _ _ => True)]

/-- Nobody waits for a page: no filter or merge-stage entry, and no request of a port, is held. -/
def Sys2Proof.Claims.NobodyWaits (s : State) : Prop :=
  s.ports.held = [] ∧ (∀ c ∈ s.clusters, c.2.merge = [] ∧ c.2.mergeHeld = []) ∧ ∀ c ∈ s.cores, c.2.filter = [] ∧ c.2.held = []

/-- R218, R227, R434: `tlbi` leaves no translation that its mode names and every other; `pkset` writes the attribute entry of
each page of its range and of no other page, and no other byte; both are privileged, and `pkset` refuses a misaligned address, a range that ends
above DRAM and an entry that is malformed. `preq` goes on when the pages of its lanes are present, and else files a request, for
which its waiting form waits with code 10. -/
def Obligations.PageInstructions : Prop :=
  (∀ e ∈ tlbis, ∀ f s x k, Issuing s x → Fresh s x → x.uslice = some k →
    let asid := (x.g.regs.getS k f.d.toNat).toNat % 2 ^ 16
    let va := x.g.regs.getS2 k f.a.toNat
    (recService x.c.record = false → exec (e.1 f) s = .next (s.takeTrap x { kind := .privilegedInstruction }))
    ∧ (recService x.c.record = true → (e.2.1 = false ∨ canonical va = true) → x.g.loads = [] → (∀ c ∈ s.clusters, c.2.arraySpans = []) →
      ∃ t, exec (e.1 f) s = .next t ∧ Went s x t x.g.regs ∧ ∀ q, q ∈ t.tlb ↔ q ∈ s.tlb ∧ ¬ e.2.2 asid va q)
    ∧ (recService x.c.record = true → e.2.1 = true → canonical va = false →
      exec (e.1 f) s = .next (s.takeTrapAt x { kind := .unmappedAddress } va (laneMask (x.lanes 7)))))
  ∧ (∀ d a (n : BitVec 8) s x k, Issuing s x → Fresh s x → x.uslice = some k →
    let e : BitVec 16 := (x.g.regs.getS k d.toNat).extractLsb' 0 16
    let pa := (x.g.regs.getS2 k a.toNat).toNat
    let inside := fun q => pa ≤ q ∧ q < pa + 4096 * (n.toNat + 1)
    let bad := e.extractLsb' 11 5 ≠ 0 ∨ pairOk (e.extractLsb' 2 5).toNat (e.extractLsb' 7 3).toNat = false
      ∨ ∃ j, j ≤ n.toNat ∧ let old := s.attrOf x.die (pa + 4096 * j)
          old.getLsbD 10 = false ∧ e.getLsbD 10 = false ∧ old.extractLsb' 0 10 ≠ e.extractLsb' 0 10
    let table := (s.die x.die).atbase.toNat
    let written := fun (t : State) => ∀ q, q % 4096 = 0 → q < 2 ^ 39 → t.attrOf x.die q = if inside q then e else s.attrOf x.die q
    (recService x.c.record = false → exec (.pkset d a n) s = .next (s.takeTrap x { kind := .privilegedInstruction }))
    ∧ (recService x.c.record = true → pa % 4096 ≠ 0 → exec (.pkset d a n) s = .next (s.takeTrap x { kind := .misalignedData }))
    ∧ (recService x.c.record = true → pa % 4096 = 0 → 2 ^ 39 < pa + 4096 * (n.toNat + 1) →
        exec (.pkset d a n) s = .next (s.takeTrap x { kind := .protection }))
    ∧ (recService x.c.record = true → pa % 4096 = 0 → pa + 4096 * (n.toNat + 1) ≤ 2 ^ 39 →
      (bad → exec (.pkset d a n) s = .next (s.takeTrap x { kind := .malformedEntry }))
      ∧ (¬ bad → (∀ b, table ≤ b → b < table + 2 ^ 28 → NoPvCopy s b) →
          ∃ t, exec (.pkset d a n) s = .next t ∧ ((e.getLsbD 10 = true ∨ NobodyWaits s) → written t)
          ∧ (e.getLsbD 10 = true → Went s x t x.g.regs
              ∧ ∀ b, (b < table + pa / 2048 ∨ table + pa / 2048 + 2 * (n.toNat + 1) ≤ b) →
                  Memory.read t.mem b = Memory.read s.mem b ∨ PvByte s b (Memory.read t.mem b)))))
  ∧ (∀ d a p (r q : BitVec 1) s x k, Issuing s x → Fresh s x → x.uslice = some k → Holds x [(d, 1)] →
    let acc : Access := if r = 1 then .write else .read
    let va := fun l => x.g.regs.getS2 k a.toNat + (x.g.regs.getV d.toNat l).setWidth 64
    let lanes := (x.lanes 7).filter (x.g.regs.getP p.toNat)
    ((∀ l ∈ lanes, ∃ g, s.translate x.unit x.c.asid (va l) acc = (.ok g, s)) → Steps s x (exec (.preq d a p r q) s) x.g.regs)
    ∧ (∀ l leaf w, lanes = [l] → s.translate x.unit x.c.asid (va l) acc = (.error (.notPresent leaf), w) →
      (s.core x.c.core).filter = [] → (s.cluster (clusterOfCore x.c.core)).merge = [] →
      let page := (va l).toNat % 2 ^ 52 / 4096 * 4096
      let u : BitVec 8 := if r = 1 then 80 else 16
      ∃ t, exec (.preq d a p r q) s = .next t ∧ KeptMem s t
        ∧ (t.core x.c.core).filter = [{ asid := x.c.asid, page := page, union := u, leaf := leaf, waiters := if q = 1 then [.preq x.ref] else [] }]
        ∧ (t.cluster (clusterOfCore x.c.core)).merge =
            [{ asid := x.c.asid, page := page, union := u, count := 1, leaf := leaf, written := false, waiters := [] }]
        ∧ (q = 0 → Went s x t x.g.regs)
        ∧ (q = 1 → Waits s x (exec (.preq d a p r q) s) 10 2 ((va l).toNat % 2 ^ 52) KeptMem)))

/-- One record of n bytes stands at a place, its fields as listed: offset, size and value; every other byte is kept. -/
def Sys2Proof.Claims.Recorded (s t : State) (a n : Nat) (fields : List (Nat × Nat × Nat)) : Prop :=
  (∀ f ∈ fields, Memory.readNat t.mem (a + f.1) f.2.1 = f.2.2 % 2 ^ (8 * f.2.1))
    ∧ ∀ b, (b < a ∨ a + n ≤ b) → Memory.read t.mem b = Memory.read s.mem b ∨ PvByte s b (Memory.read t.mem b)

/-- A counter after its halving, with its low threshold (R223, R224). -/
def Sys2Proof.Claims.halved (low : Nat) (c : Counter) : Counter :=
  { count := c.count / 2, queued := c.queued && decide (low < c.count / 2), dies := 0, device := false }

/-- R221 to R224, R424, R425: a merge stage writes the record of its first unwritten entry at the tail of the page request
queue once there is room; `PGRES` with status 0 lets the part that waits for the page issue again, and with status 1 delivers
its stop as the unmapped-address fault; the counters halve; a migration notice is written, and a full ring sets its overflow bit; an error that scrubbing finds marks
its line and writes a record of type 4.
Rests in part on the model's choices of notes/assumptions/56. -/
def Obligations.PageEvents : Prop :=
  (∀ cl s e rest, cl < 64 → (s.cluster cl).merge = e :: rest → e.written = false →
    let d := s.die (cl / 16)
    ((d.prqtail + 1) % 4096 = d.prqhead → exec (.prqRecordWrite cl) s = .next s)
    ∧ ((d.prqtail + 1) % 4096 ≠ d.prqhead → (d.prqbase.toNat + 32 * d.prqtail) % 32 = 0 →
      ∃ t more, exec (.prqRecordWrite cl) s = .next t
        ∧ Recorded s t (d.prqbase.toNat + 32 * d.prqtail) 32 [(0, 8, e.page), (8, 2, e.asid), (10, 1, e.union.toNat), (11, 1, cl), (12, 2, e.count),
            (14, 2, 0), (16, 8, e.leaf), (24, 8, d.prqseq)]
        ∧ (t.die (cl / 16)).prqtail = (d.prqtail + 1) % 4096 ∧ (t.die (cl / 16)).prqseq = d.prqseq + 1
        ∧ (t.cluster cl).merge = { e with written := true } :: more))
  ∧ (∀ die asid page p s x w f, s.ctxOf p.crew p.gang p.slice = some x → x.pageWait = some w → x.g.fences = [] →
    x.die = die % 4 → x.c.asid = asid →
    (s.core x.c.core).filter = [f] → f.asid = asid → f.page = page / 4096 * 4096 % 2 ^ 52 → f.waiters = [.part p] →
    (∀ n, n / 128 = die % 4 → (n ≠ x.c.core → (s.core n).filter = []) ∧ (s.core n).held = []) →
    (∀ cl, cl / 16 = die % 4 → (s.cluster cl).merge = [] ∧ (s.cluster cl).mergeHeld = []) →
    (∃ t h, exec (.pgresWake die asid page) s = .next t ∧ t.gang? p.crew p.gang = some h ∧ Woken x h ∧ (t.core x.c.core).filter = []
      ∧ SameMem s t)
    ∧ (w.num = 0 → ∃ t h st, exec (.pgresFault die asid page) s = .next t ∧ t.gang? p.crew p.gang = some h ∧ h.stops = x.g.stops ++ [st]
      ∧ st.trap.kind = .unmappedAddress ∧ st.slices = x.mask ∧ st.tag = none ∧ h.regs = x.g.regs ∧ (t.core x.c.core).filter = []
      ∧ SameMem s t))
  ∧ (∀ s, ∃ t, exec .counterHalving s = .next t ∧ SameMem s t ∧ ∀ block,
      SMap.find t.counters block = (SMap.find s.counters block).map (halved ((s.die (homeOf (block * 65536) / 64)).thresholds block).2))
  ∧ (∀ die s block n who rest, let d := s.die (die % 4)
    d.notices = (block, n, who) :: rest →
    ((d.mnqtail + 1) % 1024 = d.mnqhead → exec (.migrationNoticeWrite die) s = .next (s.setDie (die % 4) { d with mnqover := true }))
    ∧ ((d.mnqtail + 1) % 1024 ≠ d.mnqhead → (d.mnqbase.toNat + 16 * d.mnqtail) % 16 = 0 →
      ∃ t, exec (.migrationNoticeWrite die) s = .next t
        ∧ Recorded s t (d.mnqbase.toNat + 16 * d.mnqtail) 16 [(0, 2, n), (2, 6, block), (8, 1, who.toNat), (9, 7, 0)]
        ∧ (t.die (die % 4)).mnqtail = (d.mnqtail + 1) % 1024))
  ∧ (∀ die pa s, let d := s.die (die % 4)
    ∃ t, exec (.scrubError die pa) s = .next t
      ∧ (∀ p n, p.local = true → lineOf p.pa = lineOf (pa % 2 ^ 39) → 0 < n → t.poisonedIn [(p, n)] = true)
      ∧ (d.faults = [] → (d.fqtail + 1) % 1024 ≠ d.fqhead → (d.fqbase.toNat + 64 * d.fqtail) % 64 = 0 →
          Recorded s t (d.fqbase.toNat + 64 * d.fqtail) 64 [(0, 2, 36), (2, 1, 4), (3, 1, 0), (16, 8, pa % 2 ^ 39), (48, 8, d.fqseq)]
          ∧ (t.die (die % 4)).fqtail = (d.fqtail + 1) % 1024))

/-! ## Crews -/

/-- R99 to R109, R118, R119: a Cellarer places the record at the head of its service queue on a core that can hold it: a crew
with the next `crewid`, every gang at the code address. A record leaves a tile list for the class queue once its tiles are
resident. The last gang's exit ends the crew and hands its parent's counter to the Cellarer, which decrements it and, at zero,
pushes its record; a pushed record is read, checked and enqueued, held as it was read while the queue is full, and dropped with
its fault when it is malformed. -/
def Obligations.CrewsBegin : Prop :=
  (∀ die core s q rest, let dn := die % 4
    let n := 128 * dn + core % 128
    (s.die dn).service = q :: rest → q.rank = none → q.crew = none → recGroups q.record = [] → s.holds .service n q = true →
    ∃ t d, exec (.placement die core) s = .next t ∧ KeptMem s t ∧ t.crew? s.nextCrew = some d ∧ t.nextCrew = s.nextCrew + 1
      ∧ d.record = q.record ∧ d.recptr = q.recptr ∧ d.asid = q.asid ∧ d.guest = q.guest ∧ d.core = n ∧ d.phase = .running
      ∧ d.gangs = (List.range (recGangs q.record)).map (fun j => (j, Gang.start (q.record.extractLsb' 0 64)))
      ∧ (recFrame q.record ≠ 0 → d.frame = .named (recFrame q.record))
      ∧ (t.die dn).service = rest)
  ∧ (∀ cl cls s q rest, cl < 64 → cls < 4 → let d := s.die (cl / 16)
    let key := 4 * (cl % 16) + cls
    SMap.getD d.tileLists key [] = q :: rest →
    (s.tilesResident q = false → exec (.tileListRelease cl cls) s = .next s)
    ∧ (s.tilesResident q = true → ∃ t, exec (.tileListRelease cl cls) s = .next t ∧ SameMem s t
      ∧ SMap.getD (t.die (cl / 16)).tileLists key [] = rest
      ∧ SMap.getD (t.die (cl / 16)).arrivals (4 * q.guest + recClass q.record) [] =
          SMap.getD d.arrivals (4 * q.guest + recClass q.record) [] ++ [{ q with onCluster := some cl }]))
  ∧ (∀ die s p r ts u w, let dn := die % 4
    let d := s.die dn
    d.pushes = [p] → p.page = none →
    (p.held = none → s.readRecord (.cellarer dn) p.asid p.addr = (.ok (r, ts), u) →
      (∀ k, u.checkRecord dn p.asid p.service r ts = (some k, w) →
        exec (.joinPush die) s = .next ((w.setDie dn { w.die dn with pushes := [] }).pushFault dn
          (faultRec (causeCode 0 k) 1 p.addr p.asid)))
      ∧ (u.checkRecord dn p.asid p.service r ts = (none, w) → ClassRecord r →
        let guest := (w.descriptor (.cellarer dn) p.asid).1.guest
        let key := 4 * guest + recClass r
        let n := ((SMap.getD d.queues key []).filter (fun q => q.crew.isNone)).length
        ∃ t q, exec (.joinPush die) s = .next t ∧ KeptMem w t
          ∧ q.record = r ∧ q.recptr = p.addr ∧ q.asid = p.asid ∧ q.guest = guest ∧ q.crew = none
          ∧ (2 ^ d.cls2 < n + 1 → (t.die dn).pushes = [{ p with held := some q }]
              ∧ SMap.getD (t.die dn).queues key [] = SMap.getD d.queues key [])
          ∧ (n + 1 ≤ 2 ^ d.cls2 → (t.die dn).pushes = []
              ∧ SMap.getD (t.die dn).queues key [] = SMap.getD d.queues key [] ++ [q])))
    ∧ (∀ q, p.held = some q → ClassRecord q.record →
      let key := 4 * q.guest + recClass q.record
      let n := ((SMap.getD d.queues key []).filter (fun q => q.crew.isNone)).length
      (2 ^ d.cls2 < n + 1 → exec (.joinPush die) s = .next s)
      ∧ (n + 1 ≤ 2 ^ d.cls2 → exec (.joinPush die) s = .next (s.setDie dn { d with
          pushes := [], queues := SMap.put d.queues key (SMap.getD d.queues key [] ++ [q]) }))))

/-- R123 to R127, R134, R364, R365: a stop request sets the deadline; an overrun notice is sent once, and counted when its ring
is full; the end of a crew; implied decrements; a period clears every USE but the uncharged overruns, which are charged as far as
the budget goes; a guest's time slice ends only while it is at its budget and another guest below its own needs what it holds,
such as the Vintner for which a card waits. -/
def Obligations.CrewsEnd : Prop :=
  (∀ crew s c, s.crew? crew = some c →
    (c.phase = .running → s.stopReason c = true → exec (.stopRequest crew) s = .next (s.setCrew crew { c with
      phase := .stopping, deadline := some (s.clock + 256 * (c.record.extractLsb' 192 16).toNat), noticed := false }))
    ∧ ((c.phase ≠ .running ∨ s.stopReason c = false) → exec (.stopRequest crew) s = .next s)
    ∧ (recService c.record = true → s.stopReason c = false)
    ∧ (∀ dl, c.phase = .stopping → c.deadline = some dl → dl ≤ s.clock → c.noticed = false →
      let dn := c.core / 128
      ∃ t, exec (.overrunNotice crew) s = .next t ∧ SameMem s t ∧ t.crew? crew = some { c with noticed := true }
        ∧ ((s.die dn).overruns.length < 256 → (t.die dn).overruns = (s.die dn).overruns ++
            [{ crew := crew, guest := c.guest, deadline := dl, clock := s.clock }] ∧ (t.die dn).lostNotices = (s.die dn).lostNotices)
        ∧ (256 ≤ (s.die dn).overruns.length → (t.die dn).overruns = (s.die dn).overruns
            ∧ (t.die dn).lostNotices = (s.die dn).lostNotices + 1))
    ∧ (∀ dl, c.deadline = some dl → (s.clock < dl ∨ c.noticed = true) → exec (.overrunNotice crew) s = .next s)
    ∧ (c.phase ≠ .exited → exec (.crewExitComplete crew) s = .next s)
    ∧ (c.phase = .exited → let dn := c.core / 128
      ∃ t, exec (.crewExitComplete crew) s = .next t ∧ t.crew? crew = none
        ∧ (recParent c.record = 0 → (t.die dn).decrements = (s.die dn).decrements)
        ∧ (recParent c.record ≠ 0 → (t.die dn).decrements = (s.die dn).decrements ++
            [{ addr := recParent c.record, asid := c.asid, service := recService c.record, crew := crew, page := none }])
        ∧ (∀ n, c.frame = .pool n → n ∉ (t.die dn).frames)
        ∧ ∀ f ∈ t.fills, f.crew ≠ some crew))
  ∧ (∀ die s p a, let dn := die % 4
    let d := s.die dn
    d.decrements = [p] → p.page = none → (s.poisonedIn [(a, 4)] = false) → s.translate (.cellarer dn) p.asid p.addr .write = (.ok a, s) → a.local = true → a.pa % 4 = 0 →
    let old := Memory.readNat s.mem a.pa 4
    (old = 0 → exec (.impliedDecrement die) s =
      .next ((s.setDie dn { d with decrements := [] }).pushFault dn (faultRec (causeCode 0 .joinUnderflow) 1 (p.addr - 16) p.asid)))
    ∧ (old ≠ 0 → ∃ t, exec (.impliedDecrement die) s = .next t ∧ WroteBut s t a.pa 4 (old - 1) ∧ (t.die dn).decrements = []
      ∧ (t.die dn).pushes = if old = 1 then d.pushes ++ [{ p with addr := p.addr - 16, page := none }] else d.pushes))
  ∧ (∀ die s, let dn := die % 4
    let d := s.die dn
    d.charges.Pairwise (fun a b => a.1 < b.1) →
    ∃ t, exec (.schedulePeriod die) s = .next t ∧ (t.die dn).ended = []
      ∧ (∀ crew c, s.crew? crew = some c → ∃ e, t.crew? crew = some e ∧ e.overrun ≤ c.overrun ∧ e.gangs.length = c.gangs.length)
      ∧ ((∀ q ∈ s.crews, q.2.overrun = 0) → SameMem s t ∧ ∀ g, let owed := SMap.getD d.charges g 0
          let budget := d.share g * 7680 * 2 ^ d.schper / 1024
          (t.die dn).use g = min owed budget ∧ SMap.getD (t.die dn).charges g 0 = owed - budget))
  ∧ (∀ die g s, g < 64 → let d := s.die (die % 4)
    let budget := fun h => d.share h * 7680 * 2 ^ d.schper / 1024
    ((d.use g < budget g ∨ s.othersNeed (die % 4) g = false ∨ g ∈ d.ended) → exec (.guestSliceEnd die g) s = .next s)
    ∧ (budget g ≤ d.use g → g ∉ d.ended → ∀ m grp k n v, (m, grp) ∈ d.groups → k ∈ grp.cards → k.vintner = true → k.edges = [] →
      k.ended = none → k.guest < 64 → k.guest ≠ g → d.use k.guest < budget k.guest → (s.cluster k.cluster).vcur = some n →
      SMap.find (s.cluster k.cluster).vctx n = some v → v.card.guest = g → v.card.id ≠ k.id →
      exec (.guestSliceEnd die g) s = .next (s.setDie (die % 4) { d with ended := g :: d.ended })))

/-- A crew that is alone in its park: not co-resident. -/
def Sys2Proof.Claims.Alone (c : Crew) : Prop := recCoresident c.record = false

/-- R114 to R122: a crew whose every live slice waits is parked on a stop request, and not without a reason; its image then
stands in its frame, where the record, the program counters and the registers have their places; a parked crew whose stop
has passed becomes resumable, ahead of every record of its class; a resumed crew has the registers of its image, and is charged
no overrun when the image holds none.
Rests in part on the model's choices of notes/assumptions/27, 28. -/
def Obligations.Parking : Prop :=
  (∀ crew s c, s.crew? crew = some c → Alone c → c.framePage = none → c.blocked = true → c.barrierDone = false →
    (∀ q ∈ c.gangs, q.2.fences = [] ∧ q.2.loads = [] ∧ ∀ st ∈ q.2.stops, st.park = false) →
    (c.phase = .stopping → ∃ t d, exec (.park crew) s = .next t ∧ t.crew? crew = some d ∧ d.phase = .parking ∧ d.reason = 2
      ∧ d.record = c.record ∧ d.core = c.core
      ∧ ∀ j g, SMap.find c.gangs j = some g → ∃ h, SMap.find d.gangs j = some h ∧ h.regs = g.regs ∧ h.slices = g.slices)
    ∧ (c.phase = .running → s.longWait c = false → exec (.park crew) s = .next s))
  ∧ (∀ crew s c g n i, s.crew? crew = some c → Alone c → c.phase = .parking → c.frame = .pool i → c.gangs = [(0, g)] → recGangs c.record = 1 →
    recRegs c.record = n → (∀ k, (g.slice k).stack = []) → c.deadline = none → g.liveSlices ≠ [] →
    let d := s.die (c.core / 128)
    let b := d.fpbase.toNat + i * d.frameSize
    b + 256 + 5120 + 128 * n ≤ 2 ^ 39 → (∀ a, b ≤ a → a < b + 256 + 5120 + 128 * n → NoPvCopy s a) →
    ∃ t e, exec (.parkImagePerformed crew) s = .next t ∧ t.crew? crew = some e ∧ e.phase = .parked ∧ e.deadline = none
      ∧ Memory.readNat t.mem b 64 = c.record.toNat
      ∧ Memory.readNat t.mem (b + 64) 1 = c.reason % 256 ∧ Memory.readNat t.mem (b + 65) 1 = 1 ∧ Memory.readNat t.mem (b + 66) 1 = n
      ∧ Memory.readNat t.mem (b + 0x48) 8 = c.overrun % 2 ^ 64
      ∧ Memory.readNat t.mem (b + 256) 4 = g.regs.af.toNat ∧ Memory.readNat t.mem (b + 260) 4 = g.regs.te.toNat
      ∧ (∀ p, p < 7 → Memory.readNat t.mem (b + 264 + 4 * p) 4 = (g.regs.getPs p).toNat)
      ∧ (∀ l, l < 32 → Memory.readNat t.mem (b + 512 + 8 * l) 8 = (g.regs.getLk l).toNat)
      ∧ (∀ k r, k < 8 → (g.slice k).exited = false → r < 64 →
          Memory.readNat t.mem (b + 256 + 0xA00 + 320 * k) 8 = (g.slice k).pc.toNat
          ∧ Memory.readNat t.mem (b + 256 + 0xA00 + 320 * k + 64 + 4 * r) 4 = (g.regs.getS k r).toNat)
      ∧ (∀ r l, r < n → l < 32 → Memory.readNat t.mem (b + 256 + 0x1400 + 4 * (32 * r + l)) 4 = (g.regs.getV r l).toNat)
      ∧ ∀ a, (a < b ∨ b + 256 + 5120 + 128 * n ≤ a) → Memory.read t.mem a = Memory.read s.mem a ∨ PvByte s a (Memory.read t.mem a))
  ∧ (∀ crew s c, s.crew? crew = some c → Alone c → recService c.record = false → c.phase = .parked → c.reason = 2 → c.loadsPending = false →
    s.stopReason c = false →
    let dn := c.core / 128
    let key := 4 * c.guest + recClass c.record
    ∃ t q, exec (.crewWake crew) s = .next t ∧ SameMem s t ∧ t.crew? crew = some { c with phase := .resumable }
      ∧ q.crew = some crew
      ∧ ((∀ e ∈ SMap.getD (s.die dn).queues key [], e.crew = none) →
          SMap.getD (t.die dn).queues key [] = q :: SMap.getD (s.die dn).queues key []))
  ∧ (∀ crew core s c i q rest, s.crew? crew = some c → c.phase = .resumable → c.framePage = none → c.frame = .pool i →
    let dn := c.core / 128
    let n := 128 * dn + core % 128
    let d := s.die dn
    let b := d.fpbase.toNat + i * d.frameSize
    let regs := recRegs c.record
    let size := 256 + recGangs c.record * (5120 + 128 * regs)
    dn < 4 → d.service = q :: rest → q.crew = some crew → q.rank = none → s.holds .service n q = true → b + size ≤ 2 ^ 39 →
    imageBad (Memory.readBytes s.mem b size) (recGangs c.record) regs = false → s.poisoned = [] →
    Memory.readNat s.mem (b + 0x48) 8 = 0 →
    ∃ t e, exec (.resume crew core) s = .next t ∧ KeptMem s t ∧ t.crew? crew = some e ∧ e.phase = .running ∧ e.core = n
      ∧ (t.die dn).service = rest
      ∧ ∀ j g, j < recGangs c.record → SMap.find c.gangs j = some g → g.liveSlices ≠ [] → ∃ h, SMap.find e.gangs j = some h
        ∧ (∀ r l, r < regs → l < 32 → (h.regs.getV r l).toNat =
            Memory.readNat s.mem (b + 256 + j * (5120 + 128 * regs) + 0x1400 + 4 * (32 * r + l)) 4)
        ∧ (∀ k r, k < 8 → r < 64 → (h.regs.getS k r).toNat =
            Memory.readNat s.mem (b + 256 + j * (5120 + 128 * regs) + 0xA00 + 320 * k + 64 + 4 * r) 4)
        ∧ ∀ l, l < 32 → (h.regs.getLk l).toNat = Memory.readNat s.mem (b + 256 + j * (5120 + 128 * regs) + 0x100 + 8 * l) 8)

/-! ## Vintners and the array -/

/-- The instructions that only a Vintner executes. -/
noncomputable def Sys2Proof.Claims.vintnerOnly (d a : BitVec 6) (imm : BitVec 8) (b c : BitVec 1) (w : BitVec 3) (r : BitVec 2) : List Instr :=
  [.mload d a imm, .mswap, .mstep d a b c w, .mzero { d := d, a := a }, .mzeroFree a, .mdrain d a b c r, .vdsub a, .vsig { d := d, a := a },
   .vyield, .vyieldDone]

/-- The context has queued an operation for the array, and its registers are those of k. -/
def Sys2Proof.Claims.Queues (s : State) (x : VRun) (o : Out) (k : VCtx) (op : ArrOp) : Prop :=
  VSteps s x o { k with queue := x.k.queue ++ [op] }

/-- R64, R320 to R322, R326, R335 to R339: the matrix instructions that fill a bank or queue an operation. `mload` fills the
shadow bank and writes its handle; `mswap`, `mstep`, `mzero` and `mzero.free` queue; `mzero` reports a lack of row blocks; what
R337 refuses ends the card. A part that meets one of the class takes the illegal-encoding fault.
Rests in part on the model's choices of notes/assumptions/14, 19. -/
def Obligations.ArrayQueue : Prop :=
  (∀ d a imm b c w r, ∀ i ∈ vintnerOnly d a imm b c w r, ∀ s x, Issuing s x → exec i s = .next (s.takeTrap x { kind := .illegalEncoding }))
  ∧ (∀ d a (imm : BitVec 8) s x p, VIssuing s x → x.hint 0 = none →
    let c := s.cluster x.cluster
    let addr := x.k.getS2 a.toNat
    c.shadowBank.state = .empty → c.bank0.busy = false → c.bank1.busy = false →
    (addr.toNat % unitBytes ≠ 0 → exec (.mload d a imm) s = .next (s.vFault x .misalignedData))
    ∧ (addr.toNat % unitBytes = 0 → s.translateSpan x.unit x.k.card.asid addr unitBytes .read 258 = (.ok [(p, unitBytes)], s) →
      p.control = false → blockFormat p.fmt = true → 1 ≤ p.geo → p.geo ≤ 3 →
      let b : Bank := { state := .filling, count := if imm = 0 then none else some imm.toNat, va := addr, spans := [spanOf (p, unitBytes)]
                        fmt := p.fmt, geo := p.geo, at_ := x.start }
      exec (.mload d a imm) s = .next ((s.setCluster x.cluster (c.setShadowBank b)).setV x
        { x.k.setS d.toNat (if c.active1 then 0x800 else 0x801) with pc := x.pc + 4, hints := [], loaded := true }))
    ∧ ∀ q, s.translateSpan x.unit x.k.card.asid addr unitBytes .read 258 = (.ok [(q, unitBytes)], s) → addr.toNat % unitBytes = 0 →
      q.control = false → blockFormat q.fmt = false → exec (.mload d a imm) s = .next (s.vFault x .formatMismatch))
  ∧ (∀ s x, VIssuing s x →
    (ArrOp.swap ∈ x.k.queue → exec .mswap s = .next s)
    ∧ (ArrOp.swap ∉ x.k.queue → x.k.loaded = false → exec .mswap s = .next (s.vFault x .matrixSequence))
    ∧ (ArrOp.swap ∉ x.k.queue → x.k.loaded = true → x.k.queue.length < 8 → Queues s x (exec .mswap s) x.k .swap)
    ∧ (ArrOp.swap ∉ x.k.queue → x.k.loaded = true → 8 ≤ x.k.queue.length → exec .mswap s = .next (s.vWait x .queue)))
  ∧ (∀ d a (init edge : BitVec 1) (w : BitVec 3) s x tl acc, VIssuing s x → x.k.queue.length < 8 → w.toNat ≤ 4 →
    let c := s.cluster x.cluster
    let da := x.k.getS a.toNat
    let dc := x.k.getS d.toNat
    let m := (da.extractLsb' 12 10).toNat
    let row0 := (dc.extractLsb' 12 9).toNat
    let key := 1024 * x.k.card.asid + (da.extractLsb' 0 10).toNat
    let t := if edge = 1 then 32 else 16
    da.extractLsb' 22 10 = 0 → dc.extractLsb' 21 11 = 0 → da.extractLsb' 10 2 = 1 → SMap.find c.tiles key = some tl →
    s.acc? x.cluster x.k.card.asid (dc.extractLsb' 0 12).toNat = some acc →
    let shape := m = 0 ∨ 512 < m ∨ m % t ≠ 0
    let range := 2 ^ tl.k * 1024 < aTileBytes m (waBits w.toNat) ∨ 16 * acc.blocks < row0 + m
    let op := ArrOp.step key tl.id (dc.extractLsb' 0 10).toNat acc.id m (waBits w.toNat) row0 (edge == 1) (init == 1) x.start
    let o := exec (.mstep d a init edge w) s
    (tl.pending ≠ 0 → o = .next (s.vWait x (.fill key)))
    ∧ (tl.pending = 0 → tl.fmt ≠ 0 → o = .next (s.vFault x .formatMismatch))
    ∧ (tl.pending = 0 → tl.fmt = 0 → shape → o = .next (s.vFault x .matrixShape))
    ∧ (tl.pending = 0 → tl.fmt = 0 → ¬ shape → range → o = .next (s.vFault x .tileRange))
    ∧ (tl.pending = 0 → tl.fmt = 0 → ¬ shape → ¬ range → x.k.queue = [] →
      (c.activeBank.spent = true → o = .next (s.vFault x .matrixSequence))
      ∧ (c.activeBank.spent = false → Queues s x o x.k op)))
  ∧ (∀ (f : OpS) s x, VIssuing s x → x.k.queue.length < 8 →
    let c := s.cluster x.cluster
    let e := x.k.getS f.a.toNat
    let n := (e.extractLsb' 0 10).toNat
    let blocks := (e.extractLsb' 12 5).toNat + 1
    e.extractLsb' 17 15 = 0 → e.extractLsb' 10 2 = 3 → n < 32 →
    (∀ acc, SMap.find c.accs n = some acc → acc.asid = x.k.card.asid →
      (acc.blocks = blocks → Queues s x (exec (.mzero f) s) (x.k.setS f.d.toNat 0) (.zero n acc.id x.start))
      ∧ (acc.blocks ≠ blocks → exec (.mzero f) s = .next (s.vFault x .illegalHandle))
      ∧ Queues s x (exec (.mzeroFree f.a) s) x.k (.free n acc.id x.start))
    ∧ (SMap.find c.accs n = none →
      (32 < c.blocksUsed + blocks → VSteps s x (exec (.mzero f) s) (x.k.setS f.d.toNat 1))
      ∧ (c.blocksUsed + blocks ≤ 32 → ∃ t k acc, exec (.mzero f) s = .next t ∧ SameMem s t
          ∧ SMap.find (t.cluster x.cluster).vctx x.cls = some k ∧ k.queue = x.k.queue ++ [.zero n acc.id x.start] ∧ k.getS f.d.toNat = 0
          ∧ k.pc = x.pc + 4
          ∧ SMap.find (t.cluster x.cluster).accs n = some acc ∧ acc.blocks = blocks ∧ acc.asid = x.k.card.asid ∧ acc.token = none)
      ∧ exec (.mzeroFree f.a) s = .next (s.vFault x .illegalHandle)))

/-- R329, R340, R341, R354, R367, R368: `mdrain` to a linear page queues the conversion of its rows; `vsig` writes its word with release
once every earlier operation is performed; `vdsub` puts a Decanter card into the pending set with no edge from its own card; `vyield`
gives up its banks, which are recorded with it, and waits for the next time slice while a stop is pending; `vyield.done` ends the card with status 0.
Rests in part on the model's choices of notes/assumptions/19, 47. -/
def Obligations.VintnerCards : Prop :=
  (∀ d a (f y : BitVec 1) (r : BitVec 2) s x acc p l, VIssuing s x → x.k.queue.length < 8 →
    let e := x.k.getS d.toNat
    let h := (e.extractLsb' 0 12).toNat
    let row0 := (e.extractLsb' 12 9).toNat
    let rows := (e.extractLsb' 21 9).toNat + 1
    let pitch := x.k.getS (d.toNat + 1)
    let dest := x.k.getS2 a.toNat
    e.extractLsb' 30 2 = 0 → s.acc? x.cluster x.k.card.asid h = some acc →
    (16 * acc.blocks < row0 + rows → exec (.mdrain d a f y r) s = .next (s.vFault x .tileRange))
    ∧ (row0 + rows ≤ 16 * acc.blocks → s.translate x.unit x.k.card.asid dest .write = (.ok p, s) → p.fmt = 0 → p.geo = 0 →
      ((2 ^ 16 ≤ pitch.toNat ∨ pitch.toNat < 1024) → exec (.mdrain d a f y r) s = .next (s.vFault x .matrixShape))
      ∧ (pitch.toNat < 2 ^ 16 → 1024 ≤ pitch.toNat → baseOk 0 dest = true →
        s.drainRuns x dest (drainSpans 0 rows pitch.toNat) = (.ok l, s) →
        Queues s x (exec (.mdrain d a f y r) s) x.k
          (.drain (h % 1024) acc.id row0 rows pitch.toNat r.toNat (y == 1) (f == 1) l 0 0 x.start))))
  ∧ (∀ (f : OpS) s x p, VIssuing s x → s.vPerformed x = true →
    let addr := x.k.getS2 f.a.toNat
    (addr.toNat % 8 ≠ 0 → exec (.vsig f) s = .next (s.vFault x .misalignedData))
    ∧ (addr.toNat % 8 = 0 → s.translate x.unit x.k.card.asid addr .write = (.ok p, s) → p.local = true → p.pa % 8 = 0 →
      ∃ t k, exec (.vsig f) s = .next t ∧ WroteBut s t p.pa 8 (x.k.getS2 f.d.toNat).toNat
        ∧ SMap.find (t.cluster x.cluster).vctx x.cls = some k ∧ k.pc = x.pc + 4 ∧ k.s = x.k.s
        ∧ ∀ line, SMap.find t.wsTags line ≠ some (.unit x.unit)))
  ∧ (∀ a s x bs u, VIssuing s x → s.vPerformed x = true →
    let addr := x.k.getS2 a.toNat
    let b := BitVec.ofNat 512 (bytesNat bs)
    let g := s.group x.k.die x.k.group
    s.unitRead x.unit x.k.card.asid addr 64 .read = (.ok bs, u) →
    ((addr.toNat % 64 ≠ 0 ∨ blkBad b = true ∨ blkOp b ≠ 2) → exec (.vdsub a) s = .next (u.vFault x .malformedCommand))
    ∧ (addr.toNat % 64 = 0 → blkBad b = false → blkOp b = 2 → blkPrints b = 0 → g.cards.length < 256 →
      ∃ t c k, exec (.vdsub a) s = .next t ∧ SameMem u t ∧ (t.group x.k.die x.k.group).cards = g.cards ++ [c]
        ∧ c.addr = addr ∧ c.asid = x.k.card.asid ∧ c.cls = x.cls ∧ c.cluster = x.cluster % 64 ∧ c.vintner = false ∧ c.state = .pending
        ∧ c.edges = [] ∧ c.entry = none
        ∧ SMap.find (t.cluster x.cluster).vctx x.cls = some k ∧ k.pc = x.pc + 4))
  ∧ (∀ s x, VIssuing s x →
    (x.k.card.guest ∉ (s.die (x.cluster / 16)).ended → VSteps s x (exec .vyield s) x.k)
    ∧ (x.k.card.guest ∈ (s.die (x.cluster / 16)).ended → let c := s.cluster x.cluster
      ∃ t, exec .vyield s = .next t ∧ SameMem s t ∧ (t.cluster x.cluster).vcur = none
        ∧ (t.cluster x.cluster).bank0 = {} ∧ (t.cluster x.cluster).bank1 = {}
        ∧ SMap.find (t.cluster x.cluster).vctx x.cls = some { x.k with
            pc := x.start, hints := [], wait := some .slice, saved := some (c.bank0, c.bank1, c.active1) })
    ∧ (s.vPerformed x = true → ∃ t, exec .vyieldDone s = .next t ∧ SameMem s t ∧ SMap.find (t.cluster x.cluster).vctx x.cls = none
        ∧ ∀ c ∈ (t.group x.k.die x.k.group).cards, c.id = x.k.card.id → c.ended = some (0, 0, x.k.flags)))

/-- x is the context whose operations a cluster's array takes. -/
def Sys2Proof.Claims.Arrays (s : State) (cl : Nat) (x : VRun) : Prop := cl < 64 ∧ s.arrayRun? cl = some x

/-- The array may start the operation that stands first in its queue: no swap is due, no bank is read again, and its token is
the array's. -/
def Sys2Proof.Claims.Starts (s : State) (cl : Nat) (x : VRun) (op : ArrOp) (rest : List ArrOp) : Prop :=
  Arrays s cl x ∧ x.k.queue = op :: rest ∧ op ≠ .swap ∧ (s.cluster cl).bank0.refill = false ∧ (s.cluster cl).bank1.refill = false
    ∧ (s.cluster cl).tokenHeld op = false

/-- The operation has left the queue, with its flags. -/
def Sys2Proof.Claims.OpLeft (t : State) (cl : Nat) (x : VRun) (rest : List ArrOp) (flags : Nat) : Prop :=
  SMap.find (t.cluster cl).vctx x.cls = some { x.k with queue := rest, flags := x.k.flags ||| BitVec.ofNat 5 flags }

/-- R60, R321 to R325, R328, R329, R332, R333, R337 to R340: what a Vintner and its array do between instructions. A dispatched
card gets a context with registers of zero; a program card runs from its code address, and a product card goes through its
sequence; the Vintner issues from the highest class that does not wait. A fill makes a bank ready, or ends the card with the address of its `mload`; a swap makes the shadow
active; a step adds the products of the A tile and the active bank to its rows, one read of each; a zeroing, a free and a
drain act on their accumulator.
Rests in part on the model's choices of notes/assumptions/14. -/
def Obligations.ArraySteps : Prop :=
  (∀ cl cls s die group k, cl < 64 → cls < 4 → s.dispatchedCard cl cls = some (die, group, k) → SMap.find (s.cluster cl).vctx cls = none →
    ∃ t, exec (.vintnerCardStart cl cls) s = .next t ∧ KeptMem s t
      ∧ SMap.find (t.cluster cl).vctx cls = some { die := die, group := group, card := { k with state := .running } })
  ∧ (∀ cl cls s k, cl < 64 → cls < 4 → SMap.find (s.cluster cl).vctx cls = some k → k.prod = 0 →
    let code := k.card.block.extractLsb' 192 64
    (code ≠ 0 → ∃ t, exec (.programCard cl cls) s = .next t ∧ SameMem s t
      ∧ SMap.find (t.cluster cl).vctx cls = some { k with pc := code, prod := 1 })
    ∧ (code = 0 → exec (.programCard cl cls) s = .next s))
  ∧ (∀ cl cls s x, cl < 64 → cls < 4 → s.vRun? cl = some x → x.cls = cls → x.k.card.code = 0 →
    (x.k.prod = 0 → productBad x.k.card = true → exec (.productCard cl cls) s = .next (s.vFault x .matrixShape))
    ∧ (x.k.prod = 0 → productBad x.k.card = false → s.acc? cl x.k.card.asid ((x.k.card.w 1).extractLsb' 0 12).toNat ≠ none →
      exec (.productCard cl cls) s = .next (s.setV x { x.k with prod := 1 }))
    ∧ (x.k.prod = 3 → 4 < ((x.k.card.w 0).extractLsb' 22 3).toNat → exec (.productCard cl cls) s = .next (s.vFault x .illegalEncoding))
    ∧ (x.k.prod = 2 → ArrOp.swap ∉ x.k.queue → x.k.loaded = true → x.k.queue.length < 8 →
      exec (.productCard cl cls) s = .next (s.setV x { x.k with queue := x.k.queue ++ [.swap], prod := 3 }))
    ∧ (x.k.prod = 3 + 3 * (((x.k.card.w 0).extractLsb' 26 6).toNat + 1) → s.vPerformed x = true →
      ∃ t, exec (.productCard cl cls) s = .next t ∧ SameMem s t ∧ SMap.find (t.cluster cl).vctx cls = none))
  ∧ (∀ cl s n k, cl < 64 → n < 4 → SMap.find (s.cluster cl).vctx n = some k → k.wait = none →
    (∀ m j, n < m → m < 4 → SMap.find (s.cluster cl).vctx m = some j → ∃ w, j.wait = some w ∧ s.vOver cl j w = false) →
    ∃ t h, exec (.vintnerSwitch cl) s = .next t ∧ SameMem s t ∧ (t.cluster cl).vcur = some n
      ∧ SMap.find (t.cluster cl).vctx n = some h ∧ h.pc = k.pc ∧ h.s = k.s ∧ h.queue = k.queue ∧ h.wait = none)
  ∧ (∀ cl s x pa, Arrays s cl x → let c := s.cluster cl
    let b := c.shadowBank
    let rd := fun o => if o < unitBytes then Memory.read s.mem (pa + o) else 0
    c.activeBank.busy = false →
    (b.busy = false → exec (.bankFillComplete cl) s = .next s)
    ∧ (∀ k va u, b.busy = true → s.bankSpans x b = (.error (.fault k, va), u) →
      exec (.bankFillComplete cl) s = .next (u.leaveVintner x (causeCode 1 k) b.at_ x.k.flags))
    ∧ (b.state = .filling → b.refill = false → s.spansPoisoned b.spans = true →
      exec (.bankFillComplete cl) s = .next (s.leaveVintner x (causeCode 1 .uncorrectableData) b.at_ x.k.flags))
    ∧ (b.state = .filling → b.refill = false → s.spansPoisoned b.spans = false →
      b.spans = [{ pa := pa, len := unitBytes, peer := none, pv := false }] → pa + unitBytes ≤ 2 ^ 39 →
      (bWellFormed rd b.fmt b.geo = true → ∃ t d, exec (.bankFillComplete cl) s = .next t ∧ KeptMem s t
        ∧ (t.cluster cl).shadowBank = { b with state := .ready, data := d } ∧ (∀ o, SMap.getD d o 0 = rd o)
        ∧ (t.cluster cl).activeBank = c.activeBank)
      ∧ (bWellFormed rd b.fmt b.geo = false → ∃ t, exec (.bankFillComplete cl) s = .next t ∧ SMap.find (t.cluster cl).vctx x.cls = none
        ∧ KeptMem s t)))
  ∧ (∀ cl s x rest, Arrays s cl x → x.k.queue = .swap :: rest → let c := s.cluster cl
    (c.swapDue x.k = false → exec (.swap cl) s = .next s)
    ∧ (c.swapDue x.k = true → ∃ t, exec (.swap cl) s = .next t ∧ SameMem s t ∧ (t.cluster cl).active1 = !c.active1
      ∧ (t.cluster cl).activeBank = { c.shadowBank with state := .active } ∧ (t.cluster cl).shadowBank = {}
      ∧ SMap.find (t.cluster cl).vctx x.cls = some { x.k with queue := rest, loaded := false }))
  ∧ (∀ cl s x key id n ai m wa row0 edge32 init at_ rest tl a, let c := s.cluster cl
    Starts s cl x (.step key id n ai m wa row0 edge32 init at_) rest → SMap.find c.tiles key = some tl → tl.id = id → tl.pending = 0 →
    tl.reads = 0 → SMap.find c.accs n = some a → a.id = ai → a.stale = none → c.activeBank.spent = false →
    let edge := if edge32 then 32 else 16
    let bank := c.activeBank
    let one := fun r j => stepElem (aElem (fun o => SMap.getD tl.data o 0) wa edge r)
      (fun k => bElem (fun o => SMap.getD bank.data o 0) bank.fmt bank.geo k j) wa (elemBits bank.fmt) (min edge (tileEdge bank.geo))
      (if init then 0 else (a.elem ((row0 + r) * 1024 + j)).toNat)
    ∃ t h flags, exec (.matrixStep cl) s = .next t ∧ SameMem s t ∧ OpLeft t cl x rest flags ∧ SMap.find (t.cluster cl).accs n = some h
      ∧ h.id = a.id ∧ h.blocks = a.blocks ∧ h.token = a.token
      ∧ (∀ r j, r < m → j < 1024 → h.elem ((row0 + r) * 1024 + j) = BitVec.ofNat 32 (one r j).1)
      ∧ (∀ e, (e < row0 * 1024 ∨ (row0 + m) * 1024 ≤ e) → h.elem e = a.elem e)
      ∧ (∀ i, flags.testBit i = true ↔ ∃ r j, r < m ∧ j < 1024 ∧ (one r j).2.testBit i = true)
      ∧ (t.cluster cl).activeBank = { bank with count := bank.count.map (· - 1) })
  ∧ (∀ cl s x n ai at_ rest a, let c := s.cluster cl
    SMap.find c.accs n = some a → a.id = ai →
    (Starts s cl x (.zero n ai at_) rest → ∃ t h, exec (.accumulatorZero cl) s = .next t ∧ SameMem s t ∧ OpLeft t cl x rest 0
      ∧ SMap.find (t.cluster cl).accs n = some h ∧ h.id = a.id ∧ h.blocks = a.blocks ∧ ∀ e, h.elem e = 0)
    ∧ (Starts s cl x (.free n ai at_) rest → ∃ t, exec (.accumulatorFree cl) s = .next t ∧ SameMem s t ∧ OpLeft t cl x rest 0
      ∧ SMap.find (t.cluster cl).accs n = none))
  ∧ (∀ cl s x n ai row0 rows pitch rnd sat pa kind at_ rest a, let c := s.cluster cl
    let len := 4 * (rows * pitch)
    Starts s cl x (.drain n ai row0 rows pitch rnd sat false [(0, kind, { pa := pa, len := len, peer := none, pv := false })] 0 0 at_) rest →
    SMap.find c.accs n = some a → a.id = ai → 1024 ≤ pitch → pa + len ≤ 2 ^ 39 →
    (∀ b, pa ≤ b → b < pa + len → NoPvCopy s b) →
    ∃ t, exec (.accumulatorDrain cl) s = .next t ∧ OpLeft t cl x rest 0 ∧ SMap.find (t.cluster cl).accs n = some a
      ∧ (∀ m j, m < rows → j < 1024 → Memory.readNat t.mem (pa + 4 * (m * pitch + j)) 4 = (a.elem ((row0 + m) * 1024 + j)).toNat)
      ∧ ∀ b, (∀ m, m < rows → b < pa + 4 * (m * pitch) ∨ pa + 4 * (m * pitch + 1024) ≤ b) →
          Memory.read t.mem b = Memory.read s.mem b ∨ PvByte s b (Memory.read t.mem b))

/-! ## The command engine and the Decanter -/

/-- A unit holds the translation of the n bytes at va, readable and writable, to one run of this module's DRAM outside the
page-attribute table, in this state and in every state with the same translations, ports and attribute table; no line is marked
as uncorrectable. -/
def Sys2Proof.Claims.Cached (s : State) (u : UnitId) (asid : Nat) (va : W64) (n : Nat) (p : Page) : Prop :=
  (∀ (t : State) (acc : Access), acc ≠ .execute → t.tlb = s.tlb → t.ports.devid = s.ports.devid → (t.die u.die).atbase = (s.die u.die).atbase →
      t.translate u asid va acc = (.ok p, t))
    ∧ p.local = true ∧ va.toNat % 2 ^ 52 + n ≤ p.base + p.size ∧ p.pa + n ≤ 2 ^ 39
    ∧ (p.pa + n ≤ (s.die u.die).atbase.toNat ∨ (s.die u.die).atbase.toNat + 2 ^ 28 ≤ p.pa) ∧ s.poisoned = []

/-- The state after an engine has chosen a ring for a turn. -/
def Sys2Proof.Claims.turned (s : State) (r : RingRef) : State :=
  let t := s.setDie r.die { s.die r.die with lastGroup := r.group }
  t.setGroup r.die r.group { t.group r.die r.group with last := r.ring }

/-- The ring is the only one that may take a turn on its die, and its descriptor is translated. -/
def Sys2Proof.Claims.OnlyRing (s : State) (r : RingRef) (p : Page) : Prop :=
  r.die < 4 ∧ r.group < 64 ∧ r.ring < 64 ∧ (s.die r.die).inTurn = none ∧ (s.group r.die r.group).enabled = true
    ∧ s.ringOpen r = true ∧ (∀ n, s.ringOpen { r with ring := n } = true → n = r.ring)
    ∧ (∀ m, m < 64 → m ≠ r.group → s.groupReady r.die m = false)
    ∧ Cached s (.engine r.die) (s.ring r).asid (s.ring r).desc 64 p ∧ p.pa % 64 = 0

/-- R350 to R363: a ring without an entry takes no turn, and where no ring may take one the engine does nothing; the turn of a
ring with a new entry takes it and advances the head; a turn goes on with its walk, and a block that writes a word writes it. An
entry completes in its order, once walked and without pending cards: its status record, then its sequence word. A ring that a
fault stopped goes on once software has cleared STOP: the faulted entry's walk is over, another's goes on. A registration checks
its descriptor.
Rests in part on the model's choices of notes/assumptions/26. -/
def Obligations.EngineTurns : Prop :=
  (∀ s die, die < 4 → (s.die die).inTurn = none → (∀ m n, s.ringOpen { die := die, group := m, ring := n } = false) →
    exec (.engineTurn die) s = .next s)
  ∧ (∀ s r p, Cached s (.engine r.die) (s.ring r).asid (s.ring r).desc 64 p → (s.ring r).walk = none →
    Memory.readNat s.mem (p.pa + 8) 8 = Memory.readNat s.mem (p.pa + 16) 8 → s.ringOpen r = false)
  ∧ (∀ s r p q, OnlyRing s r p → (s.ring r).walk = none →
    let tail := Memory.readNat s.mem (p.pa + 8) 8
    let head := Memory.readNat s.mem (p.pa + 16) 8
    let ctl := Memory.readNat s.mem (p.pa + 48) 4
    head ≠ tail → ctl.testBit 5 = false →
    Cached s (.engine r.die) (s.ring r).asid (BitVec.ofNat 64 (Memory.readNat s.mem p.pa 8 + 8 * (head % 2 ^ (ctl % 32)))) 8 q →
    Memory.readNat s.mem q.pa 8 = 0 →
    ∃ t, exec (.engineTurn r.die) s = .next t ∧ WroteBut s t (p.pa + 16) 8 (head + 1) ∧ (t.ring r).walk = none
      ∧ (t.ring r).entries.length = (s.ring r).entries.length + 1 ∧ ∃ e ∈ (t.ring r).entries, e.n = head ∧ e.walked = true)
  ∧ (∀ s r p w cp q bs, OnlyRing s r p → (s.ring r).walk = some w → w.stack = [] → w.cur ≠ 0 →
    let u : UnitId := .engine r.die
    let b := BitVec.ofNat 512 (bytesNat bs)
    Cached s u (s.ring r).asid w.cur 64 cp → Memory.readBytes s.mem cp.pa 64 = bs →
    blkBad b = false → blkOp b = 4 → blkOperand b = 0 → blkDrain b = false → blkTest b = 0 → blkNext b = 0 →
    Cached s u (s.ring r).asid (blkWord b 24) 8 q → q.pa % 8 = 0 →
    ∃ t, exec (.engineTurn r.die) s = .next t ∧ WroteBut s t q.pa 8 (blkWord b 32).toNat ∧ (t.ring r).walk = none
      ∧ ∀ e ∈ (t.ring r).entries, e.n = w.entry → e.walked = true)
  ∧ (∀ s r, (∀ l, (s.ring r).testLine = some (l, true) → exec (.testWaitWake r) s = .next (s.setRing r { s.ring r with testLine := none }))
    ∧ ((∀ l, (s.ring r).testLine ≠ some (l, true)) → exec (.testWaitWake r) s = .next s)
    ∧ ((s.ring r).valid = true → (s.ring r).tailFired = true →
        exec (.ringWake r) s = .next (s.setRing r { s.ring r with tailFired := false, awake := true }))
    ∧ ((s.ring r).tailFired = false → exec (.ringWake r) s = .next s))
  ∧ (∀ s r e rest p q, (s.ring r).valid = true → (s.ring r).donePage = none → ((s.ring r).stopped = false ∨ (s.ring r).faultEntry ≠ some e.n) →
    (s.ring r).entries = e :: rest →
    let u : UnitId := .engine r.die
    let st := Memory.readNat s.mem (p.pa + 32) 8
    let size := 2 ^ (Memory.readNat s.mem (p.pa + 48) 4 % 32)
    Cached s u (s.ring r).asid (s.ring r).desc 64 p → p.pa % 64 = 0 →
    (e.walked = false → exec (.entryComplete r) s = .next s)
    ∧ ((∃ c ∈ (s.group r.die r.group).cards, c.entry = some (r.ring, e.n)) → exec (.entryComplete r) s = .next s)
    ∧ (e.walked = true → (∀ c ∈ (s.group r.die r.group).cards, c.entry ≠ some (r.ring, e.n)) →
      (st = 0 → ∃ t, exec (.entryComplete r) s = .next t ∧ WroteBut s t (p.pa + 24) 8 (Memory.readNat s.mem (p.pa + 24) 8 + 1)
        ∧ (t.ring r).entries = rest ∧ (t.ring r).next = e.n + 1)
      ∧ (st ≠ 0 → Cached s u (s.ring r).asid (BitVec.ofNat 64 (st + 64 * (e.n % size))) 64 q → (q.pa + 64 ≤ p.pa ∨ p.pa + 64 ≤ q.pa) →
        NoPvCopy s p.pa → (∀ a, q.pa ≤ a → a < q.pa + 64 → NoPvCopy s a) →
        ∃ t, exec (.entryComplete r) s = .next t ∧ Memory.readNat t.mem q.pa 8 = e.n % 2 ^ 64
          ∧ Memory.readNat t.mem (q.pa + 16) 8 = e.faultAddr.toNat
          ∧ Memory.readNat t.mem (q.pa + 24) 2 = (if e.cause = 0 then 0 else e.cause + 2 ^ 15) % 2 ^ 16
          ∧ Memory.readNat t.mem (q.pa + 27) 1 = 3 ∧ Memory.readNat t.mem (q.pa + 28) 4 = e.cards % 2 ^ 32
          ∧ Memory.readNat t.mem (p.pa + 24) 8 = (Memory.readNat s.mem (p.pa + 24) 8 + 1) % 2 ^ 64
          ∧ (t.ring r).entries = rest ∧ (t.ring r).next = e.n + 1)))
  ∧ (∀ s r p, (s.ring r).valid = true → (s.ring r).stopped = true → (s.ring r).fault.isSome = true →
    (s.ring r).unwritten = none → Cached s (.engine r.die) (s.ring r).asid (s.ring r).desc 64 p → p.pa % 64 = 0 →
    ((Memory.readNat s.mem (p.pa + 48) 4).testBit 24 = true → exec (.ringResume r) s = .next s)
    ∧ ((Memory.readNat s.mem (p.pa + 48) 4).testBit 24 = false → ∃ t, exec (.ringResume r) s = .next t ∧ SameMem s t
        ∧ (t.ring r).stopped = false ∧ (t.ring r).fault = none
        ∧ (∀ w, (s.ring r).walk = some w → (t.ring r).walk = if (s.ring r).faultEntry = some w.entry then none else some w)
        ∧ ∀ n, (s.ring r).faultEntry = some n → ∀ e ∈ (t.ring r).entries, e.n = n → e.walked = true))
  ∧ (∀ s r asid desc p, r.die < 4 → r.group < 64 → r.ring < 64 → asid < 2 ^ 16 →
    (∃ t, exec (.mgringWrite r asid desc false) s = .next t ∧ SameMem s t ∧ t.ring r = { valid := false, asid := asid, desc := desc })
    ∧ (s.descriptor (.engine r.die) asid = ((s.descriptor (.engine r.die) asid).1, s) →
      (s.descriptor (.engine r.die) asid).1.guest = (s.group r.die r.group).guest → Cached s (.engine r.die) asid desc 64 p →
      p.kind ≠ .ws → p.kind ≠ .pv →
      let ctl := Memory.readNat s.mem (p.pa + 48) 4
      (desc.toNat % 64 = 0 → ctlBad ctl = false → ctl / 64 % 4 = 1 → ∃ t, exec (.mgringWrite r asid desc true) s = .next t ∧ SameMem s t
        ∧ t.ring r = { valid := true, asid := asid, desc := desc, tailLine := p.pa / 128 })
      ∧ ((desc.toNat % 64 ≠ 0 ∨ ctlBad ctl = true ∨ ctl / 64 % 4 ≠ 1) → ∃ t, exec (.mgringWrite r asid desc true) s = .next t
        ∧ (t.ring r).valid = false)))

/-- R365 to R374: a pending card whose edges are met goes to its free engine, with a cursor at its first unit on a Decanter; a card
that its engine has ended leaves the pending set, its flags and its first cause go to its entry, and the edges from it are
met. A chunk of one unit of a copy of raw bytes copies its byte and moves the cursor; the last one ends the card; a card that
breaks R369 to R371 ends with the malformed-command fault.
Rests in part on the model's choices of notes/assumptions/54. -/
def Obligations.Cards : Prop :=
  (∀ die m n s c rest, die < 4 → m < 64 → let g := s.group die m
    g.cards.drop n = c :: rest →
    ((c.state ≠ .pending ∨ c.edges ≠ []) → exec (.cardDispatch die m n) s = .next s)
    ∧ (c.state = .pending → c.edges = [] → s.engineFree c.vintner c.cluster c.cls = true → s.nextCardIs c = true →
      ∃ t, exec (.cardDispatch die m n) s = .next t ∧ KeptMem s t
        ∧ (t.group die m).cards = g.cards.map (fun k => if k.id = c.id then { c with state := .dispatched } else k)
        ∧ (c.vintner = false → ∃ k, SMap.find (t.cluster c.cluster).dec c.cls = some k ∧ k.card = c ∧ k.row = 0 ∧ k.col = 0 ∧ k.flags = 0
            ∧ k.page = none))
    ∧ (c.ended = none → exec (.cardComplete die m n) s = .next s)
    ∧ (∀ cause addr flags, c.ended = some (cause, addr, flags) →
      ∃ t, exec (.cardComplete die m n) s = .next t ∧ SameMem s t
        ∧ (∀ k ∈ (t.group die m).cards, k.id ≠ c.id ∧ c.id ∉ k.edges)
        ∧ (∀ k ∈ g.cards, k.id ≠ c.id → ∃ j ∈ (t.group die m).cards, j.id = k.id ∧ j.edges = k.edges.filter (· != c.id))
        ∧ (∀ rn e more, c.entry = some (rn, e.n) → (s.ring { die := die, group := m, ring := rn }).entries = e :: more →
            ∃ f more', (t.ring { die := die, group := m, ring := rn }).entries = f :: more' ∧ f.n = e.n ∧ f.flags = e.flags ||| flags
              ∧ f.cause = if e.cause = 0 then cause else e.cause)))
  ∧ (∀ cl units n s k, cl < 64 → (s.cluster cl).decCur = some n → s.decChoice cl = some n → SMap.find (s.cluster cl).dec n = some k →
    let c := k.card.dec
    let u : UnitId := .decanter cl
    let asid := k.card.asid
    (c.bad = true → ∃ t, exec (.decanterChunk cl units) s = .next t ∧ SameMem s t ∧ SMap.find (t.cluster cl).dec n = none)
    ∧ (∀ sb db sp dp, c.bad = false → units ≤ 1 → c.dk = 0 → c.st = 15 → c.dt = 15 → k.row < c.rows → k.col < c.cols →
      Cached s u asid c.src 1 sb → Cached s u asid c.dst 1 db →
      Cached s u asid (c.src + BitVec.ofNat 64 (k.row * c.ps + k.col)) 1 sp → Cached s u asid (c.dst + BitVec.ofNat 64 (k.row * c.pd + k.col)) 1 dp →
      (∀ q ∈ [sb, db, sp, dp], q.fmt = 0 ∧ q.geo = 0) →
      let next := k.row * c.cols + k.col + 1
      ∃ t, exec (.decanterChunk cl units) s = .next t ∧ WroteBut s t dp.pa 1 (Memory.read s.mem sp.pa).toNat
        ∧ SMap.find (t.cluster cl).dec n =
            if c.rows * c.cols ≤ next then none else some { k with row := next / c.cols, col := next % c.cols }))

/-! ## Coprocessors -/

/-- The calls of R387 that any cluster's own unit serves. -/
noncomputable def Sys2Proof.Claims.ownCalls (g : BitVec 3) (d a b : BitVec 6) : List (Instr × CallShape × BitVec 6) :=
  [(.rast g d b, { unit := .raster, major := 0x34, minor := 0, nv := 0, ns := 16, nd := 5 }, 0),
   (.rastbin g d b, { unit := .raster, major := 0x34, minor := 1, nv := 0, ns := 8, nd := 2 }, 0),
   (.binflush g d b, { unit := .raster, major := 0x34, minor := 2, nv := 0, ns := 2, nd := 1 }, 0),
   (.tex { g := g, d := d, a := a, b := b }, { unit := .texture, major := 0x36, minor := 0, nv := 3, ns := 4, nd := 5 }, a),
   (.texg { g := g, d := d, a := a, b := b }, { unit := .texture, major := 0x36, minor := 1, nv := 3, ns := 4, nd := 5 }, a),
   (.texq { g := g, d := d, a := a, b := b }, { unit := .texture, major := 0x36, minor := 2, nv := 1, ns := 4, nd := 4 }, a),
   (.trav { g := g, d := d, a := a, b := b }, { unit := .traversal, major := 0x37, minor := 0, nv := 8, ns := 4, nd := 5 }, a),
   (.travc { g := g, d := d, a := a, b := b }, { unit := .traversal, major := 0x37, minor := 1, nv := 8, ns := 8, nd := 6 }, a)]

/-- The calls that the owner of a render target serves. -/
noncomputable def Sys2Proof.Claims.targetCalls (g : BitVec 3) (d a b : BitVec 6) : List (Instr × CallShape × BitVec 6) :=
  [(.ctok { g := g, d := d, a := a, b := b }, { unit := .depth, major := 0x35, minor := 0, nv := 1, ns := 4, nd := 2 }, d),
   (.zs { g := g, d := d, a := a, b := b }, { unit := .depth, major := 0x35, minor := 1, nv := 3, ns := 4, nd := 1 }, d),
   (.zsP g a b, { unit := .depth, major := 0x35, minor := 1, posted := true, nv := 3, ns := 4, nd := 0 }, 0),
   (.blnd { g := g, d := d, a := a, b := b }, { unit := .blend, major := 0x35, minor := 2, nv := 6, ns := 4, nd := 1 }, d),
   (.blndP g a b, { unit := .blend, major := 0x35, minor := 2, posted := true, nv := 6, ns := 4, nd := 0 }, 0)]

/-- A call stands last in a unit's queue of a cluster, with the operands of its active lanes and the block of `s` registers of the
lowest of them. -/
def Sys2Proof.Claims.Accepted (s t : State) (x : Ctx) (cl : Nat) (h : CallShape) (g : BitVec 3) (d a b : BitVec 6) (l : Nat) : Prop :=
  ∃ k, (t.cluster cl).calls = (s.cluster cl).calls ++ [k] ∧ k.id = s.nextCall ∧ t.nextCall = s.nextCall + 1
    ∧ k.unit = h.unit ∧ k.major = h.major ∧ k.minor = h.minor ∧ k.posted = h.posted ∧ k.crew = x.crew ∧ k.gang = x.gang
    ∧ k.slices = x.mask ∧ k.asid = x.c.asid ∧ k.dest = d.toNat ∧ (∀ i, i < 32 → k.lanes.getLsbD i = x.on g.toNat i)
    ∧ (∀ j, j < h.ns → k.s j = x.g.regs.getS (l / 4) (b.toNat + j))
    ∧ (∀ j i, j < h.nv → x.on g.toNat i = true → i < 32 → k.v j i = x.g.regs.getV (a.toNat + j) i)

/-- The record that the part waits for after a call. -/
def Sys2Proof.Claims.Awaits (s t : State) (x : Ctx) (h : CallShape) (d : BitVec 6) : Prop :=
  ∃ q, t.gang? x.crew x.gang = some q
    ∧ q.records = x.g.records ++ (if h.posted then [] else [{ call := s.nextCall, slices := x.mask, reg := d.toNat, count := h.nd }])

/-- R386 to R389, R395, R397: a coprocessor call is accepted when its unit's queue has room, which a part waits for with code 8;
the part then goes on with its record outstanding, or, for `zs` and `blnd`, waits until its lanes have entered their windows.
Rests in part on the model's choices of notes/assumptions/50. -/
def Obligations.CoprocessorCalls : Prop :=
  (∀ g d a b, ∀ e ∈ ownCalls g d a b, ∀ s x l rest, Issuing s x → Fresh s x → Settled s x → x.lanes g.toNat = l :: rest →
    let h := e.2.1
    let cl := x.c.core / 8
    Holds x [(e.2.2, h.nv), (d, h.nd)] →
    (16 ≤ (s.cluster cl).queued h.unit → Waits s x (exec e.1 s) 8 (8 * (cl + 1) + copCode h.unit) 0)
    ∧ ((s.cluster cl).queued h.unit < 16 → ∃ t, exec e.1 s = .next t ∧ Went s x t x.g.regs ∧ SameMem s t
        ∧ Accepted s t x cl h g d e.2.2 b l ∧ Awaits s t x h d))
  ∧ (∀ g d a b, ∀ e ∈ targetCalls g d a b, ∀ s x l rest p, Issuing s x → Fresh s x → Settled s x → x.lanes g.toNat = l :: rest →
    let h := e.2.1
    let own : UnitId := .coprocessor (x.c.core / 8)
    let va := x.g.regs.getS2 (l / 4) (b.toNat + 2)
    let cl := (Memory.read s.mem (p.pa + 29)).toNat
    let ctl := x.g.regs.getS (l / 4) b.toNat
    Holds x [(a, h.nv), (e.2.2, h.nd)] → va.toNat % 64 = 0 →
    Cached s own x.c.asid va 64 p → cl < 64 →
    (16 ≤ (s.cluster cl).queued h.unit → Waits s x (exec e.1 s) 8 (8 * (cl + 1) + copCode h.unit) 0 KeptMem)
    ∧ ((s.cluster cl).queued h.unit < 16 →
      (h.minor = 0 → takeWaits (s.cluster cl) (targetKey p) (x.lanes g.toNat).length ctl = false →
        ∃ t, exec e.1 s = .next t ∧ Went s x t x.g.regs ∧ KeptMem s t ∧ Accepted s t x cl h g e.2.2 a b l ∧ Awaits s t x h e.2.2)
      ∧ (h.minor = 0 → takeWaits (s.cluster cl) (targetKey p) (x.lanes g.toNat).length ctl = true →
        Waits s x (exec e.1 s) 8 (8 * (cl + 1) + 1 + 1024 * (x.lanes g.toNat).length) (targetKey p) KeptMem)
      ∧ (h.minor ≠ 0 → Waits s x (exec e.1 s) 8 0 s.nextCall KeptMem
        ∧ ∃ t, exec e.1 s = .next t ∧ Accepted s t x cl h g e.2.2 a b l ∧ Awaits s t x h e.2.2)))

/-- R389 to R398, R405, R406: how calls end. A unit serves its oldest call: a take of tokens gives each lane the next token of the
stream and writes the stream's word, and a reserved bit is the coprocessor-descriptor fault in every lane's status. A lane
enters its tile's window while it has room; a `zs` lane compares and writes its sample's depth as one step. A record is
written into the registers that its call named, and the waits for it end.
Rests in part on the model's choices of notes/assumptions/38, 50. -/
def Obligations.CoprocessorUnits : Prop :=
  (∀ cl s k rest p q, cl < 64 → (s.cluster cl).calls = k :: rest → k.unit = .depth → k.major = 0x35 → k.minor = 0 → k.posted = false →
    let u : UnitId := .coprocessor cl
    let va := k.s2 2
    let d := BitVec.ofNat 512 (Memory.readNat s.mem p.pa 64)
    let c := s.cluster cl
    (∀ j ∈ rest, j.id ≠ k.id) → va.toNat % 64 = 0 → Cached s u k.asid va 64 p → p.kind = .rc → tgBad d = false → tgOwner d = cl →
    Cached s u k.asid (va + 32) 8 q → q.pa = p.pa + 32 →
    let draw := tgStream d / 2 ^ 20
    let next := tgStream d % 2 ^ 20
    let n := k.laneList.length
    let word := draw * 2 ^ 20 + (next + n) % 2 ^ 20
    ((4 ≤ (k.s 0).toNat ∨ k.s 1 ≠ 0) → (∀ g, s.gang? k.crew k.gang = some g → ∀ j, (g.slice j).wait = none) →
      ∃ t r, exec (.coprocessorServe cl .depth) s = .next t ∧ SameMem s t ∧ (t.cluster cl).calls = rest
        ∧ (t.cluster cl).records = c.records ++ [r] ∧ r.call = k
        ∧ ∀ i ∈ k.laneList, SMap.getD r.words i 0 = BitVec.ofNat 32 ((3 * 64 + 32) * 2 ^ 16 + 4))
    ∧ (k.s 0 = 0 → k.s 1 = 0 → c.targets = [] → c.held = [] → n ≠ 0 → next + n ≤ 2 ^ 20 → tgCommit d = tgStream d →
      ∃ t r g, exec (.coprocessorServe cl .depth) s = .next t ∧ WroteBut s t (p.pa + 32) 8 word ∧ (t.cluster cl).calls = rest
        ∧ (t.cluster cl).records = c.records ++ [r] ∧ r.call = k
        ∧ (∀ j i, k.laneList[j]? = some i → SMap.getD r.words i 0 = 0 ∧ SMap.getD r.words (32 + i) 0 = BitVec.ofNat 32 (draw * 2 ^ 20 + next + j))
        ∧ (t.cluster cl).targets = [(targetKey p, g)] ∧ g.live = (List.range n).map (fun j => draw * 2 ^ 20 + next + j)))
  ∧ (∀ cl s h rest tile, cl < 64 → (s.cluster cl).held = h :: rest → h.tile = some tile → h.entered = false →
    let win := (s.cluster cl).window h.target tile
    (h.token ∈ win ∨ win.length < 63 →
      ∃ t q more, exec (.windowEntry cl 0) s = .next t ∧ (t.cluster cl).held = q :: more ∧ q = { h with entered := true })
    ∧ (∀ g, SMap.find (s.cluster cl).targets h.target = some g → h.token ∉ win → 63 ≤ win.length → (∃ x ∈ g.live, x < h.token) →
      exec (.windowEntry cl 0) s = .next s))
  ∧ (∀ cl s h rest g p, cl < 64 → (s.cluster cl).held = h :: rest → SMap.find (s.cluster cl).targets h.target = some g →
    let k := h.call
    let za := tgDepth g.desc + BitVec.ofNat 64 (h.sample * 4)
    (s.cluster cl).performable h = true → k.minor = 1 → k.major = 0x35 → k.posted = false → k.last = false → h.token ∈ g.live → h.token ≤ g.commit →
    tgDepth g.desc ≠ 0 → tgStencil g.desc = 0 → Cached s (.coprocessor cl) k.asid za 4 p → p.pa % 4 = 0 →
    let z := k.v 2 h.lane
    let pass := depthPass ((k.s 0).extractLsb' 0 3).toNat (f32Val z) (FpFmt.f32.ext (Memory.readNat s.mem p.pa 4))
    ∃ t q, exec (.lanePerform cl 0) s = .next t ∧ q ∈ (t.cluster cl).held ∧ q.call = k ∧ q.lane = h.lane ∧ q.done = true
      ∧ q.result = (if pass then 256 else 0)
      ∧ if pass = true ∧ (k.s 0).getLsbD 3 = true then WroteBut s t p.pa 4 z.toNat else KeptMem s t)
  ∧ (∀ cl s r rest c g p, cl < 64 → (s.cluster cl).records = r :: rest → s.crew? r.call.crew = some c → c.phase = .running →
    s.gang? r.call.crew r.call.gang = some g → g.records = [p] → p.call = r.call.id →
    ∃ t h, exec (.callRecordArrival cl 0) s = .next t ∧ SameMem s t ∧ t.gang? r.call.crew r.call.gang = some h ∧ h.records = []
      ∧ (t.cluster cl).records = rest
      ∧ (∀ q i, i < 32 → h.regs.getV q i = if r.call.dest ≤ q ∧ q < r.call.dest + p.count ∧ r.call.lanes.getLsbD i = true
          then SMap.getD r.words (32 * (q - r.call.dest) + i) 0 else g.regs.getV q i)
      ∧ (∀ w, r.cursor = some w → r.call.base + 12 < 64 → ∀ k, k < 8 → h.regs.getS k (r.call.base + 12) =
          if r.call.slices.getLsbD k then w else g.regs.getS k (r.call.base + 12))
      ∧ ∀ k, k < 8 → h.slice k = match (g.slice k).wait with
          | some w => if w.code = 3 ∧ w.num = 0 then { g.slice k with wait := none } else g.slice k
          | none => g.slice k)

/-! ## The control space, plug-ins and resident cores -/

/-- R197, R285, R360, R430 to R433: an access to a register is of 4 or 8 bytes, aligned, and read-only registers keep their value;
a write of a base register, a head, a queue size, an interrupt enable, a merge group's control and a way mask leaves what its
bits give, and no other register of the same kind changes. The period and a guest's share are the firmware core's to write, and it
writes the queue window only. Clearing CF of `HSWSC` clears it. -/
def Obligations.ControlSpace : Prop :=
  (∀ fw dn off size v s, regAligned off size = false → exec (.registerWrite ⟨dn, fw⟩ off size v) s = .next s)
  ∧ (∀ dn off size v s, (off < 0x40000 ∨ 0x80000 ≤ off) → exec (.registerWrite ⟨dn, true⟩ off size v) s = .next s)
  ∧ (∀ fw dn v s, dn < 4 → ∀ off ∈ [0, 8, 0x500], exec (.registerWrite ⟨dn, fw⟩ off 8 v) s = .next s)
  ∧ (∀ dn off v s, dn < 4 → off ∈ [0x100, 0x200, 0x300, 0x310, 0x10000, 0x10008, 0x10010, 0x10030] →
    ∃ t u, exec (.registerWrite ⟨dn, false⟩ off 8 v) s = .next t ∧ exec (.registerWrite ⟨dn, false⟩ (off + 4) 4 v) s = .next u ∧ SameMem s t ∧ SameMem s u
      ∧ (t.regRead dn off 8) = v
      ∧ (u.regRead dn off 8) = v.extractLsb' 0 32 ++ (s.regRead dn off 4).extractLsb' 0 32
      ∧ ∀ n, n ≠ dn → t.die n = s.die n ∧ u.die n = s.die n)
  ∧ (∀ dn v s, dn < 4 → let d := s.die dn
    exec (.registerWrite ⟨dn, false⟩ 0x208 4 v) s = .next (s.setDie dn { d with mbhead := v.toNat % 512 })
    ∧ (d.faults = [] → exec (.registerWrite ⟨dn, false⟩ 0x108 4 v) s = .next (s.setDie dn { d with fqhead := v.toNat % 1024 }))
    ∧ exec (.registerWrite ⟨dn, false⟩ 0x10018 4 v) s = .next (s.setDie dn { d with prqhead := v.toNat % 4096 })
    ∧ exec (.registerWrite ⟨dn, false⟩ 0x10038 4 v) s = .next (s.setDie dn { d with mnqhead := v.toNat % 1024 })
    ∧ (let w := (s.regRead dn 8 4)
       (w.getLsbD 0 = true ↔ d.mbhead ≠ d.mbtail) ∧ (w.getLsbD 1 = true ↔ d.fqhead ≠ d.fqtail)
       ∧ (w.getLsbD 2 = true ↔ d.prqhead ≠ d.prqtail) ∧ (w.getLsbD 3 = true ↔ d.mnqhead ≠ d.mnqtail)
       ∧ ∀ i, 4 ≤ i → w.getLsbD i = false)
    ∧ (let size := fun old lo => let n := v.toNat / 2 ^ lo % 32
        if 5 ≤ n ∧ n ≤ 20 then n else old
       exec (.registerWrite ⟨dn, false⟩ 0x308 4 v) s = .next (s.setDie dn { d with
        cls2 := size d.cls2 0, svc2 := size d.svc2 8, dev2 := size d.dev2 16, tile2 := size d.tile2 24 }))
    ∧ exec (.registerWrite ⟨dn, false⟩ 0x40000 4 v) s = .next s
    ∧ (let n := v.toNat % 32
       exec (.registerWrite ⟨dn, true⟩ 0x40000 4 v) s = .next (if 16 ≤ n ∧ n ≤ 24 then s.setDie dn { d with schper := n } else s))
    ∧ ∀ g, g < 64 → exec (.registerWrite ⟨dn, false⟩ (0x40100 + 4 * g) 4 v) s = .next s
      ∧ ∃ t, exec (.registerWrite ⟨dn, true⟩ (0x40100 + 4 * g) 4 v) s = .next t ∧ SameMem s t ∧ (t.die dn).share g = v.toNat % 2048
        ∧ ∀ k, k ≠ g → (t.die dn).share k = d.share k)
  ∧ (∀ dn v s c, dn < 4 → c < 8 → ∃ t, exec (.registerWrite ⟨dn, false⟩ (0x10 + 8 * c) 4 v) s = .next t ∧ SameMem s t
      ∧ (t.regRead dn (0x10 + 8 * c) 4) = v &&& 15
      ∧ ∀ k, k < 8 → k ≠ c → (t.regRead dn (0x10 + 8 * k) 4) = (s.regRead dn (0x10 + 8 * k) 4))
  ∧ (∀ dn v s m, dn < 4 → m < 64 → ∃ t, exec (.registerWrite ⟨dn, false⟩ (0x40400 + 4 * m) 4 v) s = .next t ∧ SameMem s t
      ∧ (t.group dn m).ctl = v.setWidth 32 &&& 0xFF07 ∧ ∀ k, k ≠ m → t.group dn k = s.group dn k)
  ∧ (∀ dn v s g, dn < 4 → g < 64 → ∃ t, exec (.registerWrite ⟨dn, false⟩ (0x200100 + 4 * g) 4 v) s = .next t ∧ SameMem s t
      ∧ (∀ h, h < 256 → SMap.getD t.hswm (64 * h + g) 0xFFFF = v.setWidth 32 &&& 0xFFFF)
      ∧ ∀ h k, k < 64 → k ≠ g → SMap.getD t.hswm (64 * h + k) 0xFFFF = SMap.getD s.hswm (64 * h + k) 0xFFFF)
  ∧ (∀ h s, h < 256 → ∃ t, exec (.hswscClear h) s = .next t ∧ SameMem s t ∧ (t.readSlice h 0x800) = 0
      ∧ (∀ k, k ≠ h → (t.readSlice k 0x800) = (s.readSlice k 0x800))
      ∧ ∀ dn v, dn < 4 → exec (.registerWrite ⟨dn, false⟩ (0x100000 + 0x1000 * h + 0x800) 8 v) s = .next (if v.getLsbD 63 then t else s))

/-- The shares that the guests of a plug-in ask for, each up to its ceiling. -/
def Sys2Proof.Claims.sharesAsked (p : Plugin) (reply : List Nat) : List (Nat × Nat) :=
  (p.guests.zip reply).map (fun q => (q.1, min (q.2 % 2048) (SMap.getD p.ceilings q.1 1024)))

/-- R443, R444: the scheduler calls a plug-in that may be called, at a period's start with its guests' `GUSE` and at an overrun
with the oldest notice about one of them, its reply area within its window and a protection entry set for that; a return ends the turn and, after a period's start, gives each guest the share it
asked for, up to its ceiling and scaled down in proportion when the sum exceeds 1,024; `ecall` 1 and 2; a run longer than
20 µs, another `ecall` and an access fault end the turn and the shares stay; the hypervisor enables the plug-in again.
Rests in part on the model's choices of notes/assumptions/6, 39, 64. -/
def Obligations.PlugIns : Prop :=
  ∀ die tenant s, die < 4 → let p := s.plugin die tenant
    let may := tenant < 64 ∧ p.enabled = true ∧ p.failures < 3 ∧ ∀ q ∈ (s.die die).plugins, q.2.event = 0
    let uses := p.guests.map (fun g => BitVec.ofNat 64 ((s.die die).use g))
    (may → ∃ t, exec (.pluginPeriodStart die tenant) s = .next t ∧ SameMem s t
      ∧ t.plugin die tenant = { p with event := 1, since := s.clock, a0 := 1, a1 := Config.eventPage die, a2 := (t.plugin die tenant).a2,
                                       page := uses }
      ∧ (256 ≤ p.window.2 → p.window.1 + p.window.2 ≤ 2 ^ 19 → p.window.1 ≤ (t.plugin die tenant).a2.toNat
          ∧ (t.plugin die tenant).a2.toNat + 256 ≤ p.window.1 + p.window.2)
      ∧ SMap.find (t.die die).pmp 0 = some (p.window.1, p.window.2, 3))
    ∧ (¬ may → exec (.pluginPeriodStart die tenant) s = .next s ∧ exec (.pluginOverrun die tenant) s = .next s)
    ∧ ((∀ n ∈ (s.die die).overruns, n.guest ∉ p.guests) → exec (.pluginOverrun die tenant) s = .next s)
    ∧ (∀ n rest, may → (s.die die).overruns = n :: rest → n.guest ∈ p.guests →
      ∃ t, exec (.pluginOverrun die tenant) s = .next t ∧ SameMem s t ∧ (t.die die).overruns = rest
        ∧ (t.plugin die tenant).event = 2 ∧ (t.plugin die tenant).a0 = 2 ∧ (t.plugin die tenant).since = s.clock
        ∧ (t.plugin die tenant).page = [BitVec.ofNat 64 (n.crew % 2 ^ 32 + n.guest % 256 * 2 ^ 32), BitVec.ofNat 64 n.deadline,
            BitVec.ofNat 64 n.clock, 0])
    ∧ (p.event = 0 → ∀ reply g v, exec (.ecallReturn die tenant reply) s = .next s ∧ exec (.ecallGuse die tenant g) s = .next s
        ∧ exec (.ecallLog die tenant v) s = .next s ∧ exec (.pluginTimeout die tenant) s = .next s)
    ∧ (p.event ≠ 0 → ∀ reply, ∃ t, exec (.ecallReturn die tenant reply) s = .next t ∧ SameMem s t
        ∧ t.plugin die tenant = { p with event := 0, failures := 0, reply := reply }
        ∧ (p.event ≠ 1 → (t.die die).gshare = (s.die die).gshare)
        ∧ (p.event = 1 → p.guests.Nodup → (∀ g ∈ p.guests, g < 64) → let sum := ((sharesAsked p reply).map (·.2)).sum
          (sum ≤ 1024 → ∀ q ∈ sharesAsked p reply, (t.die die).share q.1 = q.2)
          ∧ (1024 < sum → ∀ q ∈ sharesAsked p reply, (t.die die).share q.1 * sum < q.2 * 1024 + sum ∧ q.2 * 1024 < (t.die die).share q.1 * sum + sum)
          ∧ ∀ g, g ∉ p.guests → (t.die die).share g = (s.die die).share g))
    ∧ (p.event ≠ 0 → (∀ g ∈ p.guests, exec (.ecallGuse die tenant g) s =
          .next (s.setPlugin die tenant { p with a0 := BitVec.ofNat 64 ((s.die die).use g) }))
        ∧ (∀ g, g ∉ p.guests → ∃ t, exec (.ecallGuse die tenant g) s = .next t ∧ SameMem s t
            ∧ t.plugin die tenant = { p with a0 := (t.plugin die tenant).a0 })
        ∧ (∀ v, exec (.ecallLog die tenant v) s = .next (s.setPlugin die tenant { p with log := p.log ++ [v] }))
        ∧ (p.since + 24000 < s.clock → exec (.pluginTimeout die tenant) s =
            .next (s.setPlugin die tenant { p with event := 0, failures := p.failures + 1 }))
        ∧ (s.clock ≤ p.since + 24000 → exec (.pluginTimeout die tenant) s = .next s))
    ∧ (∀ n, 2 < n → s.other (.pluginEcall die tenant n) =
        if p.event = 0 then s else s.setPlugin die tenant { p with event := 0, failures := p.failures + 1 })
    ∧ (∀ q, (s.die die).plugins.find? (fun r => r.2.event != 0) = some (tenant, q) → q = p → ∀ addr size v,
        ((s.die die).permits addr size 1 = false → size ≤ 8 → s.other (.firmwareAccess die addr size false (some v)) =
          s.setPlugin die tenant { p with event := 0, failures := p.failures + 1 })
        ∧ s.other (.firmwareAccess die addr size true (some v)) =
          s.setPlugin die tenant { p with event := 0, failures := p.failures + 1 })
    ∧ exec (.hypervisorReenable die tenant) s = .next (s.setPlugin die tenant { p with enabled := true, failures := 0 })

/-- The code of a page fault of a hart's access (R442): instruction, load, or store/AMO. -/
def Sys2Proof.Claims.pageCode (op : HartOp) : Nat := if op = .fetch then 12 else if op = .load ∨ op = .lr then 13 else 15

/-- A hart in the privilege that its request names, with its last access ended. -/
def Sys2Proof.Claims.asking (s : State) (n : Nat) (q : HartReq) : State :=
  s.setHart n { s.hart n with supervisor := q.supervisor, sum := q.sum }

/-- A hart's access has raised an exception, which enters S-mode at the base of `stvec` (R441, R442; notes/assumptions/57). -/
def Sys2Proof.Claims.raised (s : State) (n code : Nat) (va : W64) : State :=
  let h := s.hart n
  s.setHart n { h with scause := some code, stval := va, sepc := h.pc, spp := h.supervisor, spie := h.sie, sie := false,
                       supervisor := true, pc := h.stvec &&& ~~~ 3, faulted := true }

/-- R260, R442: `satp` takes mode 14 and `vsatp` does not; under mode 14 a hart's load, fetch, store, AMO, LR and SC act at the
translated address under `satp`.ASID, a store at once or out of the hart's store buffer later; in S-mode every fetch, and data while SUM is 0, fault; a failed translation raises the
page fault of the access with its address; an AMO, LR or SC of a WS or PV page raises an access fault.
Rests in part on the model's choices of notes/assumptions/6, 9, 42, 57. -/
def Obligations.ResidentCores : Prop :=
  (∀ n (v : W64) s, n < 32 → let h := s.hart n
    (v.toNat / 2 ^ 60 = 14 →
      exec (.satpWrite n false v) s = .next ((s.setHart n { h with satp := v }).loadAsid (.hart n) (v.toNat / 2 ^ 44 % 2 ^ 16))
      ∧ exec (.satpWrite n true v) s = .next (s.setHart n h))
    ∧ ((v.toNat / 2 ^ 60 = 0 ∨ v.toNat / 2 ^ 60 = 8) → exec (.satpWrite n false v) s = .next (s.setHart n { h with satp := v })
      ∧ exec (.satpWrite n true v) s = .next (s.setHart n { h with vsatp := v })))
  ∧ (∀ n (q : HartReq) s, n < 32 → hartSize q = false → exec (.residentCoreAccess n q) s = .next s)
  ∧ (∀ n (q : HartReq) s, n < 32 → hartSize q = true → (s.hart n).satp.toNat / 2 ^ 60 = 14 →
    let asid := (s.hart n).satp.toNat / 2 ^ 44 % 2 ^ 16
    let s0 := asking s n q
    (q.supervisor = true → (q.op = .fetch ∨ q.sum = false) →
      exec (.residentCoreAccess n q) s = .next (raised s0 n (pageCode q.op) q.addr))
    ∧ (∀ f va w, (q.supervisor = false ∨ (q.op ≠ .fetch ∧ q.sum = true)) →
      s0.translateSpan (.hart n) asid q.addr q.size (hartKind q.op) 3 = (.error (f, va), w) →
      f ≠ .fault .uncorrectableData → f ≠ .fault .misalignedData →
      exec (.residentCoreAccess n q) s = .next (raised w n (pageCode q.op) va))
    ∧ (∀ p, (q.supervisor = false ∨ (q.op ≠ .fetch ∧ q.sum = true)) → q.op ≠ .fetch → Cached s (.hart n) asid q.addr q.size p → (s.hart n).buffer = [] →
      let old := Memory.readNat s.mem p.pa q.size
      let v := q.value.toNat
      (q.op = .load → ∃ t, exec (.residentCoreAccess n q) s = .next t ∧ KeptMem s t ∧ (t.hart n).result = BitVec.ofNat 64 old
        ∧ (t.hart n).faulted = false)
      ∧ (q.op = .store → q.late = false → (∀ a, p.pa ≤ a → a < p.pa + q.size → NoPvCopy s a) →
        ∃ t, exec (.residentCoreAccess n q) s = .next t ∧ WroteBut s t p.pa q.size v ∧ (t.hart n).faulted = false
          ∧ (t.hart n).buffer = [])
      ∧ (q.op = .store → q.late = true → ∃ t, exec (.residentCoreAccess n q) s = .next t ∧ SameMem s t ∧ (t.hart n).faulted = false
          ∧ (t.hart n).buffer = hartEntries q [(p, q.size)])
      ∧ (q.addr.toNat % q.size = 0 → (q.op = .lr ∨ q.op = .sc ∨ q.op = .amo .add) → (p.kind = .ws ∨ p.kind = .pv) →
        exec (.residentCoreAccess n q) s = .next (raised s0 n (if q.op = .lr then 5 else 7) q.addr))
      ∧ (q.addr.toNat % q.size = 0 → p.kind ≠ .ws → p.kind ≠ .pv →
        (q.op = .amo .add → ∃ t, exec (.residentCoreAccess n q) s = .next t ∧ WroteBut s t p.pa q.size (old + v)
          ∧ (t.hart n).result = BitVec.ofNat 64 old)
        ∧ (q.op = .lr → ∃ t r, exec (.residentCoreAccess n q) s = .next t ∧ KeptMem s t ∧ (t.hart n).result = BitVec.ofNat 64 old
          ∧ (t.hart n).resv = some r ∧ r.addr = p.pa ∧ r.width = q.size)
        ∧ (q.op = .sc → (∀ r, (s.hart n).resv = some r → r.addr = p.pa → r.width = q.size →
            ∃ t, exec (.residentCoreAccess n q) s = .next t ∧ WroteBut s t p.pa q.size v ∧ (t.hart n).result = 0 ∧ (t.hart n).resv = none)
          ∧ ((s.hart n).resv = none → ∃ t, exec (.residentCoreAccess n q) s = .next t ∧ SameMem s t ∧ (t.hart n).result = 1)))))

/-- R187, R286, R302, R424, R441, R442: what has no row of its own (notes/assumptions/64). A core evicts a line, and a changed PV copy
stands at its home slice then; a hart's oldest buffered store is performed; `sfence.vma` drops the hart's own translations and no
other; the external interrupt is taken while it is pending and enabled, and `sret` returns from it; a corrected error is counted.
Rests in part on the model's choices of notes/assumptions/10, 57, 64. -/
def Obligations.OtherEvents : Prop :=
  (∀ core line s, core < 512 → (s.core core).holds line = true → let t := s.other (.evict core line)
    t.pvLine core line = none
    ∧ (∀ l, s.pvLine core line = some l → l.dirty = true → ∀ i, i < 128 →
        Memory.read t.mem (128 * line + i) = SMap.getD l.data i 0)
    ∧ ((∀ l, s.pvLine core line = some l → l.dirty = false) → SameMem s t))
  ∧ (∀ n s e rest k a m v, n < 32 → (s.hart n).buffer = e :: rest → e.op = .write k (byteWrites a m v) → 0 < m → a % 128 + m ≤ 128 →
    let t := s.other (.hartPerform n 0)
    WroteBut s t a m v ∧ (t.hart n).buffer = rest)
  ∧ (∀ n (s : State), n < 32 → let h := s.hart n
    let t := s.other (.sfence n)
    (h.supervisor = true → (∀ e ∈ t.tlb, e.unit ≠ .hart n) ∧ (∀ e ∈ s.tlb, e.unit ≠ .hart n → e ∈ t.tlb) ∧ ∀ e ∈ t.tlb, e ∈ s.tlb)
    ∧ (s.externalInterrupt n = true → h.enables.getLsbD 9 = true → (h.supervisor = false ∨ h.sie = true) → h.stvec.toNat % 4 = 0 →
      let u := s.other (.hartInterrupt n)
      let k := u.hart n
      k.scause = some (2 ^ 63 + 9) ∧ k.sepc = h.pc ∧ k.pc = h.stvec ∧ k.spp = h.supervisor ∧ k.spie = h.sie ∧ k.sie = false
        ∧ k.supervisor = true
        ∧ (let r := (u.other (.hartReturn n)).hart n
           r.pc = h.pc ∧ r.supervisor = h.supervisor ∧ r.sie = h.sie))
    ∧ ((s.externalInterrupt n = false ∨ h.enables.getLsbD 9 = false ∨ (h.supervisor = true ∧ h.sie = false)) →
      s.other (.hartInterrupt n) = s))
  ∧ (∀ dn (s : State), dn < 4 → let n := (s.die dn).serrcnt
    ((s.other (.corrected dn)).die dn).serrcnt = if n = 0xFFFFFFFF then n else n + 1)

/-! ## Ports -/

/-- A request that a port has taken, and the module while it is under way. -/
def Sys2Proof.Claims.taken (s : State) (q : PortReq) (storage : Bool) (asid : Nat) (va : W64) : HeldReq :=
  { q := q, storage := storage, asid := asid, va := va, page := none, since := s.clock }
def Sys2Proof.Claims.taking (s : State) (h : HeldReq) : State := { s with ports := { s.ports with held := [h] } }

/-- What a translated request comes to: data, a write without an answer, or the old value of an atomic; a refusal, with its record;
a page that the request waits for. -/
def Sys2Proof.Claims.Inbound (s : State) (o : Out) (q : PortReq) (h : HeldReq) (u : UnitId) (acc : Access) : Prop :=
  (∀ p, Cached s u h.asid h.va q.size p →
    (q.op = .read → ∃ t, o = .next t ∧ KeptMem s t
      ∧ t.ports = { s.ports with answers := (q.requester, .data (Memory.readBytes s.mem p.pa q.size)) :: s.ports.answers })
    ∧ (q.op = .write → (∀ a, p.pa ≤ a → a < p.pa + q.size → NoPvCopy s a) → ∃ t, o = .next t ∧ WroteBut s t p.pa q.size q.value.toNat ∧ t.ports = s.ports)
    ∧ (q.op = .atomic .add → p.kind ≠ .ws → p.kind ≠ .pv → let old := Memory.readNat s.mem p.pa q.size
      ∃ t, o = .next t ∧ WroteBut s t p.pa q.size (old + q.value.toNat)
        ∧ t.ports = { s.ports with answers := (q.requester, .data (natBytes q.size old)) :: s.ports.answers }))
  ∧ (∀ k va w, (taking s h).translateSpan u h.asid h.va q.size acc 3 = (.error (.fault k, va), w) →
    let rec' : FaultRec := { faultRec (causeCode 5 k) 3 0 h.asid with va := h.va }
    (q.op = .write → o = .next ((w.pushFault 0 rec').setHeld 0 none))
    ∧ (q.op ≠ .write → o = .next (((w.answer q.requester .unsupported).pushFault 0 rec').setHeld 0 none)))
  ∧ (∀ leaf va w, (taking s h).translateSpan u h.asid h.va q.size acc 3 = (.error (.notPresent leaf, va), w) →
    o = .next ((w.unitRequest u h.asid (pageOf va) acc.union leaf (.inbound 0)).setHeld 0
      (some { h with page := some (pageOf va) })))

/-- R450, R452: a request of the host goes through the enabled window that holds it, to VBASE + o − BUS under its ASID, and one of a
drive to its bus address under `STORASID`; a request outside every window, or that the port does not list, completes with
Unsupported Request; a disabled port takes none; a held request whose page does not come in time is refused.
Rests in part on the model's choices of notes/assumptions/43. -/
def Obligations.InboundRequests : Prop :=
  (∀ (q : PortReq) s, SMap.getD s.ports.en 0 false = false → exec (.hostInboundRequest q) s = .next s)
  ∧ (∀ (q : PortReq) s, SMap.getD s.ports.en 1 false = false → exec (.storageInboundRequest q) s = .next s)
  ∧ (∀ (q : PortReq) s, SMap.getD s.ports.en 0 false = true → (∀ w, w < 8 → SMap.getD s.ports.wen w false = false) →
    exec (.hostInboundRequest q) s = .next (s.answer q.requester .unsupported))
  ∧ (∀ (q : PortReq) s w, SMap.getD s.ports.en 0 false = true → portListed q false = true → q.addr + q.size ≤ 2 ^ 36 →
    s.ports.held = [] → w < 8 → SMap.getD s.ports.wen w false = true → (∀ k, k < w → SMap.getD s.ports.wen k false = false) →
    let bus := SMap.getD s.ports.bus w 0
    (bus.toNat ≤ q.addr → q.addr + q.size ≤ bus.toNat + (SMap.getD s.ports.size w 0).toNat →
      Inbound s (exec (.hostInboundRequest q) s) q
        (taken s q false (SMap.getD s.ports.wasid w 0) (SMap.getD s.ports.vbase w 0 + BitVec.ofNat 64 q.addr - bus)) .hostPort (portAccess q.op)))
  ∧ (∀ (q : PortReq) s, SMap.getD s.ports.en 1 false = true → s.ports.held = [] →
    ((q.op = .read ∨ q.op = .write) → q.size ≤ 512 →
      Inbound s (exec (.storageInboundRequest q) s) q (taken s q true s.ports.storasid (BitVec.ofNat 64 q.addr)) .storagePort (portAccess q.op))
    ∧ ((512 < q.size ∨ ∃ op, q.op = .atomic op) → exec (.storageInboundRequest q) s = .next (s.answer q.requester .unsupported)))
  ∧ (∀ n s, s.ports.held[n]? = none → exec (.inboundTimeout n) s = .next s)
  ∧ (∀ (h : HeldReq) s, s.ports.held = [h] →
    let due := h.since + SMap.getD s.ports.tout (if h.storage then 1 else 0) 10 * 1200000
    let rec' : FaultRec := { faultRec (causeCode 5 .unmappedAddress) 3 0 h.asid with va := h.va }
    let t : State := { s with ports := { s.ports with held := [] } }
    ((h.page = none ∨ s.clock < due) → exec (.inboundTimeout 0) s = .next s)
    ∧ (h.page ≠ none → due ≤ s.clock → (h.q.op = .write → exec (.inboundTimeout 0) s = .next (t.pushFault 0 rec'))
      ∧ (h.q.op ≠ .write → exec (.inboundTimeout 0) s = .next ((t.answer h.q.requester .unsupported).pushFault 0 rec'))))

/-- R453 to R456: a peer's read, write or atomic is performed by the home slice of this module's memory; a write in PCI Express mode
has no answer; without a valid route, from a lost module, or beyond the memory, it completes with Unsupported Request. A link
that goes down writes a record; a port is enabled; an enabled link comes up; a module is lost.
Rests in part on the model's choices of notes/assumptions/43. -/
def Obligations.PeersAndLinks : Prop :=
  (∀ m (q : PortReq) s, ((SMap.getD s.ports.route m 0).getLsbD 7 = false ∨ m ∈ s.ports.lost ∨ 2 ^ 39 < q.addr + q.size) →
    exec (.peerInboundRequest m q) s = .next (s.answer q.requester .unsupported))
  ∧ (∀ m (q : PortReq) s, let r := SMap.getD s.ports.route m 0
    r.getLsbD 7 = true → SMap.getD s.ports.up (2 + r.toNat % 8) false = true → m ∉ s.ports.lost → s.poisoned = [] →
    q.addr + q.size ≤ 2 ^ 39 → 0 < q.size → q.addr % 128 + q.size ≤ 128 → s.inAttrTable 0 q.addr = false →
    let k := kindOf (s.attrOf 0 q.addr).toNat
    let ualink := s.portMode (2 + r.toNat % 8) = 2
    let old := Memory.readNat s.mem q.addr q.size
    let replied := fun (a : Answer) => { s.ports with answers := (q.requester, a) :: s.ports.answers }
    (q.op = .read → ∃ t, exec (.peerInboundRequest m q) s = .next t ∧ KeptMem s t
      ∧ t.ports = replied (.data (Memory.readBytes s.mem q.addr q.size)))
    ∧ (q.op = .write → ∃ t, exec (.peerInboundRequest m q) s = .next t ∧ WroteBut s t q.addr q.size q.value.toNat
      ∧ (ualink → t.ports = replied .done) ∧ (¬ ualink → t.ports = s.ports))
    ∧ (q.op = .atomic .add → (q.size = 4 ∨ q.size = 8) → q.addr % q.size = 0 → k ≠ .ws → k ≠ .pv →
      ∃ t, exec (.peerInboundRequest m q) s = .next t ∧ WroteBut s t q.addr q.size (old + q.value.toNat)
        ∧ t.ports = replied (.data (natBytes q.size old)))
    ∧ (q.op = .atomic .add → (k = .ws ∨ k = .pv) →
      exec (.peerInboundRequest m q) s = .next (s.answer q.requester .unsupported)))
  ∧ (∀ n s, n < 10 → (SMap.getD s.ports.up n false = false → exec (.linkDown n) s = .next s)
    ∧ (SMap.getD s.ports.up n false = true → ∃ u : State, exec (.linkDown n) s = .next (u.pushFault 0 (faultRec (causeCode 5 .linkDown) 3 0 0))
        ∧ u.toDevice = s.toDevice ∧ SMap.getD u.ports.up n false = false
        ∧ ∀ k, k ≠ n → SMap.getD u.ports.up k false = SMap.getD s.ports.up k false)
    ∧ (∃ t, exec (.portEnable n) s = .next t ∧ t.toDevice = s.toDevice ∧ SMap.getD t.ports.en n false = true
        ∧ ∀ k, k ≠ n → SMap.getD t.ports.en k false = SMap.getD s.ports.en k false)
    ∧ ((SMap.getD s.ports.en n false = false ∨ s.portMode n = 0) → exec (.linkUp n) s = .next s)
    ∧ (SMap.getD s.ports.en n false = true → s.portMode n ≠ 0 → ∃ t, exec (.linkUp n) s = .next t ∧ t.toDevice = s.toDevice
        ∧ SMap.getD t.ports.up n false = true ∧ ∀ k, k ≠ n → SMap.getD t.ports.up k false = SMap.getD s.ports.up k false))
  ∧ (∀ m s, ((1024 ≤ m ∨ m = s.ports.devid) → exec (.moduleLost m) s = .next s)
    ∧ (m < 1024 → m ≠ s.ports.devid → ∃ t, exec (.moduleLost m) s = .next t ∧ t.toDevice = s.toDevice
        ∧ ∀ k, k ∈ t.ports.lost ↔ k = m ∨ k ∈ s.ports.lost))

/-! ## Checkpoints, the start, security, power -/

/-- R457 to R459: the coordinator calls a cut every PER milliseconds; CUT freezes the module, READY stands when no access is
outstanding, GO writes the image and lengthens pending deadlines, COMMIT takes the cut, and ROLLBACK returns to it.
Rests in part on the model's choices of notes/assumptions/45. -/
def Obligations.Checkpoints : Prop :=
  ∀ s : State,
    (let due := s.ports.ckper ≠ 0 ∧ s.phase = .idle ∧ s.called = none ∧ s.calledAt + s.ports.ckper.toNat * 1200000 ≤ s.clock
     (due → exec .checkpointTimer s = .next { s with called := some s.cut, calledAt := s.clock })
     ∧ (¬ due → exec .checkpointTimer s = .next s))
    ∧ (∀ n, (s.phase = .idle → (s.called = none ∨ s.called = some n) →
        exec (.cut n) s = .next { s with phase := .frozen, cut := n, called := none, frozenAt := s.clock })
      ∧ (s.phase ≠ .idle → exec (.cut n) s = .next s))
    ∧ (s.phase ≠ .frozen → exec .ready s = .next s)
    ∧ (s.phase = .frozen → ∃ t, exec .ready s = .next t ∧ (t.phase = .frozen ∨ t.phase = .ready)
        ∧ (t.phase = .ready → t.fills = [] ∧ ∀ c ∈ t.crews, ∀ g ∈ c.2.gangs, g.2.buffer = []))
    ∧ (s.phase ≠ .ready → exec .go s = .next s)
    ∧ (s.phase = .ready → ∃ t, exec .go s = .next t ∧ t.phase = .copying ∧ t.copied = [] ∧ SameMem s t
        ∧ SMap.find t.images s.cut = some t.toDevice
        ∧ ∀ k, t.crew? k = (s.crew? k).map (fun c => { c with deadline := c.deadline.map (· + (s.clock - s.frozenAt)) }))
    ∧ (∀ m, (s.phase ≠ .copying → exec (.checkpointCopyComplete m) s = .next s)
      ∧ (s.phase = .copying → ∃ t, exec (.checkpointCopyComplete m) s = .next t ∧ t.toDevice = s.toDevice
        ∧ ∀ k, k ∈ t.copied ↔ k = m ∨ k ∈ s.copied))
    ∧ (∀ n, ((s.phase ≠ .copying ∨ s.cut ≠ n) → exec (.commit n) s = .next s)
      ∧ (s.phase = .copying → s.cut = n → s.ports.devid ∈ s.copied → ∃ t, exec (.commit n) s = .next t ∧ t.toDevice = s.toDevice
        ∧ t.phase = .idle ∧ t.cut = n + 1 ∧ t.ports = { s.ports with ckcut := n }
        ∧ SMap.find t.images n = SMap.find s.images n ∧ ∀ k, k ≠ n → SMap.find t.images k = none))
    ∧ (∀ d rest, s.images = (s.ports.ckcut, d) :: rest → (s.ports.lost = [] → exec .rollback s = .next s)
      ∧ (s.ports.lost ≠ [] → ∃ u : State,
          exec .rollback s = .next (u.pushFault 0 { faultRec (causeCode 5 .peerLost) 3 0 0 with detail := s.ports.ckcut })
          ∧ u.toDevice = d ∧ u.phase = .idle ∧ u.cut = s.ports.ckcut + 1 ∧ u.ports = { s.ports with lost := [] }
          ∧ SMap.find u.images s.ports.ckcut = some d))

/-- R460: a cold start leaves the module as reset does, or in recovery when a check fails; a warm start keeps the memory that `WSMAP`
does not mark free, clears the rest, builds the attribute table at its reset place with the entries of what stays, and drops every crew and translation; a third failed warm start is followed by a cold one. In
recovery the host may write an image.
Rests in part on the model's choices of notes/assumptions/17, 44. -/
def Obligations.Starts : Prop :=
  ∀ s : State, let pass := fun k => Config.startPasses (s.free + k)
    (∃ t, exec .powerOn s = .next t ∧ exec .hostColdStart s = .next t ∧ t.toDevice = State.reset.toDevice
      ∧ t.ports = { State.reset.ports with devid := s.ports.devid } ∧ t.power.shutdown = false
      ∧ (pass 0 = false → t.start = { step := 2, failures := s.start.failures, recovery := true })
      ∧ (pass 0 = true → pass 1 = false → t.start = { step := 3, failures := s.start.failures, recovery := true })
      ∧ (pass 0 = true → pass 1 = true → t.start = { step := 6, failures := 0, recovery := false }))
    ∧ (s.power.shutdown = true → exec .hostWarmStart s = .next s)
    ∧ (s.power.shutdown = false → ∃ t, exec .hostWarmStart s = .next t ∧ t.crews = [] ∧ t.tlb = [] ∧ t.clusters = [] ∧ t.dies = []
      ∧ (pass 0 = true → pass 1 = true → t.start = { step := 6, failures := 0, recovery := false } ∧ t.clock = s.clock
          ∧ t.ports.wsmap = s.ports.wsmap
          ∧ let free := fun pa => s.ports.wsmap = 0 ∨ (Memory.read s.mem (s.ports.wsmap.toNat + pa / 4096 / 8)).getLsbD (pa / 4096 % 8) = true
            (∀ a, 2 ^ 28 ≤ a → s.inAttrTable 0 a = false → Memory.read t.mem a = if free a then 0 else Memory.read s.mem a)
            ∧ ∀ pa, pa < 2 ^ 39 → t.attrOf 0 pa = if free pa then 1 else s.attrOf 0 pa)
      ∧ (pass 0 = false → s.start.failures < 2 → SameMem s t ∧ t.start = { step := 2, failures := s.start.failures + 1, recovery := false })
      ∧ ((pass 0 = false ∨ pass 1 = false) → 2 ≤ s.start.failures → t.toDevice = State.reset.toDevice))
    ∧ ((s.power.shutdown = true ∨ s.start.recovery = true ∨ s.start.step ≠ 6) → exec .monitorWarmStart s = .next s)
    ∧ (s.start.recovery = false → s.start.step = 6 → exec .monitorWarmStart s = exec .hostWarmStart s)
    ∧ (∀ v, (s.start.recovery = false → exec (.firmwareImageWrite v) s = .next s)
      ∧ (s.start.recovery = true → exec (.firmwareImageWrite v) s = .next { s with start := { s.start with image := s.start.image ++ [v] } }))

/-- R461, R462: the SPDM responder answers each request once what it needs has been negotiated, and an error before; it offers
ECDSA P-256 and SHA-256 only, slot 0 and four measurements. Heat and power throttle or stop the module and change no result.
Rests in part on the model's choices of notes/assumptions/16, 46, 58. -/
def Obligations.SecurityAndPower : Prop :=
  ∀ s : State, let r := fun (t : State) => t.spdm.response
    let kept := fun (t : State) => t.toDevice = s.toDevice ∧ t.ports = s.ports
    let refused := fun i => exec i s = .next { s with spdm := { s.spdm with response := some .error } }
    (∃ t, exec .getVersion s = .next t ∧ kept t ∧ t.spdm = { version := true, caps := false, algs := none, response := some (.version 1 3) })
    ∧ (s.spdm.version = true → ∃ t f, exec .getCapabilities s = .next t ∧ kept t ∧ t.spdm.caps = true ∧ r t = some (.capabilities f))
    ∧ (s.spdm.version = false → refused .getCapabilities)
    ∧ (∀ a h, (s.spdm.caps = true → a.testBit 4 = true → h.testBit 0 = true → ∃ t, exec (.negotiateAlgorithms a h) s = .next t ∧ kept t
          ∧ t.spdm.algs = some (16, 1) ∧ r t = some (.algorithms 16 1))
        ∧ ((s.spdm.caps = false ∨ a.testBit 4 = false ∨ h.testBit 0 = false) → refused (.negotiateAlgorithms a h)))
    ∧ (s.spdm.algs ≠ none → (∃ t w, exec .getDigests s = .next t ∧ kept t ∧ r t = some (.digests 1 w) ∧ w.length = 4)
        ∧ (∃ t w, exec (.getCertificate 0) s = .next t ∧ kept t ∧ r t = some (.certificate 0 w))
        ∧ (∀ n, ∃ t w, exec (.challenge n) s = .next t ∧ kept t ∧ r t = some (.challengeAuth n w) ∧ w.length = 8)
        ∧ (∃ t, exec (.getMeasurements 0) s = .next t ∧ kept t ∧ r t = some (.measurements 4 []))
        ∧ ∀ k, 1 ≤ k → k ≤ 4 → ∃ t w, exec (.getMeasurements k) s = .next t ∧ kept t ∧ r t = some (.measurements 1 [(k, w)]) ∧ w.length = 4)
    ∧ (s.spdm.algs = none → refused .getDigests ∧ (∀ k, refused (.getCertificate k)) ∧ (∀ n, refused (.challenge n))
        ∧ ∀ k, refused (.getMeasurements k))
    ∧ (∀ k, k ≠ 0 → refused (.getCertificate k)) ∧ (∀ k, 4 < k → k ≠ 255 → refused (.getMeasurements k))
    ∧ (∀ d, d < 4 → ∃ t, exec (.thermalThrottle d) s = .next t ∧ kept t ∧ d ∈ t.power.hot ∧ t.power.limit = s.power.limit
        ∧ ∀ k, k ≠ d → (k ∈ t.power.hot ↔ k ∈ s.power.hot))
    ∧ (∀ d, exec (.thermalShutdown d) s = .next { s with power := { s.power with shutdown := true } })
    ∧ exec .powerLimitThrottle s = .next { s with power := { s.power with limit := true } }
    ∧ exec .powerLimitRelease s = .next { s with power := { s.power with limit := false } }

/-! ## The whole machine -/

/-- R48 to R71: the word of every well-formed instruction decodes to that instruction, with every operand at every value; and every
word that decodes is the word of a well-formed instruction. -/
def Obligations.EncodingRoundTrip : Prop :=
  (∀ i w, i.wellFormed = true → encode i = some w → decode w = .ok i)
  ∧ (∀ i w, decode w = .ok i → i.wellFormed = true ∧ encode i = some w)

/-- Words that the spec writes out, with the instruction that each stands for. -/
noncomputable def Sys2Proof.Claims.wordsOfSpec : List (BitVec 32 × Instr) :=
  [(0x07800003, .br 7 0 3), (0x04C00003, .br 1 1 3), (0x0500000F, .br 2 0 15), (0x0B800040, .call 7 0 64),
   (0x0F800080, .jmpi 7 2), (0x0F840080, .calli 7 2), (0x0F84A081, .calliSave ⟨7, 10, 2⟩), (0x0F880000, .ret_ 7),
   (0x13800000, .regang), (0x13841081, .pfoldSome ⟨7, 1, 2⟩), (0x13841083, .pfoldAgree ⟨7, 1, 2⟩), (0x13883041, .pmaskBelow ⟨7, 3, 1⟩),
   (0x138C5040, .prank ⟨7, 5, 1⟩), (0x17C840C9, .lfetchFlip ⟨7, 1, 4, 3, 9⟩), (0x178440C2, .lfetchOff ⟨7, 0, 4, 3, 2⟩),
   (0x1B803080, .gredAddS32 ⟨7, 3, 2⟩), (0x1BA03080, .gredAddF32 ⟨7, 3, 2⟩), (0x1FB44080, .gscanMaxF64 ⟨7, 4, 2⟩),
   (0x23803042, .add ⟨7, 0, 3, 1, 2⟩), (0x23D85109, .divS32 ⟨7, 1, 5, 4, 9⟩), (0x27B46084, .lea ⟨7, 0, 6, 2, 4⟩),
   (0x2F901001, .ltN32 ⟨7, 0, 1, 0, 1⟩), (0x338C21C1, .pandn ⟨7, 0, 2, 7, 1⟩), (0x378827FA, .addi 7 4 4 0x7FA),
   (0x3B910007, .movi 7 8 1 7), (0x3F821234, .movhi 7 1 0 0x1234), (0x438C4042, .fmaF32 ⟨7, 0, 4, 1, 2⟩), (0x43A42001, .rcpF32 ⟨7, 0, 2, 1⟩),
   (0x47C04008, .addF64 ⟨7, 1, 4, 0, 8⟩), (0x4FA06105, .addBf16x2 ⟨7, 0, 6, 4, 5⟩), (0x53841001, .fltF32 ⟨7, 0, 1, 0, 1⟩),
   (0x5784204B, .cvt 7 1 2 1 11), (0x57903081, .cvt 7 4 3 2 1), (0x58000000, .tfence), (0x63844002, .mmul 7 0 1 4 0 2),
   (0x63F06008, .mmac 7 1 0 6 0 8), (0x67904200, .mred128 7 0 4 8), (0x6B900084, .ibfly 7 0 0 2 4), (0x6FC05109, .perm 7 5 4 9),
   (0x6F8C1180, .getm 7 1 6), (0x710A208A, .ld ⟨2, 5, 2, 2, 1, 2⟩), (0x778A2082, .st ⟨7, 5, 2, 2, 0, 2⟩), (0x7B8A2088, .lde ⟨7, 5, 2, 2, 1, 0⟩),
   (0x80008405, .preq 2 4 1 0 1), (0x80100407, .lclean 4 7), (0x80208400, .pf 2 4 0), (0x8051840F, .lds 6 4 3 3), (0x8060C406, .cst 3 4 1 2),
   (0x8070C446, .exld 3 4 2 1 2), (0x87C08109, .talloc 8 4 9), (0x87C8610A, .tfill 6 4 10), (0x8F805202, .tldg ⟨7, 0, 5, 8, 2⟩), (0x8F880200, .macq 8),
   (0x93803102, .atomAdd ⟨7, 0, 3, 4, 2⟩), (0x97800102, .redAdd ⟨7, 0, 4, 2⟩), (0x9B806108, .atomAddN64 ⟨7, 0, 6, 4, 8⟩),
   (0xA3C03109, .atomAddF32 ⟨7, 1, 3, 4, 9⟩), (0xA7A00102, .redMaxBf16x2 ⟨7, 0, 4, 2⟩), (0xAB80810C, .cas128 7 8 4 12), (0xAB846100, .lres32 ⟨7, 6, 4⟩),
   (0xAB8C7108, .scond32 ⟨7, 0, 7, 4, 8⟩), (0xAB940100, .mon 7 4), (0xAC000005, .fence 5), (0xAC00000B, .fenceAcq 3), (0xAC100003, .bar 3),
   (0xAC200900, .gbar 9), (0xAC300000, .mwait), (0xB0000400, .launch 4), (0xB0100400, .spawn ⟨0, 4⟩), (0xB0220601, .jcnt 8 6 1),
   (0xB0300000, .exit_), (0xB0400000, .yield), (0xB4020400, .qpush ⟨8, 4⟩), (0xB4220400, .seqwait ⟨8, 4⟩), (0xB8120400, .vsub ⟨8, 4⟩),
   (0xBC020401, .qheadWait ⟨8, 4⟩), (0xC0020201, .mload 8 2 1), (0xC0204012, .mstep 1 0 1 0 2), (0xC0410208, .mdrain 4 2 1 0 0),
   (0xC4000600, .vdsub 6), (0xC4120600, .vsig ⟨8, 6⟩), (0xC4200001, .vyieldDone), (0xD3810001, .rast 7 8 0), (0xD3890021, .rastbin 7 8 16),
   (0xD7804011, .ctok ⟨7, 2, 0, 8⟩), (0xD7898211, .zs ⟨7, 12, 4, 8⟩), (0xD7900210, .blndP 7 4 8), (0xDB820219, .tex ⟨7, 16, 4, 12⟩),
   (0xDF820019, .trav ⟨7, 16, 0, 12⟩), (0xDF8A0019, .travc ⟨7, 16, 0, 12⟩), (0xE0000000, .rdsV 0 0), (0xE011000A, .rdsS 4 10),
   (0xE0200813, .wrs 8 0x13), (0xE0321005, .upcall 8 16 5), (0xE0400007, .brk 7), (0xE0500000, .nop), (0xE4020400, .tlbiPage ⟨8, 4⟩),
   (0xE41204FF, .pkset 8 4 255), (0xF8000002, .hintImmediate 2), (0xF840001F, .hintJoin 31), (0xF8800004, .hintRounding 4),
   (0xF8C0000A, .hintScalePolicy 10)]

/-- R48 to R71 and the examples of each class: the words that the spec writes out decode to the instructions it gives for them, and the
all-zero and the all-one word to none. -/
def Obligations.WordsOfTheSpec : Prop :=
  (∀ e ∈ wordsOfSpec, decode e.1 = .ok e.2)
  ∧ (∀ i, decode 0 ≠ .ok i ∧ decode 0xFFFFFFFF ≠ .ok i)

/-- R2, R451: memory keeps its canonical form, in the module and in every freeze image, whatever a step does.
Rests in part on the model's choices of notes/assumptions/7. -/
def Obligations.MemoryStaysCanonical : Prop :=
  ∀ s t, MemoryInv s → step s = .next t → MemoryInv t

/-- R197, R225, R360, R364, R431 to R433, R456, R460: after a cold start memory is clear but for the attribute table and in canonical form, no crew stands, no slice holds a line and
nothing is translated, every attribute entry is RC, bytes and linear, and the control registers have their reset values.
Rests in part on the model's choices of notes/assumptions/5, 7. (The zeros of the queues' bases, heads and tails are such choices.) -/
def Obligations.ResetState : Prop :=
  let s := State.reset
  MemoryInv s ∧ (∀ a, Memory.read s.mem a = unlisted a) ∧ (∀ a, 2 ^ 28 ≤ a → unlisted a = 0) ∧ s.crews = [] ∧ s.tlb = [] ∧ s.agenda = [] ∧ s.start.step = 6 ∧ s.start.recovery = false
    ∧ (∀ d pa, pa < 2 ^ 39 → s.attrOf d pa = 1)
    ∧ (∀ d, d < 4 → (s.regRead d 0x308 4) = 0x0A0C0C0C ∧ (s.regRead d 8 4) = 0 ∧ (s.regRead d 0x40000 4) = 20
        ∧ (s.regRead d 0x40100 4) = 1024 ∧ (s.regRead d 0x40104 4) = 0 ∧ (s.regRead d 0x10040 4) = 0x00400400
        ∧ (s.regRead d 0x100 8) = 0 ∧ (s.regRead d 0x108 8) = 0 ∧ (s.regRead d 0x208 8) = 0
        ∧ ∀ h, h < 256 → (s.regRead d (0x100100 + 0x1000 * h) 4) = 0xFFFF ∧ (s.regRead d (0x100000 + 0x1000 * h) 4) = 0
            ∧ (s.regRead d (0x100800 + 0x1000 * h) 8) = 0 ∧ ∀ g, g < 64 → (s.regRead d (0x100200 + 0x1000 * h + 4 * g) 4) = 0)
    ∧ (s.regRead 0 0x80000 4) = 0xA05 ∧ (∀ n, 1 ≤ n → n < 10 → (s.regRead 0 (0x80000 + 16 * n) 4) = 0xA01)
    ∧ ∀ c, (s.core c).parkthr = 4096

/-- R6, R64, R424: whatever the operands and the state, an instruction that a part or a Vintner's context issues comes to a next state
(its effect, a wait, or a trap), and so does every event; the machine never refuses one.
Rests in part on the model's choices of notes/assumptions/1. -/
def Obligations.EveryInstructionGoesOn : Prop :=
  (∀ i s, ((∃ x, Issuing s x) ∨ ∃ x, VIssuing s x) → ∃ t, exec i s = .next t)
  ∧ (∀ i s, encode i = none → (∀ w, i ≠ .reservedWord w) → (∀ n, i ≠ .debugBreakpoint n) → ∃ t, exec i s = .next t)
  ∧ (∀ i s r, exec i s ≠ .refused r)
  ∧ (∀ i s e, exec i s = .fault e → (∀ x, ¬ Issuing s x) ∧ ∀ x, ¬ VIssuing s x)

/-- The state in which the next turn acts, when it is that of a part or of a Vintner: a clock's turn has passed, the turn has left the
agenda, and `late` tells whether the data of a load that it issues come later. -/
def Sys2Proof.Claims.Turns (s u : State) (w : Issuer) : Prop :=
  u.issues = true ∧
  ((∃ t rest, s.agenda = t :: rest ∧ u = { s.tick with agenda := rest, cur := w, late := none }
      ∧ (t = match w with | .gang c g k => .issue c g k | .vintner cl => .vissue cl | .none => t) ∧ w ≠ .none)
    ∨ (∃ c g k n rest, w = .gang c g k ∧ s.agenda = .issueLate c g k n :: rest
      ∧ u = { s.tick with agenda := rest, cur := w, late := some n })
    ∨ (s.agenda = [] ∧ s.cur = w ∧ u = { s.tick with late := none }))

/-- The word at a page's address decodes to i, whose hints the word accepts. -/
def Sys2Proof.Claims.Fetches (u : State) (p : Page) (hs : List W32) (i : Instr) : Prop :=
  let w : W32 := BitVec.ofNat 32 (Memory.readNat u.mem p.pa 4)
  p.local = true ∧ p.pa + 4 ≤ 2 ^ 39 ∧ u.poisoned = [] ∧ decode w = .ok i ∧ hintsAccepted w hs = true

/-- R9, R69, R142, R214, R219, R328, R440: when the word at a part's or a context's program counter decodes to an instruction, a step
executes that instruction, in the state as it stands after a clock's turn and the fetch's line request; a word that decodes to none, or whose hints do not
fit, is executed as one that raises illegal-encoding; an event of the agenda, and one of no row, happens when the module admits it.
Rests in part on the model's choices of notes/assumptions/1, 3. -/
def Obligations.StepRunsTheInstruction : Prop :=
  (∀ s u c g k x p, Turns s u (.gang c g k) → u.ctxOf c g k = some x → x.ready = true →
    (x.hints ≠ [] ∨ ∀ j ∈ x.part, (x.g.slice j).mask &&& (x.g.slice j).live ≠ 0
      ∧ ((x.g.slice j).rpc ≠ some (x.g.slice j).pc ∨ ((x.g.slice j).stack = [] ∧ (x.g.slice j).spilled = 0))) →
    (∀ n, n < 4 → (SMap.getD (u.die x.die).dbgbp n 0).getLsbD 0 = false) →
    (∀ f ∈ x.g.loads, f.slices &&& x.mask = 0 ∨ (f.holds = false ∧ f.failed = none)) →
    u.translate x.unit x.c.asid x.pc .execute = (.ok p, u) →
    let u1 := u.requestRead [(p, 4)] (.gang c g x.mask)
    (∀ i, Fetches u p x.hints i → step s = exec i u1)
    ∧ (let w : W32 := BitVec.ofNat 32 (Memory.readNat u.mem p.pa 4)
       p.local = true → p.pa + 4 ≤ 2 ^ 39 → u.poisoned = [] → ((∀ i, decode w ≠ .ok i) ∨ hintsAccepted w x.hints = false) →
       step s = exec (.reservedWord w) u1))
  ∧ (∀ s u cl x p, Turns s u (.vintner cl) → u.vRun? cl = some x → x.k.card.block.extractLsb' 192 64 ≠ 0 → x.k.prod ≠ 0 →
    x.pc.toNat % 4 = 0 → u.translate x.unit x.k.card.asid x.pc .execute = (.ok p, u) →
    ∀ i, Fetches u p x.k.hints i → step s = exec i (u.requestRead [(p, 4)] (.unit x.unit)))
  ∧ (∀ (s : State) i rest, s.agenda = .event i :: rest → let u : State := { s.tick with agenda := rest, late := none }
    (encode i = none → s.tick.admits i = true → step s = exec i u)
    ∧ ((encode i ≠ none ∨ s.tick.admits i = false) → step s = .next u))
  ∧ (∀ (s : State) m rest, s.agenda = .more m :: rest → let u : State := { s.tick with agenda := rest, late := none }
    (s.tick.admitsMore m = true → step s = .next (u.other m)) ∧ (s.tick.admitsMore m = false → step s = .next u))
  ∧ (∀ s : State, s.tick.mem = s.mem ∧ s.tick.crews = s.crews ∧ s.tick.clusters = s.clusters ∧ s.tick.cur = s.cur
    ∧ s.tick.clock = s.clock + Config.elapsed s.free)

/-! ## Statements over several shapes of instruction -/

/-- R156, R160 to R167, R169: the integer and address instructions, on 32 bits, on pairs and with immediates, and `adds.s32`. -/
def Obligations.IntegerOperations : Prop :=
  Claims.IntBinary ∧ Claims.IntUnary ∧ Claims.IntPairs ∧ Claims.Immediates ∧ Claims.AddsS32

/-- R4, R166, R167, R170: the integer compares and the predicate instructions. -/
def Obligations.IntegerComparesAndPredicates : Prop :=
  Claims.IntCompares ∧ Claims.PredicateLogic

/-- R59, R64, R148, R155: what a Vintner's context does with the integer class and with a branch. -/
def Obligations.VintnerForms : Prop :=
  Claims.VintnerInteger ∧ Claims.VintnerBranch

/-- R77, R83, R84, R184: the floating-point compares, NaN operands, and that addition and multiplication commute. -/
def Obligations.FpComparesAndNaN : Prop :=
  Claims.FpCompares ∧ Claims.FpCompareNaN ∧ Claims.FpNaN ∧ Claims.FpCommutes

/-- R65, R185, R186: `cvt` and `tfence`. -/
def Obligations.ConversionAndTrapFence : Prop :=
  Claims.Conversion ∧ Claims.TrapFence

/-- R305, R307, R309, R310, R315: modular arithmetic and `setm`. -/
def Obligations.ModularOperations : Prop :=
  Claims.ModularArithmetic ∧ Claims.Moduli

/-- R154, R311, R313, R314: the instructions that move data between lanes. -/
def Obligations.LaneExchange : Prop :=
  Claims.Butterflies ∧ Claims.LaneMoves ∧ Claims.LaneFetch

/-- R94 to R96, R153, R249: folds, masks, ranks, reductions and scans. -/
def Obligations.GangReductions : Prop :=
  Claims.PredicateCollectives ∧ Claims.IntegerReductions ∧ Claims.FloatReductions

/-- R140, R148 to R150: branches, calls, jumps and returns whose lanes of one slice agree. -/
def Obligations.Branches : Prop :=
  Claims.UniformBranches ∧ Claims.IndirectTransfers

/-- R140, R141, R143, R148: a branch on which the lanes of a slice differ. -/
def Obligations.Divergence : Prop :=
  Claims.DivergentBranch ∧ Claims.DivergenceOverflow

/-- R190, R193, R200, R202, R203: `ld` and `lde`.
Rests in part on the model's choices of notes/assumptions/9, 63. -/
def Obligations.Loads : Prop :=
  Claims.Load ∧ Claims.LoadElement

/-- R14, R187, R207, R208, R250, R292: buffered stores reach memory; cache maintenance and prefetch change none of it.
Rests in part on the model's choices of notes/assumptions/9, 10, 49. -/
def Obligations.HomeSliceAndCaches : Prop :=
  Claims.HomeSliceWrite ∧ Claims.CacheMaintenance

/-- R250, R253, R255 to R259: atomics and no-return reductions. -/
def Obligations.AtomicsAndReductions : Prop :=
  Claims.Atomics ∧ Claims.Reductions

/-- R113, R135, R152, R263, R265, R271, R272: `regang`, and the instructions that wait. -/
def Obligations.JoiningAndWaiting : Prop :=
  Claims.Regang ∧ Claims.WaitingInstructions

/-- R109, R113, R131, R221, R265, R271, R272, R342, R378, R389, R455: what ends a wait.
Rests in part on the model's choices of notes/assumptions/63. -/
def Obligations.ReleasesAndWakes : Prop :=
  Claims.BarrierReleases ∧ Claims.Wakes

/-- R235, R239, R247, R248, R327, R342: tile loads and stores, and accumulator tokens.
Rests in part on the model's choices of notes/assumptions/19. -/
def Obligations.TileAccessAndTokens : Prop :=
  Claims.TileAccess ∧ Claims.Tokens

/-- R133, R134, R136: `jcnt`, `exit` and `gquery`. -/
def Obligations.JoinExitAndQuery : Prop :=
  Claims.JoinCounter ∧ Claims.ExitAndQuery

/-- R356, R376 to R379, R381: the queue instructions. -/
def Obligations.Rings : Prop :=
  Claims.RingWrites ∧ Claims.RingReads

/-- R61, R62, R64, R66, R68, R71, R72, R175, R436: state registers, hint words and reserved words. -/
def Obligations.RegistersAndHints : Prop :=
  Claims.StateRegisters ∧ Claims.HintsAndReserved

/-- R426, R427, R437, R438, R440: precise traps, upcalls and their records.
Rests in part on the model's choices of notes/assumptions/56. -/
def Obligations.Traps : Prop :=
  Claims.PreciseTraps ∧ Claims.TrapRecords
end

