-- ==== Sys2Proof/Laws/Exec.lean ====
section
/-!
SUPPORT. The meaning of each instruction, one equation for each arm of `exec`.
-/

namespace Sys2Proof.Machine

@[simp] theorem exec_br (p : BitVec 3) (n : BitVec 1) (o : BitVec 22) (s : State) : exec (.br p n o) s = execBr p n o s := rfl
@[simp] theorem exec_call (p : BitVec 3) (n : BitVec 1) (o : BitVec 22) (s : State) : exec (.call p n o) s = execCall p n o s := rfl
@[simp] theorem exec_jmpi (g : BitVec 3) (a : BitVec 6) (s : State) : exec (.jmpi g a) s = execJmpi g a s := rfl
@[simp] theorem exec_calli (g : BitVec 3) (a : BitVec 6) (s : State) : exec (.calli g a) s = execCalli g a s := rfl
@[simp] theorem exec_calliSave (f : OpN) (s : State) : exec (.calliSave f) s = execCalliSave f s := rfl
@[simp] theorem exec_ret (g : BitVec 3) (s : State) : exec (.ret_ g) s = execRet g s := rfl
@[simp] theorem exec_regang (s : State) : exec .regang s = execRegang s := rfl
@[simp] theorem exec_pfoldEvery (f : OpPp) (s : State) : exec (.pfoldEvery f) s = execPfoldEvery f s := rfl
@[simp] theorem exec_pfoldSome (f : OpPp) (s : State) : exec (.pfoldSome f) s = execPfoldSome f s := rfl
@[simp] theorem exec_pfoldOdd (f : OpPp) (s : State) : exec (.pfoldOdd f) s = execPfoldOdd f s := rfl
@[simp] theorem exec_pfoldAgree (f : OpPp) (s : State) : exec (.pfoldAgree f) s = execPfoldAgree f s := rfl
@[simp] theorem exec_pmask (f : OpPv) (s : State) : exec (.pmask f) s = execPmask f s := rfl
@[simp] theorem exec_pmaskBelow (f : OpPv) (s : State) : exec (.pmaskBelow f) s = execPmaskBelow f s := rfl
@[simp] theorem exec_prank (f : OpPv) (s : State) : exec (.prank f) s = execPrank f s := rfl
@[simp] theorem exec_prankTotal (f : OpPv) (s : State) : exec (.prankTotal f) s = execPrankTotal f s := rfl
@[simp] theorem exec_lfetchAt (f : OpA) (s : State) : exec (.lfetchAt f) s = execLfetchAt f s := rfl
@[simp] theorem exec_lfetchOff (f : OpA) (s : State) : exec (.lfetchOff f) s = execLfetchOff f s := rfl
@[simp] theorem exec_lfetchFlip (f : OpA) (s : State) : exec (.lfetchFlip f) s = execLfetchFlip f s := rfl
@[simp] theorem exec_lfetchHead (f : OpA) (s : State) : exec (.lfetchHead f) s = execLfetchHead f s := rfl
@[simp] theorem exec_gredAddS32 (f : OpN) (s : State) : exec (.gredAddS32 f) s = execGredAddS32 f s := rfl
@[simp] theorem exec_gredMinS32 (f : OpN) (s : State) : exec (.gredMinS32 f) s = execGredMinS32 f s := rfl
@[simp] theorem exec_gredMaxS32 (f : OpN) (s : State) : exec (.gredMaxS32 f) s = execGredMaxS32 f s := rfl
@[simp] theorem exec_gredMinN32 (f : OpN) (s : State) : exec (.gredMinN32 f) s = execGredMinN32 f s := rfl
@[simp] theorem exec_gredMaxN32 (f : OpN) (s : State) : exec (.gredMaxN32 f) s = execGredMaxN32 f s := rfl
@[simp] theorem exec_gredAnd (f : OpN) (s : State) : exec (.gredAnd f) s = execGredAnd f s := rfl
@[simp] theorem exec_gredOr (f : OpN) (s : State) : exec (.gredOr f) s = execGredOr f s := rfl
@[simp] theorem exec_gredXor (f : OpN) (s : State) : exec (.gredXor f) s = execGredXor f s := rfl
@[simp] theorem exec_gredAddF32 (f : OpN) (s : State) : exec (.gredAddF32 f) s = execGredAddF32 f s := rfl
@[simp] theorem exec_gredMinF32 (f : OpN) (s : State) : exec (.gredMinF32 f) s = execGredMinF32 f s := rfl
@[simp] theorem exec_gredMaxF32 (f : OpN) (s : State) : exec (.gredMaxF32 f) s = execGredMaxF32 f s := rfl
@[simp] theorem exec_gredAddF64 (f : OpN) (s : State) : exec (.gredAddF64 f) s = execGredAddF64 f s := rfl
@[simp] theorem exec_gredMinF64 (f : OpN) (s : State) : exec (.gredMinF64 f) s = execGredMinF64 f s := rfl
@[simp] theorem exec_gredMaxF64 (f : OpN) (s : State) : exec (.gredMaxF64 f) s = execGredMaxF64 f s := rfl
@[simp] theorem exec_gscanAddS32 (f : OpN) (s : State) : exec (.gscanAddS32 f) s = execGscanAddS32 f s := rfl
@[simp] theorem exec_gscanMinS32 (f : OpN) (s : State) : exec (.gscanMinS32 f) s = execGscanMinS32 f s := rfl
@[simp] theorem exec_gscanMaxS32 (f : OpN) (s : State) : exec (.gscanMaxS32 f) s = execGscanMaxS32 f s := rfl
@[simp] theorem exec_gscanMinN32 (f : OpN) (s : State) : exec (.gscanMinN32 f) s = execGscanMinN32 f s := rfl
@[simp] theorem exec_gscanMaxN32 (f : OpN) (s : State) : exec (.gscanMaxN32 f) s = execGscanMaxN32 f s := rfl
@[simp] theorem exec_gscanAnd (f : OpN) (s : State) : exec (.gscanAnd f) s = execGscanAnd f s := rfl
@[simp] theorem exec_gscanOr (f : OpN) (s : State) : exec (.gscanOr f) s = execGscanOr f s := rfl
@[simp] theorem exec_gscanXor (f : OpN) (s : State) : exec (.gscanXor f) s = execGscanXor f s := rfl
@[simp] theorem exec_gscanAddF32 (f : OpN) (s : State) : exec (.gscanAddF32 f) s = execGscanAddF32 f s := rfl
@[simp] theorem exec_gscanMinF32 (f : OpN) (s : State) : exec (.gscanMinF32 f) s = execGscanMinF32 f s := rfl
@[simp] theorem exec_gscanMaxF32 (f : OpN) (s : State) : exec (.gscanMaxF32 f) s = execGscanMaxF32 f s := rfl
@[simp] theorem exec_gscanAddF64 (f : OpN) (s : State) : exec (.gscanAddF64 f) s = execGscanAddF64 f s := rfl
@[simp] theorem exec_gscanMinF64 (f : OpN) (s : State) : exec (.gscanMinF64 f) s = execGscanMinF64 f s := rfl
@[simp] theorem exec_gscanMaxF64 (f : OpN) (s : State) : exec (.gscanMaxF64 f) s = execGscanMaxF64 f s := rfl
@[simp] theorem exec_add (f : OpA) (s : State) : exec (.add f) s = execAdd f s := rfl
@[simp] theorem exec_sub (f : OpA) (s : State) : exec (.sub f) s = execSub f s := rfl
@[simp] theorem exec_mul (f : OpA) (s : State) : exec (.mul f) s = execMul f s := rfl
@[simp] theorem exec_mulhiS32 (f : OpA) (s : State) : exec (.mulhiS32 f) s = execMulhiS32 f s := rfl
@[simp] theorem exec_mulhiN32 (f : OpA) (s : State) : exec (.mulhiN32 f) s = execMulhiN32 f s := rfl
@[simp] theorem exec_mad (f : OpA) (s : State) : exec (.mad f) s = execMad f s := rfl
@[simp] theorem exec_divS32 (f : OpA) (s : State) : exec (.divS32 f) s = execDivS32 f s := rfl
@[simp] theorem exec_divN32 (f : OpA) (s : State) : exec (.divN32 f) s = execDivN32 f s := rfl
@[simp] theorem exec_remS32 (f : OpA) (s : State) : exec (.remS32 f) s = execRemS32 f s := rfl
@[simp] theorem exec_remN32 (f : OpA) (s : State) : exec (.remN32 f) s = execRemN32 f s := rfl
@[simp] theorem exec_minS32 (f : OpA) (s : State) : exec (.minS32 f) s = execMinS32 f s := rfl
@[simp] theorem exec_maxS32 (f : OpA) (s : State) : exec (.maxS32 f) s = execMaxS32 f s := rfl
@[simp] theorem exec_minN32 (f : OpA) (s : State) : exec (.minN32 f) s = execMinN32 f s := rfl
@[simp] theorem exec_maxN32 (f : OpA) (s : State) : exec (.maxN32 f) s = execMaxN32 f s := rfl
@[simp] theorem exec_absS32 (f : OpU) (s : State) : exec (.absS32 f) s = execAbsS32 f s := rfl
@[simp] theorem exec_addsS32 (f : OpA) (s : State) : exec (.addsS32 f) s = execAddsS32 f s := rfl
@[simp] theorem exec_addS64 (f : OpA) (s : State) : exec (.addS64 f) s = execAddS64 f s := rfl
@[simp] theorem exec_subS64 (f : OpA) (s : State) : exec (.subS64 f) s = execSubS64 f s := rfl
@[simp] theorem exec_mulS64 (f : OpA) (s : State) : exec (.mulS64 f) s = execMulS64 f s := rfl
@[simp] theorem exec_mulhiS64 (f : OpA) (s : State) : exec (.mulhiS64 f) s = execMulhiS64 f s := rfl
@[simp] theorem exec_mulhiN64 (f : OpA) (s : State) : exec (.mulhiN64 f) s = execMulhiN64 f s := rfl
@[simp] theorem exec_madS64 (f : OpA) (s : State) : exec (.madS64 f) s = execMadS64 f s := rfl
@[simp] theorem exec_minS64 (f : OpA) (s : State) : exec (.minS64 f) s = execMinS64 f s := rfl
@[simp] theorem exec_maxS64 (f : OpA) (s : State) : exec (.maxS64 f) s = execMaxS64 f s := rfl
@[simp] theorem exec_minN64 (f : OpA) (s : State) : exec (.minN64 f) s = execMinN64 f s := rfl
@[simp] theorem exec_maxN64 (f : OpA) (s : State) : exec (.maxN64 f) s = execMaxN64 f s := rfl
@[simp] theorem exec_shl64 (f : OpA) (s : State) : exec (.shl64 f) s = execShl64 f s := rfl
@[simp] theorem exec_shrN64 (f : OpA) (s : State) : exec (.shrN64 f) s = execShrN64 f s := rfl
@[simp] theorem exec_shrS64 (f : OpA) (s : State) : exec (.shrS64 f) s = execShrS64 f s := rfl
@[simp] theorem exec_lea (f : OpA) (s : State) : exec (.lea f) s = execLea f s := rfl
@[simp] theorem exec_and (f : OpA) (s : State) : exec (.and_ f) s = execAnd f s := rfl
@[simp] theorem exec_or (f : OpA) (s : State) : exec (.or_ f) s = execOr f s := rfl
@[simp] theorem exec_xor (f : OpA) (s : State) : exec (.xor_ f) s = execXor f s := rfl
@[simp] theorem exec_andn (f : OpA) (s : State) : exec (.andn f) s = execAndn f s := rfl
@[simp] theorem exec_shl (f : OpA) (s : State) : exec (.shl f) s = execShl f s := rfl
@[simp] theorem exec_shrN32 (f : OpA) (s : State) : exec (.shrN32 f) s = execShrN32 f s := rfl
@[simp] theorem exec_shrS32 (f : OpA) (s : State) : exec (.shrS32 f) s = execShrS32 f s := rfl
@[simp] theorem exec_rotl (f : OpA) (s : State) : exec (.rotl f) s = execRotl f s := rfl
@[simp] theorem exec_popc (f : OpU) (s : State) : exec (.popc f) s = execPopc f s := rfl
@[simp] theorem exec_clz (f : OpU) (s : State) : exec (.clz f) s = execClz f s := rfl
@[simp] theorem exec_ctz (f : OpU) (s : State) : exec (.ctz f) s = execCtz f s := rfl
@[simp] theorem exec_brev (f : OpU) (s : State) : exec (.brev f) s = execBrev f s := rfl
@[simp] theorem exec_bext (f : OpA) (s : State) : exec (.bext f) s = execBext f s := rfl
@[simp] theorem exec_bins (f : OpA) (s : State) : exec (.bins f) s = execBins f s := rfl
@[simp] theorem exec_mov (f : OpU) (s : State) : exec (.mov f) s = execMov f s := rfl
@[simp] theorem exec_eq (f : OpCmp) (s : State) : exec (.eq f) s = execEq f s := rfl
@[simp] theorem exec_ne (f : OpCmp) (s : State) : exec (.ne f) s = execNe f s := rfl
@[simp] theorem exec_ltS32 (f : OpCmp) (s : State) : exec (.ltS32 f) s = execLtS32 f s := rfl
@[simp] theorem exec_leS32 (f : OpCmp) (s : State) : exec (.leS32 f) s = execLeS32 f s := rfl
@[simp] theorem exec_ltN32 (f : OpCmp) (s : State) : exec (.ltN32 f) s = execLtN32 f s := rfl
@[simp] theorem exec_leN32 (f : OpCmp) (s : State) : exec (.leN32 f) s = execLeN32 f s := rfl
@[simp] theorem exec_gtS32 (f : OpCmp) (s : State) : exec (.gtS32 f) s = execGtS32 f s := rfl
@[simp] theorem exec_geS32 (f : OpCmp) (s : State) : exec (.geS32 f) s = execGeS32 f s := rfl
@[simp] theorem exec_gtN32 (f : OpCmp) (s : State) : exec (.gtN32 f) s = execGtN32 f s := rfl
@[simp] theorem exec_geN32 (f : OpCmp) (s : State) : exec (.geN32 f) s = execGeN32 f s := rfl
@[simp] theorem exec_ltS64 (f : OpCmp) (s : State) : exec (.ltS64 f) s = execLtS64 f s := rfl
@[simp] theorem exec_ltN64 (f : OpCmp) (s : State) : exec (.ltN64 f) s = execLtN64 f s := rfl
@[simp] theorem exec_eq64 (f : OpCmp) (s : State) : exec (.eq64 f) s = execEq64 f s := rfl
@[simp] theorem exec_pand (f : OpPred) (s : State) : exec (.pand f) s = execPand f s := rfl
@[simp] theorem exec_por (f : OpPred) (s : State) : exec (.por f) s = execPor f s := rfl
@[simp] theorem exec_pxor (f : OpPred) (s : State) : exec (.pxor f) s = execPxor f s := rfl
@[simp] theorem exec_pandn (f : OpPred) (s : State) : exec (.pandn f) s = execPandn f s := rfl
@[simp] theorem exec_pmov (g : BitVec 3) (k : BitVec 1) (d : BitVec 3) (b : BitVec 3) (s : State) : exec (.pmov g k d b) s = execPmov g k d b s := rfl
@[simp] theorem exec_pread (g : BitVec 3) (k : BitVec 1) (d : BitVec 6) (b : BitVec 3) (s : State) : exec (.pread g k d b) s = execPread g k d b s := rfl
@[simp] theorem exec_addi (g : BitVec 3) (d : BitVec 6) (a : BitVec 6) (imm : BitVec 11) (s : State) : exec (.addi g d a imm) s = execAddi g d a imm s := rfl
@[simp] theorem exec_movi (g : BitVec 3) (d : BitVec 6) (v : BitVec 1) (imm : BitVec 16) (s : State) : exec (.movi g d v imm) s = execMovi g d v imm s := rfl
@[simp] theorem exec_movhi (g : BitVec 3) (d : BitVec 6) (v : BitVec 1) (imm : BitVec 16) (s : State) : exec (.movhi g d v imm) s = execMovhi g d v imm s := rfl
@[simp] theorem exec_addF32 (f : OpA) (s : State) : exec (.addF32 f) s = execAddF32 f s := rfl
@[simp] theorem exec_subF32 (f : OpA) (s : State) : exec (.subF32 f) s = execSubF32 f s := rfl
@[simp] theorem exec_mulF32 (f : OpA) (s : State) : exec (.mulF32 f) s = execMulF32 f s := rfl
@[simp] theorem exec_fmaF32 (f : OpA) (s : State) : exec (.fmaF32 f) s = execFmaF32 f s := rfl
@[simp] theorem exec_fnmaF32 (f : OpA) (s : State) : exec (.fnmaF32 f) s = execFnmaF32 f s := rfl
@[simp] theorem exec_minF32 (f : OpA) (s : State) : exec (.minF32 f) s = execMinF32 f s := rfl
@[simp] theorem exec_maxF32 (f : OpA) (s : State) : exec (.maxF32 f) s = execMaxF32 f s := rfl
@[simp] theorem exec_absF32 (f : OpU) (s : State) : exec (.absF32 f) s = execAbsF32 f s := rfl
@[simp] theorem exec_negF32 (f : OpU) (s : State) : exec (.negF32 f) s = execNegF32 f s := rfl
@[simp] theorem exec_rcpF32 (f : OpU) (s : State) : exec (.rcpF32 f) s = execRcpF32 f s := rfl
@[simp] theorem exec_rsqrtF32 (f : OpU) (s : State) : exec (.rsqrtF32 f) s = execRsqrtF32 f s := rfl
@[simp] theorem exec_sqrtF32 (f : OpU) (s : State) : exec (.sqrtF32 f) s = execSqrtF32 f s := rfl
@[simp] theorem exec_exp2F32 (f : OpU) (s : State) : exec (.exp2F32 f) s = execExp2F32 f s := rfl
@[simp] theorem exec_log2F32 (f : OpU) (s : State) : exec (.log2F32 f) s = execLog2F32 f s := rfl
@[simp] theorem exec_copysignF32 (f : OpA) (s : State) : exec (.copysignF32 f) s = execCopysignF32 f s := rfl
@[simp] theorem exec_addF64 (f : OpA) (s : State) : exec (.addF64 f) s = execAddF64 f s := rfl
@[simp] theorem exec_subF64 (f : OpA) (s : State) : exec (.subF64 f) s = execSubF64 f s := rfl
@[simp] theorem exec_mulF64 (f : OpA) (s : State) : exec (.mulF64 f) s = execMulF64 f s := rfl
@[simp] theorem exec_fmaF64 (f : OpA) (s : State) : exec (.fmaF64 f) s = execFmaF64 f s := rfl
@[simp] theorem exec_fnmaF64 (f : OpA) (s : State) : exec (.fnmaF64 f) s = execFnmaF64 f s := rfl
@[simp] theorem exec_minF64 (f : OpA) (s : State) : exec (.minF64 f) s = execMinF64 f s := rfl
@[simp] theorem exec_maxF64 (f : OpA) (s : State) : exec (.maxF64 f) s = execMaxF64 f s := rfl
@[simp] theorem exec_absF64 (f : OpU) (s : State) : exec (.absF64 f) s = execAbsF64 f s := rfl
@[simp] theorem exec_negF64 (f : OpU) (s : State) : exec (.negF64 f) s = execNegF64 f s := rfl
@[simp] theorem exec_rcpF64 (f : OpU) (s : State) : exec (.rcpF64 f) s = execRcpF64 f s := rfl
@[simp] theorem exec_rsqrtF64 (f : OpU) (s : State) : exec (.rsqrtF64 f) s = execRsqrtF64 f s := rfl
@[simp] theorem exec_sqrtF64 (f : OpU) (s : State) : exec (.sqrtF64 f) s = execSqrtF64 f s := rfl
@[simp] theorem exec_copysignF64 (f : OpA) (s : State) : exec (.copysignF64 f) s = execCopysignF64 f s := rfl
@[simp] theorem exec_addH16 (f : OpA) (s : State) : exec (.addH16 f) s = execAddH16 f s := rfl
@[simp] theorem exec_mulH16 (f : OpA) (s : State) : exec (.mulH16 f) s = execMulH16 f s := rfl
@[simp] theorem exec_fmaH16 (f : OpA) (s : State) : exec (.fmaH16 f) s = execFmaH16 f s := rfl
@[simp] theorem exec_minH16 (f : OpA) (s : State) : exec (.minH16 f) s = execMinH16 f s := rfl
@[simp] theorem exec_maxH16 (f : OpA) (s : State) : exec (.maxH16 f) s = execMaxH16 f s := rfl
@[simp] theorem exec_addBf16 (f : OpA) (s : State) : exec (.addBf16 f) s = execAddBf16 f s := rfl
@[simp] theorem exec_mulBf16 (f : OpA) (s : State) : exec (.mulBf16 f) s = execMulBf16 f s := rfl
@[simp] theorem exec_fmaBf16 (f : OpA) (s : State) : exec (.fmaBf16 f) s = execFmaBf16 f s := rfl
@[simp] theorem exec_minBf16 (f : OpA) (s : State) : exec (.minBf16 f) s = execMinBf16 f s := rfl
@[simp] theorem exec_maxBf16 (f : OpA) (s : State) : exec (.maxBf16 f) s = execMaxBf16 f s := rfl
@[simp] theorem exec_addH16x2 (f : OpA) (s : State) : exec (.addH16x2 f) s = execAddH16x2 f s := rfl
@[simp] theorem exec_mulH16x2 (f : OpA) (s : State) : exec (.mulH16x2 f) s = execMulH16x2 f s := rfl
@[simp] theorem exec_fmaH16x2 (f : OpA) (s : State) : exec (.fmaH16x2 f) s = execFmaH16x2 f s := rfl
@[simp] theorem exec_minH16x2 (f : OpA) (s : State) : exec (.minH16x2 f) s = execMinH16x2 f s := rfl
@[simp] theorem exec_maxH16x2 (f : OpA) (s : State) : exec (.maxH16x2 f) s = execMaxH16x2 f s := rfl
@[simp] theorem exec_addBf16x2 (f : OpA) (s : State) : exec (.addBf16x2 f) s = execAddBf16x2 f s := rfl
@[simp] theorem exec_mulBf16x2 (f : OpA) (s : State) : exec (.mulBf16x2 f) s = execMulBf16x2 f s := rfl
@[simp] theorem exec_fmaBf16x2 (f : OpA) (s : State) : exec (.fmaBf16x2 f) s = execFmaBf16x2 f s := rfl
@[simp] theorem exec_minBf16x2 (f : OpA) (s : State) : exec (.minBf16x2 f) s = execMinBf16x2 f s := rfl
@[simp] theorem exec_maxBf16x2 (f : OpA) (s : State) : exec (.maxBf16x2 f) s = execMaxBf16x2 f s := rfl
@[simp] theorem exec_feqF32 (f : OpCmp) (s : State) : exec (.feqF32 f) s = execFeqF32 f s := rfl
@[simp] theorem exec_fltF32 (f : OpCmp) (s : State) : exec (.fltF32 f) s = execFltF32 f s := rfl
@[simp] theorem exec_fleF32 (f : OpCmp) (s : State) : exec (.fleF32 f) s = execFleF32 f s := rfl
@[simp] theorem exec_funordF32 (f : OpCmp) (s : State) : exec (.funordF32 f) s = execFunordF32 f s := rfl
@[simp] theorem exec_feqF64 (f : OpCmp) (s : State) : exec (.feqF64 f) s = execFeqF64 f s := rfl
@[simp] theorem exec_fltF64 (f : OpCmp) (s : State) : exec (.fltF64 f) s = execFltF64 f s := rfl
@[simp] theorem exec_fleF64 (f : OpCmp) (s : State) : exec (.fleF64 f) s = execFleF64 f s := rfl
@[simp] theorem exec_funordF64 (f : OpCmp) (s : State) : exec (.funordF64 f) s = execFunordF64 f s := rfl
@[simp] theorem exec_cvt (g : BitVec 3) (c : BitVec 4) (d : BitVec 6) (a : BitVec 6) (u : BitVec 4) (s : State) : exec (.cvt g c d a u) s = execCvt g c d a u s := rfl
@[simp] theorem exec_tfence (s : State) : exec .tfence s = execTfence s := rfl
@[simp] theorem exec_mmul (g : BitVec 3) (k : BitVec 1) (n : BitVec 2) (d : BitVec 6) (a : BitVec 6) (b : BitVec 6) (s : State) : exec (.mmul g k n d a b) s = execMmul g k n d a b s := rfl
@[simp] theorem exec_madd (g : BitVec 3) (k : BitVec 1) (n : BitVec 2) (d : BitVec 6) (a : BitVec 6) (b : BitVec 6) (s : State) : exec (.madd g k n d a b) s = execMadd g k n d a b s := rfl
@[simp] theorem exec_msub (g : BitVec 3) (k : BitVec 1) (n : BitVec 2) (d : BitVec 6) (a : BitVec 6) (b : BitVec 6) (s : State) : exec (.msub g k n d a b) s = execMsub g k n d a b s := rfl
@[simp] theorem exec_mmac (g : BitVec 3) (k : BitVec 1) (n : BitVec 2) (d : BitVec 6) (a : BitVec 6) (b : BitVec 6) (s : State) : exec (.mmac g k n d a b) s = execMmac g k n d a b s := rfl
@[simp] theorem exec_mred (g : BitVec 3) (n : BitVec 2) (d : BitVec 6) (a : BitVec 6) (s : State) : exec (.mred g n d a) s = execMred g n d a s := rfl
@[simp] theorem exec_mred128 (g : BitVec 3) (n : BitVec 2) (d : BitVec 6) (a : BitVec 6) (s : State) : exec (.mred128 g n d a) s = execMred128 g n d a s := rfl
@[simp] theorem exec_mneg (g : BitVec 3) (n : BitVec 2) (d : BitVec 6) (a : BitVec 6) (s : State) : exec (.mneg g n d a) s = execMneg g n d a s := rfl
@[simp] theorem exec_bfly (g : BitVec 3) (n : BitVec 2) (d : BitVec 6) (a : BitVec 6) (x : BitVec 3) (s : State) : exec (.bfly g n d a x) s = execBfly g n d a x s := rfl
@[simp] theorem exec_ibfly (g : BitVec 3) (n : BitVec 2) (d : BitVec 6) (a : BitVec 6) (x : BitVec 3) (s : State) : exec (.ibfly g n d a x) s = execIbfly g n d a x s := rfl
@[simp] theorem exec_perm (g : BitVec 3) (d : BitVec 6) (a : BitVec 6) (b : BitVec 6) (s : State) : exec (.perm g d a b) s = execPerm g d a b s := rfl
@[simp] theorem exec_lrot (g : BitVec 3) (d : BitVec 6) (a : BitVec 6) (b : BitVec 6) (s : State) : exec (.lrot g d a b) s = execLrot g d a b s := rfl
@[simp] theorem exec_setm (g : BitVec 3) (n : BitVec 2) (a : BitVec 6) (s : State) : exec (.setm g n a) s = execSetm g n a s := rfl
@[simp] theorem exec_getm (g : BitVec 3) (n : BitVec 2) (a : BitVec 6) (s : State) : exec (.getm g n a) s = execGetm g n a s := rfl
@[simp] theorem exec_getk (g : BitVec 3) (n : BitVec 2) (a : BitVec 6) (s : State) : exec (.getk g n a) s = execGetk g n a s := rfl
@[simp] theorem exec_ld (f : OpM) (s : State) : exec (.ld f) s = execLd f s := rfl
@[simp] theorem exec_st (f : OpM) (s : State) : exec (.st f) s = execSt f s := rfl
@[simp] theorem exec_lde (f : OpM) (s : State) : exec (.lde f) s = execLde f s := rfl
@[simp] theorem exec_ste (f : OpM) (s : State) : exec (.ste f) s = execSte f s := rfl
@[simp] theorem exec_preq (d : BitVec 6) (a : BitVec 6) (p : BitVec 3) (r : BitVec 1) (q : BitVec 1) (s : State) : exec (.preq d a p r q) s = execPreq d a p r q s := rfl
@[simp] theorem exec_lclean (a : BitVec 6) (imm : BitVec 8) (s : State) : exec (.lclean a imm) s = execLclean a imm s := rfl
@[simp] theorem exec_pf (d : BitVec 6) (a : BitVec 6) (w : BitVec 1) (s : State) : exec (.pf d a w) s = execPf d a w s := rfl
@[simp] theorem exec_lflush (a : BitVec 6) (imm : BitVec 8) (s : State) : exec (.lflush a imm) s = execLflush a imm s := rfl
@[simp] theorem exec_linv (a : BitVec 6) (imm : BitVec 8) (s : State) : exec (.linv a imm) s = execLinv a imm s := rfl
@[simp] theorem exec_lds (d : BitVec 6) (a : BitVec 6) (f : BitVec 3) (w : BitVec 2) (s : State) : exec (.lds d a f w) s = execLds d a f w s := rfl
@[simp] theorem exec_cst (d : BitVec 6) (a : BitVec 6) (p : BitVec 3) (w : BitVec 2) (s : State) : exec (.cst d a p w) s = execCst d a p w s := rfl
@[simp] theorem exec_exld (d : BitVec 6) (a : BitVec 6) (f : BitVec 3) (p : BitVec 3) (w : BitVec 2) (s : State) : exec (.exld d a f p w) s = execExld d a f p w s := rfl
@[simp] theorem exec_talloc (d : BitVec 6) (a : BitVec 6) (b : BitVec 6) (s : State) : exec (.talloc d a b) s = execTalloc d a b s := rfl
@[simp] theorem exec_tfree (a : BitVec 6) (s : State) : exec (.tfree a) s = execTfree a s := rfl
@[simp] theorem exec_tfill (d : BitVec 6) (a : BitVec 6) (b : BitVec 6) (s : State) : exec (.tfill d a b) s = execTfill d a b s := rfl
@[simp] theorem exec_tflush (d : BitVec 6) (a : BitVec 6) (s : State) : exec (.tflush d a) s = execTflush d a s := rfl
@[simp] theorem exec_tquery (f : OpN) (s : State) : exec (.tquery f) s = execTquery f s := rfl
@[simp] theorem exec_tld (g : BitVec 3) (k : BitVec 1) (w : BitVec 2) (d : BitVec 6) (a : BitVec 6) (b : BitVec 6) (s : State) : exec (.tld g k w d a b) s = execTld g k w d a b s := rfl
@[simp] theorem exec_tst (g : BitVec 3) (k : BitVec 1) (w : BitVec 2) (d : BitVec 6) (a : BitVec 6) (b : BitVec 6) (s : State) : exec (.tst g k w d a b) s = execTst g k w d a b s := rfl
@[simp] theorem exec_tlde (f : OpA) (s : State) : exec (.tlde f) s = execTlde f s := rfl
@[simp] theorem exec_tste (f : OpA) (s : State) : exec (.tste f) s = execTste f s := rfl
@[simp] theorem exec_tldg (f : OpA) (s : State) : exec (.tldg f) s = execTldg f s := rfl
@[simp] theorem exec_tstg (f : OpA) (s : State) : exec (.tstg f) s = execTstg f s := rfl
@[simp] theorem exec_macq (a : BitVec 6) (s : State) : exec (.macq a) s = execMacq a s := rfl
@[simp] theorem exec_mrel (a : BitVec 6) (s : State) : exec (.mrel a) s = execMrel a s := rfl
@[simp] theorem exec_atomAdd (f : OpA) (s : State) : exec (.atomAdd f) s = execAtomAdd f s := rfl
@[simp] theorem exec_atomAnd (f : OpA) (s : State) : exec (.atomAnd f) s = execAtomAnd f s := rfl
@[simp] theorem exec_atomOr (f : OpA) (s : State) : exec (.atomOr f) s = execAtomOr f s := rfl
@[simp] theorem exec_atomXor (f : OpA) (s : State) : exec (.atomXor f) s = execAtomXor f s := rfl
@[simp] theorem exec_atomMinS32 (f : OpA) (s : State) : exec (.atomMinS32 f) s = execAtomMinS32 f s := rfl
@[simp] theorem exec_atomMaxS32 (f : OpA) (s : State) : exec (.atomMaxS32 f) s = execAtomMaxS32 f s := rfl
@[simp] theorem exec_atomMinN32 (f : OpA) (s : State) : exec (.atomMinN32 f) s = execAtomMinN32 f s := rfl
@[simp] theorem exec_atomMaxN32 (f : OpA) (s : State) : exec (.atomMaxN32 f) s = execAtomMaxN32 f s := rfl
@[simp] theorem exec_atomXchg (f : OpA) (s : State) : exec (.atomXchg f) s = execAtomXchg f s := rfl
@[simp] theorem exec_atomCas (f : OpA) (s : State) : exec (.atomCas f) s = execAtomCas f s := rfl
@[simp] theorem exec_redAdd (f : OpRed) (s : State) : exec (.redAdd f) s = execRedAdd f s := rfl
@[simp] theorem exec_redAnd (f : OpRed) (s : State) : exec (.redAnd f) s = execRedAnd f s := rfl
@[simp] theorem exec_redOr (f : OpRed) (s : State) : exec (.redOr f) s = execRedOr f s := rfl
@[simp] theorem exec_redXor (f : OpRed) (s : State) : exec (.redXor f) s = execRedXor f s := rfl
@[simp] theorem exec_redMinS32 (f : OpRed) (s : State) : exec (.redMinS32 f) s = execRedMinS32 f s := rfl
@[simp] theorem exec_redMaxS32 (f : OpRed) (s : State) : exec (.redMaxS32 f) s = execRedMaxS32 f s := rfl
@[simp] theorem exec_redMinN32 (f : OpRed) (s : State) : exec (.redMinN32 f) s = execRedMinN32 f s := rfl
@[simp] theorem exec_redMaxN32 (f : OpRed) (s : State) : exec (.redMaxN32 f) s = execRedMaxN32 f s := rfl
@[simp] theorem exec_atomAddN64 (f : OpA) (s : State) : exec (.atomAddN64 f) s = execAtomAddN64 f s := rfl
@[simp] theorem exec_atomAndN64 (f : OpA) (s : State) : exec (.atomAndN64 f) s = execAtomAndN64 f s := rfl
@[simp] theorem exec_atomOrN64 (f : OpA) (s : State) : exec (.atomOrN64 f) s = execAtomOrN64 f s := rfl
@[simp] theorem exec_atomXorN64 (f : OpA) (s : State) : exec (.atomXorN64 f) s = execAtomXorN64 f s := rfl
@[simp] theorem exec_atomMinS64 (f : OpA) (s : State) : exec (.atomMinS64 f) s = execAtomMinS64 f s := rfl
@[simp] theorem exec_atomMaxS64 (f : OpA) (s : State) : exec (.atomMaxS64 f) s = execAtomMaxS64 f s := rfl
@[simp] theorem exec_atomMinN64 (f : OpA) (s : State) : exec (.atomMinN64 f) s = execAtomMinN64 f s := rfl
@[simp] theorem exec_atomMaxN64 (f : OpA) (s : State) : exec (.atomMaxN64 f) s = execAtomMaxN64 f s := rfl
@[simp] theorem exec_atomXchgN64 (f : OpA) (s : State) : exec (.atomXchgN64 f) s = execAtomXchgN64 f s := rfl
@[simp] theorem exec_atomCasN64 (f : OpA) (s : State) : exec (.atomCasN64 f) s = execAtomCasN64 f s := rfl
@[simp] theorem exec_redAddN64 (f : OpRed) (s : State) : exec (.redAddN64 f) s = execRedAddN64 f s := rfl
@[simp] theorem exec_redAndN64 (f : OpRed) (s : State) : exec (.redAndN64 f) s = execRedAndN64 f s := rfl
@[simp] theorem exec_redOrN64 (f : OpRed) (s : State) : exec (.redOrN64 f) s = execRedOrN64 f s := rfl
@[simp] theorem exec_redXorN64 (f : OpRed) (s : State) : exec (.redXorN64 f) s = execRedXorN64 f s := rfl
@[simp] theorem exec_redMinS64 (f : OpRed) (s : State) : exec (.redMinS64 f) s = execRedMinS64 f s := rfl
@[simp] theorem exec_redMaxS64 (f : OpRed) (s : State) : exec (.redMaxS64 f) s = execRedMaxS64 f s := rfl
@[simp] theorem exec_redMinN64 (f : OpRed) (s : State) : exec (.redMinN64 f) s = execRedMinN64 f s := rfl
@[simp] theorem exec_redMaxN64 (f : OpRed) (s : State) : exec (.redMaxN64 f) s = execRedMaxN64 f s := rfl
@[simp] theorem exec_atomAddF32 (f : OpA) (s : State) : exec (.atomAddF32 f) s = execAtomAddF32 f s := rfl
@[simp] theorem exec_atomMinF32 (f : OpA) (s : State) : exec (.atomMinF32 f) s = execAtomMinF32 f s := rfl
@[simp] theorem exec_atomMaxF32 (f : OpA) (s : State) : exec (.atomMaxF32 f) s = execAtomMaxF32 f s := rfl
@[simp] theorem exec_atomAddF64 (f : OpA) (s : State) : exec (.atomAddF64 f) s = execAtomAddF64 f s := rfl
@[simp] theorem exec_atomMinF64 (f : OpA) (s : State) : exec (.atomMinF64 f) s = execAtomMinF64 f s := rfl
@[simp] theorem exec_atomMaxF64 (f : OpA) (s : State) : exec (.atomMaxF64 f) s = execAtomMaxF64 f s := rfl
@[simp] theorem exec_atomAddBf16x2 (f : OpA) (s : State) : exec (.atomAddBf16x2 f) s = execAtomAddBf16x2 f s := rfl
@[simp] theorem exec_atomMinBf16x2 (f : OpA) (s : State) : exec (.atomMinBf16x2 f) s = execAtomMinBf16x2 f s := rfl
@[simp] theorem exec_atomMaxBf16x2 (f : OpA) (s : State) : exec (.atomMaxBf16x2 f) s = execAtomMaxBf16x2 f s := rfl
@[simp] theorem exec_atomAddH16x2 (f : OpA) (s : State) : exec (.atomAddH16x2 f) s = execAtomAddH16x2 f s := rfl
@[simp] theorem exec_atomMinH16x2 (f : OpA) (s : State) : exec (.atomMinH16x2 f) s = execAtomMinH16x2 f s := rfl
@[simp] theorem exec_atomMaxH16x2 (f : OpA) (s : State) : exec (.atomMaxH16x2 f) s = execAtomMaxH16x2 f s := rfl
@[simp] theorem exec_atomAddBf16 (f : OpA) (s : State) : exec (.atomAddBf16 f) s = execAtomAddBf16 f s := rfl
@[simp] theorem exec_atomMinBf16 (f : OpA) (s : State) : exec (.atomMinBf16 f) s = execAtomMinBf16 f s := rfl
@[simp] theorem exec_atomMaxBf16 (f : OpA) (s : State) : exec (.atomMaxBf16 f) s = execAtomMaxBf16 f s := rfl
@[simp] theorem exec_redAddF32 (f : OpRed) (s : State) : exec (.redAddF32 f) s = execRedAddF32 f s := rfl
@[simp] theorem exec_redMinF32 (f : OpRed) (s : State) : exec (.redMinF32 f) s = execRedMinF32 f s := rfl
@[simp] theorem exec_redMaxF32 (f : OpRed) (s : State) : exec (.redMaxF32 f) s = execRedMaxF32 f s := rfl
@[simp] theorem exec_redAddF64 (f : OpRed) (s : State) : exec (.redAddF64 f) s = execRedAddF64 f s := rfl
@[simp] theorem exec_redMinF64 (f : OpRed) (s : State) : exec (.redMinF64 f) s = execRedMinF64 f s := rfl
@[simp] theorem exec_redMaxF64 (f : OpRed) (s : State) : exec (.redMaxF64 f) s = execRedMaxF64 f s := rfl
@[simp] theorem exec_redAddBf16x2 (f : OpRed) (s : State) : exec (.redAddBf16x2 f) s = execRedAddBf16x2 f s := rfl
@[simp] theorem exec_redMinBf16x2 (f : OpRed) (s : State) : exec (.redMinBf16x2 f) s = execRedMinBf16x2 f s := rfl
@[simp] theorem exec_redMaxBf16x2 (f : OpRed) (s : State) : exec (.redMaxBf16x2 f) s = execRedMaxBf16x2 f s := rfl
@[simp] theorem exec_redAddH16x2 (f : OpRed) (s : State) : exec (.redAddH16x2 f) s = execRedAddH16x2 f s := rfl
@[simp] theorem exec_redMinH16x2 (f : OpRed) (s : State) : exec (.redMinH16x2 f) s = execRedMinH16x2 f s := rfl
@[simp] theorem exec_redMaxH16x2 (f : OpRed) (s : State) : exec (.redMaxH16x2 f) s = execRedMaxH16x2 f s := rfl
@[simp] theorem exec_redAddBf16 (f : OpRed) (s : State) : exec (.redAddBf16 f) s = execRedAddBf16 f s := rfl
@[simp] theorem exec_redMinBf16 (f : OpRed) (s : State) : exec (.redMinBf16 f) s = execRedMinBf16 f s := rfl
@[simp] theorem exec_redMaxBf16 (f : OpRed) (s : State) : exec (.redMaxBf16 f) s = execRedMaxBf16 f s := rfl
@[simp] theorem exec_cas128 (g : BitVec 3) (d : BitVec 6) (a : BitVec 6) (b : BitVec 6) (s : State) : exec (.cas128 g d a b) s = execCas128 g d a b s := rfl
@[simp] theorem exec_lres32 (f : OpN) (s : State) : exec (.lres32 f) s = execLres32 f s := rfl
@[simp] theorem exec_lres64 (f : OpN) (s : State) : exec (.lres64 f) s = execLres64 f s := rfl
@[simp] theorem exec_scond32 (f : OpA) (s : State) : exec (.scond32 f) s = execScond32 f s := rfl
@[simp] theorem exec_scond64 (f : OpA) (s : State) : exec (.scond64 f) s = execScond64 f s := rfl
@[simp] theorem exec_mon (g : BitVec 3) (a : BitVec 6) (s : State) : exec (.mon g a) s = execMon g a s := rfl
@[simp] theorem exec_fence (x : BitVec 3) (s : State) : exec (.fence x) s = execFence x s := rfl
@[simp] theorem exec_fenceAcq (x : BitVec 3) (s : State) : exec (.fenceAcq x) s = execFenceAcq x s := rfl
@[simp] theorem exec_fenceRel (x : BitVec 3) (s : State) : exec (.fenceRel x) s = execFenceRel x s := rfl
@[simp] theorem exec_bar (n : BitVec 4) (s : State) : exec (.bar n) s = execBar n s := rfl
@[simp] theorem exec_gbar (a : BitVec 6) (s : State) : exec (.gbar a) s = execGbar a s := rfl
@[simp] theorem exec_mwait (s : State) : exec .mwait s = execMwait s := rfl
@[simp] theorem exec_launch (a : BitVec 6) (s : State) : exec (.launch a) s = execLaunch a s := rfl
@[simp] theorem exec_spawn (f : OpS) (s : State) : exec (.spawn f) s = execSpawn f s := rfl
@[simp] theorem exec_jcnt (d : BitVec 6) (a : BitVec 6) (imm : BitVec 8) (s : State) : exec (.jcnt d a imm) s = execJcnt d a imm s := rfl
@[simp] theorem exec_exit (s : State) : exec .exit_ s = execExit s := rfl
@[simp] theorem exec_yield (s : State) : exec .yield s = execYield s := rfl
@[simp] theorem exec_gquery (f : OpS) (s : State) : exec (.gquery f) s = execGquery f s := rfl
@[simp] theorem exec_qpush (f : OpS) (s : State) : exec (.qpush f) s = execQpush f s := rfl
@[simp] theorem exec_qtail (f : OpS) (s : State) : exec (.qtail f) s = execQtail f s := rfl
@[simp] theorem exec_seqwait (f : OpS) (s : State) : exec (.seqwait f) s = execSeqwait f s := rfl
@[simp] theorem exec_dsub (f : OpS) (s : State) : exec (.dsub f) s = execDsub f s := rfl
@[simp] theorem exec_vsub (f : OpS) (s : State) : exec (.vsub f) s = execVsub f s := rfl
@[simp] theorem exec_csub (f : OpS) (s : State) : exec (.csub f) s = execCsub f s := rfl
@[simp] theorem exec_qhead (f : OpS) (s : State) : exec (.qhead f) s = execQhead f s := rfl
@[simp] theorem exec_qheadWait (f : OpS) (s : State) : exec (.qheadWait f) s = execQheadWait f s := rfl
@[simp] theorem exec_seqread (f : OpS) (s : State) : exec (.seqread f) s = execSeqread f s := rfl
@[simp] theorem exec_mload (d : BitVec 6) (a : BitVec 6) (imm : BitVec 8) (s : State) : exec (.mload d a imm) s = execMload d a imm s := rfl
@[simp] theorem exec_mswap (s : State) : exec .mswap s = execMswap s := rfl
@[simp] theorem exec_mstep (d : BitVec 6) (a : BitVec 6) (imm : BitVec 1) (t : BitVec 1) (w : BitVec 3) (s : State) : exec (.mstep d a imm t w) s = execMstep d a imm t w s := rfl
@[simp] theorem exec_mzero (f : OpS) (s : State) : exec (.mzero f) s = execMzero f s := rfl
@[simp] theorem exec_mzeroFree (a : BitVec 6) (s : State) : exec (.mzeroFree a) s = execMzeroFree a s := rfl
@[simp] theorem exec_mdrain (d : BitVec 6) (a : BitVec 6) (f : BitVec 1) (x : BitVec 1) (r : BitVec 2) (s : State) : exec (.mdrain d a f x r) s = execMdrain d a f x r s := rfl
@[simp] theorem exec_vdsub (a : BitVec 6) (s : State) : exec (.vdsub a) s = execVdsub a s := rfl
@[simp] theorem exec_vsig (f : OpS) (s : State) : exec (.vsig f) s = execVsig f s := rfl
@[simp] theorem exec_vyield (s : State) : exec .vyield s = execVyield s := rfl
@[simp] theorem exec_vyieldDone (s : State) : exec .vyieldDone s = execVyieldDone s := rfl
@[simp] theorem exec_rast (g : BitVec 3) (d : BitVec 6) (b : BitVec 6) (s : State) : exec (.rast g d b) s = execRast g d b s := rfl
@[simp] theorem exec_rastbin (g : BitVec 3) (d : BitVec 6) (b : BitVec 6) (s : State) : exec (.rastbin g d b) s = execRastbin g d b s := rfl
@[simp] theorem exec_binflush (g : BitVec 3) (d : BitVec 6) (b : BitVec 6) (s : State) : exec (.binflush g d b) s = execBinflush g d b s := rfl
@[simp] theorem exec_ctok (f : OpC) (s : State) : exec (.ctok f) s = execCtok f s := rfl
@[simp] theorem exec_zs (f : OpC) (s : State) : exec (.zs f) s = execZs f s := rfl
@[simp] theorem exec_zsP (g : BitVec 3) (a : BitVec 6) (b : BitVec 6) (s : State) : exec (.zsP g a b) s = execZsP g a b s := rfl
@[simp] theorem exec_blnd (f : OpC) (s : State) : exec (.blnd f) s = execBlnd f s := rfl
@[simp] theorem exec_blndP (g : BitVec 3) (a : BitVec 6) (b : BitVec 6) (s : State) : exec (.blndP g a b) s = execBlndP g a b s := rfl
@[simp] theorem exec_tex (f : OpC) (s : State) : exec (.tex f) s = execTex f s := rfl
@[simp] theorem exec_texg (f : OpC) (s : State) : exec (.texg f) s = execTexg f s := rfl
@[simp] theorem exec_texq (f : OpC) (s : State) : exec (.texq f) s = execTexq f s := rfl
@[simp] theorem exec_trav (f : OpC) (s : State) : exec (.trav f) s = execTrav f s := rfl
@[simp] theorem exec_travc (f : OpC) (s : State) : exec (.travc f) s = execTravc f s := rfl
@[simp] theorem exec_rdsV (d : BitVec 6) (imm : BitVec 8) (s : State) : exec (.rdsV d imm) s = execRdsV d imm s := rfl
@[simp] theorem exec_rdsS (d : BitVec 6) (imm : BitVec 8) (s : State) : exec (.rdsS d imm) s = execRdsS d imm s := rfl
@[simp] theorem exec_wrs (a : BitVec 6) (imm : BitVec 8) (s : State) : exec (.wrs a imm) s = execWrs a imm s := rfl
@[simp] theorem exec_upcall (d : BitVec 6) (a : BitVec 6) (imm : BitVec 8) (s : State) : exec (.upcall d a imm) s = execUpcall d a imm s := rfl
@[simp] theorem exec_brk (imm : BitVec 8) (s : State) : exec (.brk imm) s = execBrk imm s := rfl
@[simp] theorem exec_nop (s : State) : exec .nop s = execNop s := rfl
@[simp] theorem exec_tlbiPage (f : OpS) (s : State) : exec (.tlbiPage f) s = execTlbiPage f s := rfl
@[simp] theorem exec_tlbiAsid (f : OpS) (s : State) : exec (.tlbiAsid f) s = execTlbiAsid f s := rfl
@[simp] theorem exec_tlbiAll (f : OpS) (s : State) : exec (.tlbiAll f) s = execTlbiAll f s := rfl
@[simp] theorem exec_pkset (d : BitVec 6) (a : BitVec 6) (imm : BitVec 8) (s : State) : exec (.pkset d a imm) s = execPkset d a imm s := rfl
@[simp] theorem exec_hintImmediate (y : BitVec 22) (s : State) : exec (.hintImmediate y) s = execHintImmediate y s := rfl
@[simp] theorem exec_hintJoin (y : BitVec 22) (s : State) : exec (.hintJoin y) s = execHintJoin y s := rfl
@[simp] theorem exec_hintRounding (y : BitVec 22) (s : State) : exec (.hintRounding y) s = execHintRounding y s := rfl
@[simp] theorem exec_hintScalePolicy (y : BitVec 22) (s : State) : exec (.hintScalePolicy y) s = execHintScalePolicy y s := rfl
@[simp] theorem exec_hintPriority (y : BitVec 22) (s : State) : exec (.hintPriority y) s = execHintPriority y s := rfl
@[simp] theorem exec_hintScope (y : BitVec 22) (s : State) : exec (.hintScope y) s = execHintScope y s := rfl
@[simp] theorem exec_hintFormat (y : BitVec 22) (s : State) : exec (.hintFormat y) s = execHintFormat y s := rfl
@[simp] theorem exec_reservedWord (w : BitVec 32) (s : State) : exec (.reservedWord w) s = execReservedWord w s := rfl
@[simp] theorem exec_debugBreakpoint (n : Nat) (s : State) : exec (.debugBreakpoint n) s = execDebugBreakpoint n s := rfl
@[simp] theorem exec_trapRecordWrite (p : PartRef) (s : State) : exec (.trapRecordWrite p) s = execTrapRecordWrite p s := rfl
@[simp] theorem exec_prqRecordWrite (cluster : Nat) (s : State) : exec (.prqRecordWrite cluster) s = execPrqRecordWrite cluster s := rfl
@[simp] theorem exec_filterEntryFreeWake (p : PartRef) (s : State) : exec (.filterEntryFreeWake p) s = execFilterEntryFreeWake p s := rfl
@[simp] theorem exec_pgresWake (die : Nat) (asid : Nat) (page : Nat) (s : State) : exec (.pgresWake die asid page) s = execPgresWake die asid page s := rfl
@[simp] theorem exec_pgresFault (die : Nat) (asid : Nat) (page : Nat) (s : State) : exec (.pgresFault die asid page) s = execPgresFault die asid page s := rfl
@[simp] theorem exec_homeSliceWrite (crew : Nat) (gang : Nat) (idx : Nat) (s : State) : exec (.homeSliceWrite crew gang idx) s = execHomeSliceWrite crew gang idx s := rfl
@[simp] theorem exec_counterHalving (s : State) : exec .counterHalving s = execCounterHalving s := rfl
@[simp] theorem exec_migrationNoticeWrite (die : Nat) (s : State) : exec (.migrationNoticeWrite die) s = execMigrationNoticeWrite die s := rfl
@[simp] theorem exec_loadDataArrival (a : Arrival) (s : State) : exec (.loadDataArrival a) s = execLoadDataArrival a s := rfl
@[simp] theorem exec_fenceComplete (p : PartRef) (s : State) : exec (.fenceComplete p) s = execFenceComplete p s := rfl
@[simp] theorem exec_fenceRollback (p : PartRef) (s : State) : exec (.fenceRollback p) s = execFenceRollback p s := rfl
@[simp] theorem exec_barRelease (crew : Nat) (n : Nat) (s : State) : exec (.barRelease crew n) s = execBarRelease crew n s := rfl
@[simp] theorem exec_gbarRelease (asid : Nat) (group : Nat) (s : State) : exec (.gbarRelease asid group) s = execGbarRelease asid group s := rfl
@[simp] theorem exec_regangJoin (crew : Nat) (gang : Nat) (s : State) : exec (.regangJoin crew gang) s = execRegangJoin crew gang s := rfl
@[simp] theorem exec_mwaitWake (p : PartRef) (s : State) : exec (.mwaitWake p) s = execMwaitWake p s := rfl
@[simp] theorem exec_seqwaitWake (p : PartRef) (s : State) : exec (.seqwaitWake p) s = execSeqwaitWake p s := rfl
@[simp] theorem exec_tokenAcquire (p : PartRef) (s : State) : exec (.tokenAcquire p) s = execTokenAcquire p s := rfl
@[simp] theorem exec_ringRoomWake (p : PartRef) (s : State) : exec (.ringRoomWake p) s = execRingRoomWake p s := rfl
@[simp] theorem exec_taskQueueRoomWake (p : PartRef) (s : State) : exec (.taskQueueRoomWake p) s = execTaskQueueRoomWake p s := rfl
@[simp] theorem exec_placement (die : Nat) (core : Nat) (s : State) : exec (.placement die core) s = execPlacement die core s := rfl
@[simp] theorem exec_tileListRelease (cluster : Nat) (cls : Nat) (s : State) : exec (.tileListRelease cluster cls) s = execTileListRelease cluster cls s := rfl
@[simp] theorem exec_stopRequest (crew : Nat) (s : State) : exec (.stopRequest crew) s = execStopRequest crew s := rfl
@[simp] theorem exec_overrunNotice (crew : Nat) (s : State) : exec (.overrunNotice crew) s = execOverrunNotice crew s := rfl
@[simp] theorem exec_park (crew : Nat) (s : State) : exec (.park crew) s = execPark crew s := rfl
@[simp] theorem exec_parkImagePerformed (crew : Nat) (s : State) : exec (.parkImagePerformed crew) s = execParkImagePerformed crew s := rfl
@[simp] theorem exec_crewWake (crew : Nat) (s : State) : exec (.crewWake crew) s = execCrewWake crew s := rfl
@[simp] theorem exec_resume (crew : Nat) (core : Nat) (s : State) : exec (.resume crew core) s = execResume crew core s := rfl
@[simp] theorem exec_joinPush (die : Nat) (s : State) : exec (.joinPush die) s = execJoinPush die s := rfl
@[simp] theorem exec_impliedDecrement (die : Nat) (s : State) : exec (.impliedDecrement die) s = execImpliedDecrement die s := rfl
@[simp] theorem exec_crewExitComplete (crew : Nat) (s : State) : exec (.crewExitComplete crew) s = execCrewExitComplete crew s := rfl
@[simp] theorem exec_tfillComplete (idx : Nat) (s : State) : exec (.tfillComplete idx) s = execTfillComplete idx s := rfl
@[simp] theorem exec_vintnerCardStart (cluster : Nat) (cls : Nat) (s : State) : exec (.vintnerCardStart cluster cls) s = execVintnerCardStart cluster cls s := rfl
@[simp] theorem exec_productCard (cluster : Nat) (cls : Nat) (s : State) : exec (.productCard cluster cls) s = execProductCard cluster cls s := rfl
@[simp] theorem exec_programCard (cluster : Nat) (cls : Nat) (s : State) : exec (.programCard cluster cls) s = execProgramCard cluster cls s := rfl
@[simp] theorem exec_vintnerSwitch (cluster : Nat) (s : State) : exec (.vintnerSwitch cluster) s = execVintnerSwitch cluster s := rfl
@[simp] theorem exec_bankFillComplete (cluster : Nat) (s : State) : exec (.bankFillComplete cluster) s = execBankFillComplete cluster s := rfl
@[simp] theorem exec_swap (cluster : Nat) (s : State) : exec (.swap cluster) s = execSwap cluster s := rfl
@[simp] theorem exec_matrixStep (cluster : Nat) (s : State) : exec (.matrixStep cluster) s = execMatrixStep cluster s := rfl
@[simp] theorem exec_accumulatorZero (cluster : Nat) (s : State) : exec (.accumulatorZero cluster) s = execAccumulatorZero cluster s := rfl
@[simp] theorem exec_accumulatorFree (cluster : Nat) (s : State) : exec (.accumulatorFree cluster) s = execAccumulatorFree cluster s := rfl
@[simp] theorem exec_accumulatorDrain (cluster : Nat) (s : State) : exec (.accumulatorDrain cluster) s = execAccumulatorDrain cluster s := rfl
@[simp] theorem exec_engineTurn (die : Nat) (s : State) : exec (.engineTurn die) s = execEngineTurn die s := rfl
@[simp] theorem exec_testWaitWake (r : RingRef) (s : State) : exec (.testWaitWake r) s = execTestWaitWake r s := rfl
@[simp] theorem exec_ringWake (r : RingRef) (s : State) : exec (.ringWake r) s = execRingWake r s := rfl
@[simp] theorem exec_entryComplete (r : RingRef) (s : State) : exec (.entryComplete r) s = execEntryComplete r s := rfl
@[simp] theorem exec_ringResume (r : RingRef) (s : State) : exec (.ringResume r) s = execRingResume r s := rfl
@[simp] theorem exec_cardDispatch (die : Nat) (group : Nat) (idx : Nat) (s : State) : exec (.cardDispatch die group idx) s = execCardDispatch die group idx s := rfl
@[simp] theorem exec_cardComplete (die : Nat) (group : Nat) (idx : Nat) (s : State) : exec (.cardComplete die group idx) s = execCardComplete die group idx s := rfl
@[simp] theorem exec_decanterChunk (cluster : Nat) (units : Nat) (s : State) : exec (.decanterChunk cluster units) s = execDecanterChunk cluster units s := rfl
@[simp] theorem exec_schedulePeriod (die : Nat) (s : State) : exec (.schedulePeriod die) s = execSchedulePeriod die s := rfl
@[simp] theorem exec_guestSliceEnd (die : Nat) (guest : Nat) (s : State) : exec (.guestSliceEnd die guest) s = execGuestSliceEnd die guest s := rfl
@[simp] theorem exec_coprocessorServe (cluster : Nat) (u : CopUnit) (s : State) : exec (.coprocessorServe cluster u) s = execCoprocessorServe cluster u s := rfl
@[simp] theorem exec_coprocessorQueueRoom (p : PartRef) (s : State) : exec (.coprocessorQueueRoom p) s = execCoprocessorQueueRoom p s := rfl
@[simp] theorem exec_lanePerform (cluster : Nat) (idx : Nat) (s : State) : exec (.lanePerform cluster idx) s = execLanePerform cluster idx s := rfl
@[simp] theorem exec_windowEntry (cluster : Nat) (idx : Nat) (s : State) : exec (.windowEntry cluster idx) s = execWindowEntry cluster idx s := rfl
@[simp] theorem exec_callRecordArrival (cluster : Nat) (idx : Nat) (s : State) : exec (.callRecordArrival cluster idx) s = execCallRecordArrival cluster idx s := rfl
@[simp] theorem exec_mailboxRecordWrite (die : Nat) (s : State) : exec (.mailboxRecordWrite die) s = execMailboxRecordWrite die s := rfl
@[simp] theorem exec_tresRetry (die : Nat) (tag : Nat) (s : State) : exec (.tresRetry die tag) s = execTresRetry die tag s := rfl
@[simp] theorem exec_tresSkip (die : Nat) (tag : Nat) (s : State) : exec (.tresSkip die tag) s = execTresSkip die tag s := rfl
@[simp] theorem exec_tresRedirect (die : Nat) (tag : Nat) (addr : Nat) (s : State) : exec (.tresRedirect die tag addr) s = execTresRedirect die tag addr s := rfl
@[simp] theorem exec_tresTerminate (die : Nat) (tag : Nat) (decrement : Bool) (s : State) : exec (.tresTerminate die tag decrement) s = execTresTerminate die tag decrement s := rfl
@[simp] theorem exec_tresPark (die : Nat) (tag : Nat) (s : State) : exec (.tresPark die tag) s = execTresPark die tag s := rfl
@[simp] theorem exec_ureply (die : Nat) (tag : Nat) (value : BitVec 64) (s : State) : exec (.ureply die tag value) s = execUreply die tag value s := rfl
@[simp] theorem exec_ureplyTerminate (die : Nat) (tag : Nat) (s : State) : exec (.ureplyTerminate die tag) s = execUreplyTerminate die tag s := rfl
@[simp] theorem exec_mgringWrite (r : RingRef) (asid : Nat) (desc : BitVec 64) (valid : Bool) (s : State) : exec (.mgringWrite r asid desc valid) s = execMgringWrite r asid desc valid s := rfl
@[simp] theorem exec_hswscClear (slice : Nat) (s : State) : exec (.hswscClear slice) s = execHswscClear slice s := rfl
@[simp] theorem exec_registerWrite (writer : RegWriter) (off : Nat) (size : Nat) (value : BitVec 64) (s : State) : exec (.registerWrite writer off size value) s = execRegisterWrite writer off size value s := rfl
@[simp] theorem exec_scrubError (die : Nat) (pa : Nat) (s : State) : exec (.scrubError die pa) s = execScrubError die pa s := rfl
@[simp] theorem exec_pluginPeriodStart (die : Nat) (tenant : Nat) (s : State) : exec (.pluginPeriodStart die tenant) s = execPluginPeriodStart die tenant s := rfl
@[simp] theorem exec_pluginOverrun (die : Nat) (tenant : Nat) (s : State) : exec (.pluginOverrun die tenant) s = execPluginOverrun die tenant s := rfl
@[simp] theorem exec_ecallReturn (die : Nat) (tenant : Nat) (reply : List Nat) (s : State) : exec (.ecallReturn die tenant reply) s = execEcallReturn die tenant reply s := rfl
@[simp] theorem exec_ecallGuse (die : Nat) (tenant : Nat) (guest : Nat) (s : State) : exec (.ecallGuse die tenant guest) s = execEcallGuse die tenant guest s := rfl
@[simp] theorem exec_ecallLog (die : Nat) (tenant : Nat) (value : BitVec 64) (s : State) : exec (.ecallLog die tenant value) s = execEcallLog die tenant value s := rfl
@[simp] theorem exec_pluginTimeout (die : Nat) (tenant : Nat) (s : State) : exec (.pluginTimeout die tenant) s = execPluginTimeout die tenant s := rfl
@[simp] theorem exec_hostInboundRequest (q : PortReq) (s : State) : exec (.hostInboundRequest q) s = execHostInboundRequest q s := rfl
@[simp] theorem exec_storageInboundRequest (q : PortReq) (s : State) : exec (.storageInboundRequest q) s = execStorageInboundRequest q s := rfl
@[simp] theorem exec_inboundTimeout (idx : Nat) (s : State) : exec (.inboundTimeout idx) s = execInboundTimeout idx s := rfl
@[simp] theorem exec_peerInboundRequest (source : Nat) (q : PortReq) (s : State) : exec (.peerInboundRequest source q) s = execPeerInboundRequest source q s := rfl
@[simp] theorem exec_completionTimeout (p : PartRef) (s : State) : exec (.completionTimeout p) s = execCompletionTimeout p s := rfl
@[simp] theorem exec_linkDown (port : Nat) (s : State) : exec (.linkDown port) s = execLinkDown port s := rfl
@[simp] theorem exec_linkUp (port : Nat) (s : State) : exec (.linkUp port) s = execLinkUp port s := rfl
@[simp] theorem exec_portEnable (port : Nat) (s : State) : exec (.portEnable port) s = execPortEnable port s := rfl
@[simp] theorem exec_moduleLost (module : Nat) (s : State) : exec (.moduleLost module) s = execModuleLost module s := rfl
@[simp] theorem exec_rollback (s : State) : exec .rollback s = execRollback s := rfl
@[simp] theorem exec_checkpointTimer (s : State) : exec .checkpointTimer s = execCheckpointTimer s := rfl
@[simp] theorem exec_cut (n : Nat) (s : State) : exec (.cut n) s = execCut n s := rfl
@[simp] theorem exec_ready (s : State) : exec .ready s = execReady s := rfl
@[simp] theorem exec_go (s : State) : exec .go s = execGo s := rfl
@[simp] theorem exec_commit (n : Nat) (s : State) : exec (.commit n) s = execCommit n s := rfl
@[simp] theorem exec_powerOn (s : State) : exec .powerOn s = execPowerOn s := rfl
@[simp] theorem exec_hostColdStart (s : State) : exec .hostColdStart s = execHostColdStart s := rfl
@[simp] theorem exec_hostWarmStart (s : State) : exec .hostWarmStart s = execHostWarmStart s := rfl
@[simp] theorem exec_monitorWarmStart (s : State) : exec .monitorWarmStart s = execMonitorWarmStart s := rfl
@[simp] theorem exec_firmwareImageWrite (value : BitVec 64) (s : State) : exec (.firmwareImageWrite value) s = execFirmwareImageWrite value s := rfl
@[simp] theorem exec_getVersion (s : State) : exec .getVersion s = execGetVersion s := rfl
@[simp] theorem exec_getCapabilities (s : State) : exec .getCapabilities s = execGetCapabilities s := rfl
@[simp] theorem exec_negotiateAlgorithms (asym : Nat) (hash : Nat) (s : State) : exec (.negotiateAlgorithms asym hash) s = execNegotiateAlgorithms asym hash s := rfl
@[simp] theorem exec_getDigests (s : State) : exec .getDigests s = execGetDigests s := rfl
@[simp] theorem exec_getCertificate (slot : Nat) (s : State) : exec (.getCertificate slot) s = execGetCertificate slot s := rfl
@[simp] theorem exec_challenge (nonce : Nat) (s : State) : exec (.challenge nonce) s = execChallenge nonce s := rfl
@[simp] theorem exec_getMeasurements (index : Nat) (s : State) : exec (.getMeasurements index) s = execGetMeasurements index s := rfl
@[simp] theorem exec_thermalThrottle (die : Nat) (s : State) : exec (.thermalThrottle die) s = execThermalThrottle die s := rfl
@[simp] theorem exec_thermalShutdown (die : Nat) (s : State) : exec (.thermalShutdown die) s = execThermalShutdown die s := rfl
@[simp] theorem exec_powerLimitThrottle (s : State) : exec .powerLimitThrottle s = execPowerLimitThrottle s := rfl
@[simp] theorem exec_checkpointCopyComplete (module : Nat) (s : State) : exec (.checkpointCopyComplete module) s = execCheckpointCopyComplete module s := rfl
@[simp] theorem exec_residentCoreAccess (hart : Nat) (q : HartReq) (s : State) : exec (.residentCoreAccess hart q) s = execResidentCoreAccess hart q s := rfl
@[simp] theorem exec_satpWrite (hart : Nat) (guest : Bool) (value : BitVec 64) (s : State) : exec (.satpWrite hart guest value) s = execSatpWrite hart guest value s := rfl
@[simp] theorem exec_powerLimitRelease (s : State) : exec .powerLimitRelease s = execPowerLimitRelease s := rfl
@[simp] theorem exec_hypervisorReenable (die : Nat) (tenant : Nat) (s : State) : exec (.hypervisorReenable die tenant) s = execHypervisorReenable die tenant s := rfl

end Sys2Proof.Machine
end

