-- ==== Sys2Proof/Laws/Memory.lean ====
section
/-!
SUPPORT. Laws of sparse tables and of memory: reading after writing, and the canonical form, which every operation on
memory keeps.
-/

namespace Sys2Proof.Machine

/-! ### Tables -/

@[simp] theorem SMap.find_put_same {α : Type} (m : SMap α) (k : Nat) (v : α) : SMap.find (SMap.put m k v) k = some v := by
  induction m with
  | nil => simp [SMap.put, SMap.find]
  | cons p t ih =>
    obtain ⟨j, x⟩ := p
    simp only [SMap.put]
    split
    · simp [SMap.find]
    · split
      · simp [SMap.find]
      · simp_all [SMap.find]

theorem SMap.find_put_other {α : Type} (m : SMap α) {k l : Nat} (v : α) (h : l ≠ k) :
    SMap.find (SMap.put m k v) l = SMap.find m l := by
  induction m with
  | nil => simp [SMap.put, SMap.find, Ne.symm h]
  | cons p t ih =>
    obtain ⟨j, x⟩ := p
    simp only [SMap.put]
    split
    · subst j; simp [SMap.find, Ne.symm h]
    · split
      · simp [SMap.find, Ne.symm h]
      · by_cases hj : j = l <;> simp_all [SMap.find]

@[simp] theorem SMap.find_erase_same {α : Type} (m : SMap α) (k : Nat) : SMap.find (SMap.erase m k) k = none := by
  induction m with
  | nil => rfl
  | cons p t ih =>
    obtain ⟨j, x⟩ := p
    by_cases hj : j = k <;> simp_all [SMap.erase, SMap.find]

theorem SMap.find_erase_other {α : Type} (m : SMap α) {k l : Nat} (h : l ≠ k) :
    SMap.find (SMap.erase m k) l = SMap.find m l := by
  induction m with
  | nil => rfl
  | cons p t ih =>
    obtain ⟨j, x⟩ := p
    by_cases hj : j = k
    · subst j; simp_all [SMap.erase, SMap.find, Ne.symm h]
    · by_cases hl : j = l <;> simp_all [SMap.erase, SMap.find]

@[simp] theorem SMap.getD_setD_same {α : Type} [DecidableEq α] (m : SMap α) (k : Nat) (v d : α) :
    SMap.getD (SMap.setD m k v d) k d = v := by
  by_cases hv : v = d <;> simp [SMap.setD, SMap.getD, hv]

theorem SMap.getD_setD_other {α : Type} [DecidableEq α] (m : SMap α) {k l : Nat} (v d e : α) (h : l ≠ k) :
    SMap.getD (SMap.setD m k v d) l e = SMap.getD m l e := by
  by_cases hv : v = d <;> simp [SMap.setD, SMap.getD, hv, SMap.find_put_other _ _ h, SMap.find_erase_other _ h]

@[simp] theorem SMap.getD_put_same {α : Type} (m : SMap α) (k : Nat) (v d : α) : SMap.getD (SMap.put m k v) k d = v := by
  simp [SMap.getD]

theorem SMap.getD_put_other {α : Type} (m : SMap α) {k l : Nat} (v d : α) (h : l ≠ k) :
    SMap.getD (SMap.put m k v) l d = SMap.getD m l d := by
  simp [SMap.getD, SMap.find_put_other _ _ h]

/-! ### Memory -/

@[simp] theorem Memory.read_write_same (m : Memory) (a : Nat) (b : Byte) : Memory.read (Memory.write m a b) a = b := by
  simp [Memory.read, Memory.write]

theorem Memory.read_write_other (m : Memory) {a c : Nat} (b : Byte) (h : c ≠ a) :
    Memory.read (Memory.write m a b) c = Memory.read m c := by
  simp [Memory.read, Memory.write, SMap.getD_setD_other _ _ _ _ h]

/-- Every address of a list lies above a bound. -/
def Memory.above (n : Nat) (m : Memory) : Prop := ∀ p ∈ m, n < p.1

theorem Memory.wf_cons (a : Nat) (b : Byte) (t : Memory) :
    Memory.wf ((a, b) :: t) = true ↔ b ≠ unlisted a ∧ Memory.above a t ∧ Memory.wf t = true := by
  induction t generalizing a b with
  | nil => simp [Memory.wf, Memory.above]
  | cons p t ih =>
    obtain ⟨c, d⟩ := p
    have h := ih c d
    simp only [Memory.wf, Bool.and_eq_true, bne_iff_ne, ne_eq, decide_eq_true_eq, Memory.above, List.forall_mem_cons, h]
    constructor
    · rintro ⟨⟨hb, hac⟩, hd, hat, hw⟩
      exact ⟨hb, ⟨hac, fun p hp => by have := hat p hp; omega⟩, hd, hat, hw⟩
    · rintro ⟨hb, ⟨hac, _⟩, hd, hat, hw⟩
      exact ⟨⟨hb, hac⟩, hd, hat, hw⟩

theorem Memory.above_put (m : Memory) (n a : Nat) (b : Byte) (h : Memory.above n m) (ha : n < a) :
    Memory.above n (SMap.put m a b) := by
  induction m with
  | nil => simp [SMap.put, Memory.above, ha]
  | cons p t ih =>
    obtain ⟨j, x⟩ := p
    simp only [Memory.above, List.forall_mem_cons] at h
    simp only [SMap.put]
    split
    · simp only [Memory.above, List.forall_mem_cons]; exact ⟨ha, h.2⟩
    · split
      · simp only [Memory.above, List.forall_mem_cons]; exact ⟨ha, h.1, h.2⟩
      · simp only [Memory.above, List.forall_mem_cons]; exact ⟨h.1, ih h.2⟩

theorem Memory.above_erase (m : Memory) (n a : Nat) (h : Memory.above n m) : Memory.above n (SMap.erase m a) := by
  induction m with
  | nil => simp [SMap.erase, Memory.above]
  | cons p t ih =>
    obtain ⟨j, x⟩ := p
    simp only [Memory.above, List.forall_mem_cons] at h
    simp only [SMap.erase]
    split
    · exact ih h.2
    · simp only [Memory.above, List.forall_mem_cons]; exact ⟨h.1, ih h.2⟩

theorem Memory.wf_put (m : Memory) (a : Nat) (b : Byte) (hb : b ≠ unlisted a) (h : Memory.wf m = true) :
    Memory.wf (SMap.put m a b) = true := by
  induction m with
  | nil => simpa [SMap.put, Memory.wf] using hb
  | cons p t ih =>
    obtain ⟨j, x⟩ := p
    rw [Memory.wf_cons] at h
    simp only [SMap.put]
    split
    · rename_i h1
      rw [Memory.wf_cons]; subst h1; exact ⟨hb, h.2.1, h.2.2⟩
    · split
      · rename_i h1 h2
        rw [Memory.wf_cons, Memory.wf_cons]
        refine ⟨hb, ?_, h.1, h.2.1, h.2.2⟩
        simp only [Memory.above, List.forall_mem_cons]
        exact ⟨h2, fun p hp => by have := h.2.1 p hp; omega⟩
      · rename_i h1 h2
        rw [Memory.wf_cons]
        exact ⟨h.1, Memory.above_put _ _ _ _ h.2.1 (by omega), ih h.2.2⟩

theorem Memory.wf_erase (m : Memory) (a : Nat) (h : Memory.wf m = true) : Memory.wf (SMap.erase m a) = true := by
  induction m with
  | nil => simp [SMap.erase, Memory.wf]
  | cons p t ih =>
    obtain ⟨j, x⟩ := p
    rw [Memory.wf_cons] at h
    simp only [SMap.erase]
    split
    · exact ih h.2.2
    · rw [Memory.wf_cons]; exact ⟨h.1, Memory.above_erase _ _ _ h.2.1, ih h.2.2⟩

/-- A byte's write keeps the canonical form. -/
theorem Memory.wf_write (m : Memory) (a : Nat) (b : Byte) (h : Memory.wf m = true) : Memory.wf (Memory.write m a b) = true := by
  unfold Memory.write SMap.setD
  split
  · exact Memory.wf_erase m a h
  · rename_i hb; exact Memory.wf_put m a b hb h

theorem Memory.wf_writeBytes (bs : List Byte) (m : Memory) (a : Nat) (h : Memory.wf m = true) :
    Memory.wf (Memory.writeBytes m a bs) = true := by
  induction bs generalizing m a with
  | nil => exact h
  | cons b t ih => exact ih _ _ (Memory.wf_write m a b h)

theorem Memory.wf_writeNat (m : Memory) (a n v : Nat) (h : Memory.wf m = true) : Memory.wf (Memory.writeNat m a n v) = true :=
  Memory.wf_writeBytes _ m a h

theorem Memory.wf_apply (bs : List ByteWrite) (m : Memory) (h : Memory.wf m = true) : Memory.wf (Memory.apply m bs) = true := by
  unfold Memory.apply
  induction bs generalizing m with
  | nil => exact h
  | cons b t ih => exact ih _ (Memory.wf_write m _ _ h)

/-- Dropping entries keeps the canonical form. -/
theorem Memory.wf_filter (f : Host.Cell → Bool) (m : Memory) (h : Memory.wf m = true) : Memory.wf (m.filter f) = true := by
  induction m with
  | nil => simp [Memory.wf]
  | cons p t ih =>
    obtain ⟨j, x⟩ := p
    rw [Memory.wf_cons] at h
    simp only [List.filter_cons]
    split
    · rw [Memory.wf_cons]
      exact ⟨h.1, fun q hq => h.2.1 q (List.mem_filter.mp hq).1, ih h.2.2⟩
    · exact ih h.2.2

theorem Memory.wf_clear (m : Memory) (lo hi : Nat) (h : Memory.wf m = true) : Memory.wf (Memory.clear m lo hi) = true :=
  Memory.wf_filter _ m h

end Sys2Proof.Machine
end

