-- ==== Sys2Proof/Laws/State.lean ====
section
/-!
SUPPORT. What the updates of a state leave: one lemma for each field and update, and what the shared operations on parts
come to.
-/

namespace Sys2Proof.Machine

/-! ### setCrew -/

@[simp] theorem State.setCrew_crews (s : State) (c : Nat) (x : Crew) : (s.setCrew c x).crews = SMap.put s.crews c x := rfl
@[simp] theorem State.setCrew_mem (s : State) (c : Nat) (x : Crew) : (s.setCrew c x).mem = s.mem := rfl
@[simp] theorem State.setCrew_cores (s : State) (c : Nat) (x : Crew) : (s.setCrew c x).cores = s.cores := rfl
@[simp] theorem State.setCrew_clusters (s : State) (c : Nat) (x : Crew) : (s.setCrew c x).clusters = s.clusters := rfl
@[simp] theorem State.setCrew_dies (s : State) (c : Nat) (x : Crew) : (s.setCrew c x).dies = s.dies := rfl
@[simp] theorem State.setCrew_fills (s : State) (c : Nat) (x : Crew) : (s.setCrew c x).fills = s.fills := rfl
@[simp] theorem State.setCrew_tlb (s : State) (c : Nat) (x : Crew) : (s.setCrew c x).tlb = s.tlb := rfl
@[simp] theorem State.setCrew_descs (s : State) (c : Nat) (x : Crew) : (s.setCrew c x).descs = s.descs := rfl
@[simp] theorem State.setCrew_dir (s : State) (c : Nat) (x : Crew) : (s.setCrew c x).dir = s.dir := rfl
@[simp] theorem State.setCrew_wsTags (s : State) (c : Nat) (x : Crew) : (s.setCrew c x).wsTags = s.wsTags := rfl
@[simp] theorem State.setCrew_hsctl (s : State) (c : Nat) (x : Crew) : (s.setCrew c x).hsctl = s.hsctl := rfl
@[simp] theorem State.setCrew_hswm (s : State) (c : Nat) (x : Crew) : (s.setCrew c x).hswm = s.hswm := rfl
@[simp] theorem State.setCrew_hswsc (s : State) (c : Nat) (x : Crew) : (s.setCrew c x).hswsc = s.hswsc := rfl
@[simp] theorem State.setCrew_poisoned (s : State) (c : Nat) (x : Crew) : (s.setCrew c x).poisoned = s.poisoned := rfl
@[simp] theorem State.setCrew_home (s : State) (c : Nat) (x : Crew) : (s.setCrew c x).home = s.home := rfl
@[simp] theorem State.setCrew_counters (s : State) (c : Nat) (x : Crew) : (s.setCrew c x).counters = s.counters := rfl
@[simp] theorem State.setCrew_harts (s : State) (c : Nat) (x : Crew) : (s.setCrew c x).harts = s.harts := rfl
@[simp] theorem State.setCrew_clock (s : State) (c : Nat) (x : Crew) : (s.setCrew c x).clock = s.clock := rfl
@[simp] theorem State.setCrew_nextCrew (s : State) (c : Nat) (x : Crew) : (s.setCrew c x).nextCrew = s.nextCrew := rfl
@[simp] theorem State.setCrew_nextCall (s : State) (c : Nat) (x : Crew) : (s.setCrew c x).nextCall = s.nextCall := rfl
@[simp] theorem State.setCrew_serial (s : State) (c : Nat) (x : Crew) : (s.setCrew c x).serial = s.serial := rfl
@[simp] theorem State.setCrew_ports (s : State) (c : Nat) (x : Crew) : (s.setCrew c x).ports = s.ports := rfl
@[simp] theorem State.setCrew_start (s : State) (c : Nat) (x : Crew) : (s.setCrew c x).start = s.start := rfl
@[simp] theorem State.setCrew_spdm (s : State) (c : Nat) (x : Crew) : (s.setCrew c x).spdm = s.spdm := rfl
@[simp] theorem State.setCrew_power (s : State) (c : Nat) (x : Crew) : (s.setCrew c x).power = s.power := rfl
@[simp] theorem State.setCrew_phase (s : State) (c : Nat) (x : Crew) : (s.setCrew c x).phase = s.phase := rfl
@[simp] theorem State.setCrew_cut (s : State) (c : Nat) (x : Crew) : (s.setCrew c x).cut = s.cut := rfl
@[simp] theorem State.setCrew_called (s : State) (c : Nat) (x : Crew) : (s.setCrew c x).called = s.called := rfl
@[simp] theorem State.setCrew_calledAt (s : State) (c : Nat) (x : Crew) : (s.setCrew c x).calledAt = s.calledAt := rfl
@[simp] theorem State.setCrew_frozenAt (s : State) (c : Nat) (x : Crew) : (s.setCrew c x).frozenAt = s.frozenAt := rfl
@[simp] theorem State.setCrew_copied (s : State) (c : Nat) (x : Crew) : (s.setCrew c x).copied = s.copied := rfl
@[simp] theorem State.setCrew_images (s : State) (c : Nat) (x : Crew) : (s.setCrew c x).images = s.images := rfl
@[simp] theorem State.setCrew_agenda (s : State) (c : Nat) (x : Crew) : (s.setCrew c x).agenda = s.agenda := rfl
@[simp] theorem State.setCrew_cur (s : State) (c : Nat) (x : Crew) : (s.setCrew c x).cur = s.cur := rfl
@[simp] theorem State.setCrew_late (s : State) (c : Nat) (x : Crew) : (s.setCrew c x).late = s.late := rfl
@[simp] theorem State.setCrew_free (s : State) (c : Nat) (x : Crew) : (s.setCrew c x).free = s.free := rfl

/-! ### setCore -/

@[simp] theorem State.setCore_cores (s : State) (n : Nat) (x : CoreState) : (s.setCore n x).cores = SMap.put s.cores n x := rfl
@[simp] theorem State.setCore_mem (s : State) (n : Nat) (x : CoreState) : (s.setCore n x).mem = s.mem := rfl
@[simp] theorem State.setCore_crews (s : State) (n : Nat) (x : CoreState) : (s.setCore n x).crews = s.crews := rfl
@[simp] theorem State.setCore_clusters (s : State) (n : Nat) (x : CoreState) : (s.setCore n x).clusters = s.clusters := rfl
@[simp] theorem State.setCore_dies (s : State) (n : Nat) (x : CoreState) : (s.setCore n x).dies = s.dies := rfl
@[simp] theorem State.setCore_fills (s : State) (n : Nat) (x : CoreState) : (s.setCore n x).fills = s.fills := rfl
@[simp] theorem State.setCore_tlb (s : State) (n : Nat) (x : CoreState) : (s.setCore n x).tlb = s.tlb := rfl
@[simp] theorem State.setCore_descs (s : State) (n : Nat) (x : CoreState) : (s.setCore n x).descs = s.descs := rfl
@[simp] theorem State.setCore_dir (s : State) (n : Nat) (x : CoreState) : (s.setCore n x).dir = s.dir := rfl
@[simp] theorem State.setCore_wsTags (s : State) (n : Nat) (x : CoreState) : (s.setCore n x).wsTags = s.wsTags := rfl
@[simp] theorem State.setCore_hsctl (s : State) (n : Nat) (x : CoreState) : (s.setCore n x).hsctl = s.hsctl := rfl
@[simp] theorem State.setCore_hswm (s : State) (n : Nat) (x : CoreState) : (s.setCore n x).hswm = s.hswm := rfl
@[simp] theorem State.setCore_hswsc (s : State) (n : Nat) (x : CoreState) : (s.setCore n x).hswsc = s.hswsc := rfl
@[simp] theorem State.setCore_poisoned (s : State) (n : Nat) (x : CoreState) : (s.setCore n x).poisoned = s.poisoned := rfl
@[simp] theorem State.setCore_home (s : State) (n : Nat) (x : CoreState) : (s.setCore n x).home = s.home := rfl
@[simp] theorem State.setCore_counters (s : State) (n : Nat) (x : CoreState) : (s.setCore n x).counters = s.counters := rfl
@[simp] theorem State.setCore_harts (s : State) (n : Nat) (x : CoreState) : (s.setCore n x).harts = s.harts := rfl
@[simp] theorem State.setCore_clock (s : State) (n : Nat) (x : CoreState) : (s.setCore n x).clock = s.clock := rfl
@[simp] theorem State.setCore_nextCrew (s : State) (n : Nat) (x : CoreState) : (s.setCore n x).nextCrew = s.nextCrew := rfl
@[simp] theorem State.setCore_nextCall (s : State) (n : Nat) (x : CoreState) : (s.setCore n x).nextCall = s.nextCall := rfl
@[simp] theorem State.setCore_serial (s : State) (n : Nat) (x : CoreState) : (s.setCore n x).serial = s.serial := rfl
@[simp] theorem State.setCore_ports (s : State) (n : Nat) (x : CoreState) : (s.setCore n x).ports = s.ports := rfl
@[simp] theorem State.setCore_start (s : State) (n : Nat) (x : CoreState) : (s.setCore n x).start = s.start := rfl
@[simp] theorem State.setCore_spdm (s : State) (n : Nat) (x : CoreState) : (s.setCore n x).spdm = s.spdm := rfl
@[simp] theorem State.setCore_power (s : State) (n : Nat) (x : CoreState) : (s.setCore n x).power = s.power := rfl
@[simp] theorem State.setCore_phase (s : State) (n : Nat) (x : CoreState) : (s.setCore n x).phase = s.phase := rfl
@[simp] theorem State.setCore_cut (s : State) (n : Nat) (x : CoreState) : (s.setCore n x).cut = s.cut := rfl
@[simp] theorem State.setCore_called (s : State) (n : Nat) (x : CoreState) : (s.setCore n x).called = s.called := rfl
@[simp] theorem State.setCore_calledAt (s : State) (n : Nat) (x : CoreState) : (s.setCore n x).calledAt = s.calledAt := rfl
@[simp] theorem State.setCore_frozenAt (s : State) (n : Nat) (x : CoreState) : (s.setCore n x).frozenAt = s.frozenAt := rfl
@[simp] theorem State.setCore_copied (s : State) (n : Nat) (x : CoreState) : (s.setCore n x).copied = s.copied := rfl
@[simp] theorem State.setCore_images (s : State) (n : Nat) (x : CoreState) : (s.setCore n x).images = s.images := rfl
@[simp] theorem State.setCore_agenda (s : State) (n : Nat) (x : CoreState) : (s.setCore n x).agenda = s.agenda := rfl
@[simp] theorem State.setCore_cur (s : State) (n : Nat) (x : CoreState) : (s.setCore n x).cur = s.cur := rfl
@[simp] theorem State.setCore_late (s : State) (n : Nat) (x : CoreState) : (s.setCore n x).late = s.late := rfl
@[simp] theorem State.setCore_free (s : State) (n : Nat) (x : CoreState) : (s.setCore n x).free = s.free := rfl

/-! ### setCluster -/

@[simp] theorem State.setCluster_clusters (s : State) (n : Nat) (x : Cluster) : (s.setCluster n x).clusters = SMap.put s.clusters n x := rfl
@[simp] theorem State.setCluster_mem (s : State) (n : Nat) (x : Cluster) : (s.setCluster n x).mem = s.mem := rfl
@[simp] theorem State.setCluster_crews (s : State) (n : Nat) (x : Cluster) : (s.setCluster n x).crews = s.crews := rfl
@[simp] theorem State.setCluster_cores (s : State) (n : Nat) (x : Cluster) : (s.setCluster n x).cores = s.cores := rfl
@[simp] theorem State.setCluster_dies (s : State) (n : Nat) (x : Cluster) : (s.setCluster n x).dies = s.dies := rfl
@[simp] theorem State.setCluster_fills (s : State) (n : Nat) (x : Cluster) : (s.setCluster n x).fills = s.fills := rfl
@[simp] theorem State.setCluster_tlb (s : State) (n : Nat) (x : Cluster) : (s.setCluster n x).tlb = s.tlb := rfl
@[simp] theorem State.setCluster_descs (s : State) (n : Nat) (x : Cluster) : (s.setCluster n x).descs = s.descs := rfl
@[simp] theorem State.setCluster_dir (s : State) (n : Nat) (x : Cluster) : (s.setCluster n x).dir = s.dir := rfl
@[simp] theorem State.setCluster_wsTags (s : State) (n : Nat) (x : Cluster) : (s.setCluster n x).wsTags = s.wsTags := rfl
@[simp] theorem State.setCluster_hsctl (s : State) (n : Nat) (x : Cluster) : (s.setCluster n x).hsctl = s.hsctl := rfl
@[simp] theorem State.setCluster_hswm (s : State) (n : Nat) (x : Cluster) : (s.setCluster n x).hswm = s.hswm := rfl
@[simp] theorem State.setCluster_hswsc (s : State) (n : Nat) (x : Cluster) : (s.setCluster n x).hswsc = s.hswsc := rfl
@[simp] theorem State.setCluster_poisoned (s : State) (n : Nat) (x : Cluster) : (s.setCluster n x).poisoned = s.poisoned := rfl
@[simp] theorem State.setCluster_home (s : State) (n : Nat) (x : Cluster) : (s.setCluster n x).home = s.home := rfl
@[simp] theorem State.setCluster_counters (s : State) (n : Nat) (x : Cluster) : (s.setCluster n x).counters = s.counters := rfl
@[simp] theorem State.setCluster_harts (s : State) (n : Nat) (x : Cluster) : (s.setCluster n x).harts = s.harts := rfl
@[simp] theorem State.setCluster_clock (s : State) (n : Nat) (x : Cluster) : (s.setCluster n x).clock = s.clock := rfl
@[simp] theorem State.setCluster_nextCrew (s : State) (n : Nat) (x : Cluster) : (s.setCluster n x).nextCrew = s.nextCrew := rfl
@[simp] theorem State.setCluster_nextCall (s : State) (n : Nat) (x : Cluster) : (s.setCluster n x).nextCall = s.nextCall := rfl
@[simp] theorem State.setCluster_serial (s : State) (n : Nat) (x : Cluster) : (s.setCluster n x).serial = s.serial := rfl
@[simp] theorem State.setCluster_ports (s : State) (n : Nat) (x : Cluster) : (s.setCluster n x).ports = s.ports := rfl
@[simp] theorem State.setCluster_start (s : State) (n : Nat) (x : Cluster) : (s.setCluster n x).start = s.start := rfl
@[simp] theorem State.setCluster_spdm (s : State) (n : Nat) (x : Cluster) : (s.setCluster n x).spdm = s.spdm := rfl
@[simp] theorem State.setCluster_power (s : State) (n : Nat) (x : Cluster) : (s.setCluster n x).power = s.power := rfl
@[simp] theorem State.setCluster_phase (s : State) (n : Nat) (x : Cluster) : (s.setCluster n x).phase = s.phase := rfl
@[simp] theorem State.setCluster_cut (s : State) (n : Nat) (x : Cluster) : (s.setCluster n x).cut = s.cut := rfl
@[simp] theorem State.setCluster_called (s : State) (n : Nat) (x : Cluster) : (s.setCluster n x).called = s.called := rfl
@[simp] theorem State.setCluster_calledAt (s : State) (n : Nat) (x : Cluster) : (s.setCluster n x).calledAt = s.calledAt := rfl
@[simp] theorem State.setCluster_frozenAt (s : State) (n : Nat) (x : Cluster) : (s.setCluster n x).frozenAt = s.frozenAt := rfl
@[simp] theorem State.setCluster_copied (s : State) (n : Nat) (x : Cluster) : (s.setCluster n x).copied = s.copied := rfl
@[simp] theorem State.setCluster_images (s : State) (n : Nat) (x : Cluster) : (s.setCluster n x).images = s.images := rfl
@[simp] theorem State.setCluster_agenda (s : State) (n : Nat) (x : Cluster) : (s.setCluster n x).agenda = s.agenda := rfl
@[simp] theorem State.setCluster_cur (s : State) (n : Nat) (x : Cluster) : (s.setCluster n x).cur = s.cur := rfl
@[simp] theorem State.setCluster_late (s : State) (n : Nat) (x : Cluster) : (s.setCluster n x).late = s.late := rfl
@[simp] theorem State.setCluster_free (s : State) (n : Nat) (x : Cluster) : (s.setCluster n x).free = s.free := rfl

/-! ### setDie -/

@[simp] theorem State.setDie_dies (s : State) (n : Nat) (x : Die) : (s.setDie n x).dies = SMap.put s.dies n x := rfl
@[simp] theorem State.setDie_mem (s : State) (n : Nat) (x : Die) : (s.setDie n x).mem = s.mem := rfl
@[simp] theorem State.setDie_crews (s : State) (n : Nat) (x : Die) : (s.setDie n x).crews = s.crews := rfl
@[simp] theorem State.setDie_cores (s : State) (n : Nat) (x : Die) : (s.setDie n x).cores = s.cores := rfl
@[simp] theorem State.setDie_clusters (s : State) (n : Nat) (x : Die) : (s.setDie n x).clusters = s.clusters := rfl
@[simp] theorem State.setDie_fills (s : State) (n : Nat) (x : Die) : (s.setDie n x).fills = s.fills := rfl
@[simp] theorem State.setDie_tlb (s : State) (n : Nat) (x : Die) : (s.setDie n x).tlb = s.tlb := rfl
@[simp] theorem State.setDie_descs (s : State) (n : Nat) (x : Die) : (s.setDie n x).descs = s.descs := rfl
@[simp] theorem State.setDie_dir (s : State) (n : Nat) (x : Die) : (s.setDie n x).dir = s.dir := rfl
@[simp] theorem State.setDie_wsTags (s : State) (n : Nat) (x : Die) : (s.setDie n x).wsTags = s.wsTags := rfl
@[simp] theorem State.setDie_hsctl (s : State) (n : Nat) (x : Die) : (s.setDie n x).hsctl = s.hsctl := rfl
@[simp] theorem State.setDie_hswm (s : State) (n : Nat) (x : Die) : (s.setDie n x).hswm = s.hswm := rfl
@[simp] theorem State.setDie_hswsc (s : State) (n : Nat) (x : Die) : (s.setDie n x).hswsc = s.hswsc := rfl
@[simp] theorem State.setDie_poisoned (s : State) (n : Nat) (x : Die) : (s.setDie n x).poisoned = s.poisoned := rfl
@[simp] theorem State.setDie_home (s : State) (n : Nat) (x : Die) : (s.setDie n x).home = s.home := rfl
@[simp] theorem State.setDie_counters (s : State) (n : Nat) (x : Die) : (s.setDie n x).counters = s.counters := rfl
@[simp] theorem State.setDie_harts (s : State) (n : Nat) (x : Die) : (s.setDie n x).harts = s.harts := rfl
@[simp] theorem State.setDie_clock (s : State) (n : Nat) (x : Die) : (s.setDie n x).clock = s.clock := rfl
@[simp] theorem State.setDie_nextCrew (s : State) (n : Nat) (x : Die) : (s.setDie n x).nextCrew = s.nextCrew := rfl
@[simp] theorem State.setDie_nextCall (s : State) (n : Nat) (x : Die) : (s.setDie n x).nextCall = s.nextCall := rfl
@[simp] theorem State.setDie_serial (s : State) (n : Nat) (x : Die) : (s.setDie n x).serial = s.serial := rfl
@[simp] theorem State.setDie_ports (s : State) (n : Nat) (x : Die) : (s.setDie n x).ports = s.ports := rfl
@[simp] theorem State.setDie_start (s : State) (n : Nat) (x : Die) : (s.setDie n x).start = s.start := rfl
@[simp] theorem State.setDie_spdm (s : State) (n : Nat) (x : Die) : (s.setDie n x).spdm = s.spdm := rfl
@[simp] theorem State.setDie_power (s : State) (n : Nat) (x : Die) : (s.setDie n x).power = s.power := rfl
@[simp] theorem State.setDie_phase (s : State) (n : Nat) (x : Die) : (s.setDie n x).phase = s.phase := rfl
@[simp] theorem State.setDie_cut (s : State) (n : Nat) (x : Die) : (s.setDie n x).cut = s.cut := rfl
@[simp] theorem State.setDie_called (s : State) (n : Nat) (x : Die) : (s.setDie n x).called = s.called := rfl
@[simp] theorem State.setDie_calledAt (s : State) (n : Nat) (x : Die) : (s.setDie n x).calledAt = s.calledAt := rfl
@[simp] theorem State.setDie_frozenAt (s : State) (n : Nat) (x : Die) : (s.setDie n x).frozenAt = s.frozenAt := rfl
@[simp] theorem State.setDie_copied (s : State) (n : Nat) (x : Die) : (s.setDie n x).copied = s.copied := rfl
@[simp] theorem State.setDie_images (s : State) (n : Nat) (x : Die) : (s.setDie n x).images = s.images := rfl
@[simp] theorem State.setDie_agenda (s : State) (n : Nat) (x : Die) : (s.setDie n x).agenda = s.agenda := rfl
@[simp] theorem State.setDie_cur (s : State) (n : Nat) (x : Die) : (s.setDie n x).cur = s.cur := rfl
@[simp] theorem State.setDie_late (s : State) (n : Nat) (x : Die) : (s.setDie n x).late = s.late := rfl
@[simp] theorem State.setDie_free (s : State) (n : Nat) (x : Die) : (s.setDie n x).free = s.free := rfl

/-! ### setHart -/

@[simp] theorem State.setHart_harts (s : State) (n : Nat) (x : Hart) : (s.setHart n x).harts = SMap.put s.harts n x := rfl
@[simp] theorem State.setHart_mem (s : State) (n : Nat) (x : Hart) : (s.setHart n x).mem = s.mem := rfl
@[simp] theorem State.setHart_crews (s : State) (n : Nat) (x : Hart) : (s.setHart n x).crews = s.crews := rfl
@[simp] theorem State.setHart_cores (s : State) (n : Nat) (x : Hart) : (s.setHart n x).cores = s.cores := rfl
@[simp] theorem State.setHart_clusters (s : State) (n : Nat) (x : Hart) : (s.setHart n x).clusters = s.clusters := rfl
@[simp] theorem State.setHart_dies (s : State) (n : Nat) (x : Hart) : (s.setHart n x).dies = s.dies := rfl
@[simp] theorem State.setHart_fills (s : State) (n : Nat) (x : Hart) : (s.setHart n x).fills = s.fills := rfl
@[simp] theorem State.setHart_tlb (s : State) (n : Nat) (x : Hart) : (s.setHart n x).tlb = s.tlb := rfl
@[simp] theorem State.setHart_descs (s : State) (n : Nat) (x : Hart) : (s.setHart n x).descs = s.descs := rfl
@[simp] theorem State.setHart_dir (s : State) (n : Nat) (x : Hart) : (s.setHart n x).dir = s.dir := rfl
@[simp] theorem State.setHart_wsTags (s : State) (n : Nat) (x : Hart) : (s.setHart n x).wsTags = s.wsTags := rfl
@[simp] theorem State.setHart_hsctl (s : State) (n : Nat) (x : Hart) : (s.setHart n x).hsctl = s.hsctl := rfl
@[simp] theorem State.setHart_hswm (s : State) (n : Nat) (x : Hart) : (s.setHart n x).hswm = s.hswm := rfl
@[simp] theorem State.setHart_hswsc (s : State) (n : Nat) (x : Hart) : (s.setHart n x).hswsc = s.hswsc := rfl
@[simp] theorem State.setHart_poisoned (s : State) (n : Nat) (x : Hart) : (s.setHart n x).poisoned = s.poisoned := rfl
@[simp] theorem State.setHart_home (s : State) (n : Nat) (x : Hart) : (s.setHart n x).home = s.home := rfl
@[simp] theorem State.setHart_counters (s : State) (n : Nat) (x : Hart) : (s.setHart n x).counters = s.counters := rfl
@[simp] theorem State.setHart_clock (s : State) (n : Nat) (x : Hart) : (s.setHart n x).clock = s.clock := rfl
@[simp] theorem State.setHart_nextCrew (s : State) (n : Nat) (x : Hart) : (s.setHart n x).nextCrew = s.nextCrew := rfl
@[simp] theorem State.setHart_nextCall (s : State) (n : Nat) (x : Hart) : (s.setHart n x).nextCall = s.nextCall := rfl
@[simp] theorem State.setHart_serial (s : State) (n : Nat) (x : Hart) : (s.setHart n x).serial = s.serial := rfl
@[simp] theorem State.setHart_ports (s : State) (n : Nat) (x : Hart) : (s.setHart n x).ports = s.ports := rfl
@[simp] theorem State.setHart_start (s : State) (n : Nat) (x : Hart) : (s.setHart n x).start = s.start := rfl
@[simp] theorem State.setHart_spdm (s : State) (n : Nat) (x : Hart) : (s.setHart n x).spdm = s.spdm := rfl
@[simp] theorem State.setHart_power (s : State) (n : Nat) (x : Hart) : (s.setHart n x).power = s.power := rfl
@[simp] theorem State.setHart_phase (s : State) (n : Nat) (x : Hart) : (s.setHart n x).phase = s.phase := rfl
@[simp] theorem State.setHart_cut (s : State) (n : Nat) (x : Hart) : (s.setHart n x).cut = s.cut := rfl
@[simp] theorem State.setHart_called (s : State) (n : Nat) (x : Hart) : (s.setHart n x).called = s.called := rfl
@[simp] theorem State.setHart_calledAt (s : State) (n : Nat) (x : Hart) : (s.setHart n x).calledAt = s.calledAt := rfl
@[simp] theorem State.setHart_frozenAt (s : State) (n : Nat) (x : Hart) : (s.setHart n x).frozenAt = s.frozenAt := rfl
@[simp] theorem State.setHart_copied (s : State) (n : Nat) (x : Hart) : (s.setHart n x).copied = s.copied := rfl
@[simp] theorem State.setHart_images (s : State) (n : Nat) (x : Hart) : (s.setHart n x).images = s.images := rfl
@[simp] theorem State.setHart_agenda (s : State) (n : Nat) (x : Hart) : (s.setHart n x).agenda = s.agenda := rfl
@[simp] theorem State.setHart_cur (s : State) (n : Nat) (x : Hart) : (s.setHart n x).cur = s.cur := rfl
@[simp] theorem State.setHart_late (s : State) (n : Nat) (x : Hart) : (s.setHart n x).late = s.late := rfl
@[simp] theorem State.setHart_free (s : State) (n : Nat) (x : Hart) : (s.setHart n x).free = s.free := rfl

/-! ### setGang -/

@[simp] theorem State.setGang_mem (s : State) (c g : Nat) (x : Gang) : (s.setGang c g x).mem = s.mem := by
  unfold State.setGang; split <;> rfl
@[simp] theorem State.setGang_cores (s : State) (c g : Nat) (x : Gang) : (s.setGang c g x).cores = s.cores := by
  unfold State.setGang; split <;> rfl
@[simp] theorem State.setGang_clusters (s : State) (c g : Nat) (x : Gang) : (s.setGang c g x).clusters = s.clusters := by
  unfold State.setGang; split <;> rfl
@[simp] theorem State.setGang_dies (s : State) (c g : Nat) (x : Gang) : (s.setGang c g x).dies = s.dies := by
  unfold State.setGang; split <;> rfl
@[simp] theorem State.setGang_fills (s : State) (c g : Nat) (x : Gang) : (s.setGang c g x).fills = s.fills := by
  unfold State.setGang; split <;> rfl
@[simp] theorem State.setGang_tlb (s : State) (c g : Nat) (x : Gang) : (s.setGang c g x).tlb = s.tlb := by
  unfold State.setGang; split <;> rfl
@[simp] theorem State.setGang_descs (s : State) (c g : Nat) (x : Gang) : (s.setGang c g x).descs = s.descs := by
  unfold State.setGang; split <;> rfl
@[simp] theorem State.setGang_dir (s : State) (c g : Nat) (x : Gang) : (s.setGang c g x).dir = s.dir := by
  unfold State.setGang; split <;> rfl
@[simp] theorem State.setGang_wsTags (s : State) (c g : Nat) (x : Gang) : (s.setGang c g x).wsTags = s.wsTags := by
  unfold State.setGang; split <;> rfl
@[simp] theorem State.setGang_hsctl (s : State) (c g : Nat) (x : Gang) : (s.setGang c g x).hsctl = s.hsctl := by
  unfold State.setGang; split <;> rfl
@[simp] theorem State.setGang_hswm (s : State) (c g : Nat) (x : Gang) : (s.setGang c g x).hswm = s.hswm := by
  unfold State.setGang; split <;> rfl
@[simp] theorem State.setGang_hswsc (s : State) (c g : Nat) (x : Gang) : (s.setGang c g x).hswsc = s.hswsc := by
  unfold State.setGang; split <;> rfl
@[simp] theorem State.setGang_poisoned (s : State) (c g : Nat) (x : Gang) : (s.setGang c g x).poisoned = s.poisoned := by
  unfold State.setGang; split <;> rfl
@[simp] theorem State.setGang_home (s : State) (c g : Nat) (x : Gang) : (s.setGang c g x).home = s.home := by
  unfold State.setGang; split <;> rfl
@[simp] theorem State.setGang_counters (s : State) (c g : Nat) (x : Gang) : (s.setGang c g x).counters = s.counters := by
  unfold State.setGang; split <;> rfl
@[simp] theorem State.setGang_harts (s : State) (c g : Nat) (x : Gang) : (s.setGang c g x).harts = s.harts := by
  unfold State.setGang; split <;> rfl
@[simp] theorem State.setGang_clock (s : State) (c g : Nat) (x : Gang) : (s.setGang c g x).clock = s.clock := by
  unfold State.setGang; split <;> rfl
@[simp] theorem State.setGang_nextCrew (s : State) (c g : Nat) (x : Gang) : (s.setGang c g x).nextCrew = s.nextCrew := by
  unfold State.setGang; split <;> rfl
@[simp] theorem State.setGang_nextCall (s : State) (c g : Nat) (x : Gang) : (s.setGang c g x).nextCall = s.nextCall := by
  unfold State.setGang; split <;> rfl
@[simp] theorem State.setGang_serial (s : State) (c g : Nat) (x : Gang) : (s.setGang c g x).serial = s.serial := by
  unfold State.setGang; split <;> rfl
@[simp] theorem State.setGang_ports (s : State) (c g : Nat) (x : Gang) : (s.setGang c g x).ports = s.ports := by
  unfold State.setGang; split <;> rfl
@[simp] theorem State.setGang_start (s : State) (c g : Nat) (x : Gang) : (s.setGang c g x).start = s.start := by
  unfold State.setGang; split <;> rfl
@[simp] theorem State.setGang_spdm (s : State) (c g : Nat) (x : Gang) : (s.setGang c g x).spdm = s.spdm := by
  unfold State.setGang; split <;> rfl
@[simp] theorem State.setGang_power (s : State) (c g : Nat) (x : Gang) : (s.setGang c g x).power = s.power := by
  unfold State.setGang; split <;> rfl
@[simp] theorem State.setGang_phase (s : State) (c g : Nat) (x : Gang) : (s.setGang c g x).phase = s.phase := by
  unfold State.setGang; split <;> rfl
@[simp] theorem State.setGang_cut (s : State) (c g : Nat) (x : Gang) : (s.setGang c g x).cut = s.cut := by
  unfold State.setGang; split <;> rfl
@[simp] theorem State.setGang_called (s : State) (c g : Nat) (x : Gang) : (s.setGang c g x).called = s.called := by
  unfold State.setGang; split <;> rfl
@[simp] theorem State.setGang_calledAt (s : State) (c g : Nat) (x : Gang) : (s.setGang c g x).calledAt = s.calledAt := by
  unfold State.setGang; split <;> rfl
@[simp] theorem State.setGang_frozenAt (s : State) (c g : Nat) (x : Gang) : (s.setGang c g x).frozenAt = s.frozenAt := by
  unfold State.setGang; split <;> rfl
@[simp] theorem State.setGang_copied (s : State) (c g : Nat) (x : Gang) : (s.setGang c g x).copied = s.copied := by
  unfold State.setGang; split <;> rfl
@[simp] theorem State.setGang_images (s : State) (c g : Nat) (x : Gang) : (s.setGang c g x).images = s.images := by
  unfold State.setGang; split <;> rfl
@[simp] theorem State.setGang_agenda (s : State) (c g : Nat) (x : Gang) : (s.setGang c g x).agenda = s.agenda := by
  unfold State.setGang; split <;> rfl
@[simp] theorem State.setGang_cur (s : State) (c g : Nat) (x : Gang) : (s.setGang c g x).cur = s.cur := by
  unfold State.setGang; split <;> rfl
@[simp] theorem State.setGang_late (s : State) (c g : Nat) (x : Gang) : (s.setGang c g x).late = s.late := by
  unfold State.setGang; split <;> rfl
@[simp] theorem State.setGang_free (s : State) (c g : Nat) (x : Gang) : (s.setGang c g x).free = s.free := by
  unfold State.setGang; split <;> rfl

/-! ### Reading after an update -/

@[simp] theorem State.crew_setCrew (s : State) (c : Nat) (x : Crew) : (s.setCrew c x).crew? c = some x := by
  simp [State.crew?]

theorem State.crew_setCrew_other (s : State) {c d : Nat} (x : Crew) (h : d ≠ c) : (s.setCrew c x).crew? d = s.crew? d := by
  simp [State.crew?, SMap.find_put_other _ _ h]

@[simp] theorem State.core_setCore (s : State) (n : Nat) (x : CoreState) : (s.setCore n x).core n = x := by
  simp [State.core]

@[simp] theorem State.cluster_setCluster (s : State) (n : Nat) (x : Cluster) : (s.setCluster n x).cluster n = x := by
  simp [State.cluster]

@[simp] theorem State.die_setDie (s : State) (n : Nat) (x : Die) : (s.setDie n x).die n = x := by
  simp [State.die]

@[simp] theorem State.hart_setHart (s : State) (n : Nat) (x : Hart) : (s.setHart n x).hart n = x := by
  simp [State.hart]

/-- A gang that exists reads back as it was stored. -/
theorem State.gang_setGang (s : State) (c g : Nat) (x y : Gang) (h : s.gang? c g = some y) : (s.setGang c g x).gang? c g = some x := by
  unfold State.gang? at h
  split at h
  · rename_i k hk
    simp [State.setGang, hk, State.gang?]
  · cases h

/-! ### Registers -/

/-- Writing a `v` register changes that register of that lane alone. -/
theorem Regs.getV_setV (x : Regs) (r lane : Nat) (a : W32) (q i : Nat) (hl : lane < 32) (hi : i < 32) :
    (x.setV r lane a).getV q i = if q = r ∧ i = lane then a else x.getV q i := by
  unfold Regs.getV Regs.setV
  split
  · rename_i h; rw [h.1, h.2]; simp
  · rename_i h
    apply SMap.getD_setD_other
    intro e; apply h; omega

/-- Writing an `s` register changes that register of that slice alone. -/
theorem Regs.getS_setS (x : Regs) (slice r : Nat) (a : W32) (k q : Nat) (hr : r < 64) (hq : q < 64) :
    (x.setS slice r a).getS k q = if q = r ∧ k = slice then a else x.getS k q := by
  unfold Regs.getS Regs.setS
  split
  · rename_i h; rw [h.1, h.2]; simp
  · rename_i h
    apply SMap.getD_setD_other
    intro e; apply h; omega

/-- Writing a `v` register in lanes. -/
theorem Regs.getV_writeV (d : Nat) (val : Nat → W32) (ls : List Nat) (hls : ∀ i ∈ ls, i < 32) (x : Regs) (q i : Nat) (hi : i < 32) :
    (x.writeV d val ls).getV q i = if q = d ∧ i ∈ ls then val i else x.getV q i := by
  induction ls generalizing x with
  | nil => simp [Regs.writeV]
  | cons j t ih =>
    have hj : j < 32 := hls j (by simp)
    have ht : ∀ i ∈ t, i < 32 := fun i h => hls i (by simp [h])
    rw [Regs.writeV, ih ht, Regs.getV_setV _ _ _ _ _ _ hj hi]
    by_cases hq : q = d
    · by_cases h1 : i ∈ t
      · simp [hq, h1]
      · by_cases h2 : i = j
        · simp [hq, h2]
        · simp [hq, h1, h2]
    · simp [hq]

@[simp] theorem Regs.writeV_s (d : Nat) (val : Nat → W32) (ls : List Nat) (x : Regs) : (x.writeV d val ls).s = x.s := by
  induction ls generalizing x with
  | nil => rfl
  | cons j t ih => rw [Regs.writeV, ih]; rfl

@[simp] theorem Regs.writeV_p (d : Nat) (val : Nat → W32) (ls : List Nat) (x : Regs) : (x.writeV d val ls).p = x.p := by
  induction ls generalizing x with
  | nil => rfl
  | cons j t ih => rw [Regs.writeV, ih]; rfl

@[simp] theorem Regs.writeV_lk (d : Nat) (val : Nat → W32) (ls : List Nat) (x : Regs) : (x.writeV d val ls).lk = x.lk := by
  induction ls generalizing x with
  | nil => rfl
  | cons j t ih => rw [Regs.writeV, ih]; rfl

@[simp] theorem Regs.writeV_mq (d : Nat) (val : Nat → W32) (ls : List Nat) (x : Regs) : (x.writeV d val ls).mq = x.mq := by
  induction ls generalizing x with
  | nil => rfl
  | cons j t ih => rw [Regs.writeV, ih]; rfl

@[simp] theorem Regs.writeV_mkr (d : Nat) (val : Nat → W32) (ls : List Nat) (x : Regs) : (x.writeV d val ls).mkr = x.mkr := by
  induction ls generalizing x with
  | nil => rfl
  | cons j t ih => rw [Regs.writeV, ih]; rfl

@[simp] theorem Regs.writeV_af (d : Nat) (val : Nat → W32) (ls : List Nat) (x : Regs) : (x.writeV d val ls).af = x.af := by
  induction ls generalizing x with
  | nil => rfl
  | cons j t ih => rw [Regs.writeV, ih]; rfl

@[simp] theorem Regs.writeV_te (d : Nat) (val : Nat → W32) (ls : List Nat) (x : Regs) : (x.writeV d val ls).te = x.te := by
  induction ls generalizing x with
  | nil => rfl
  | cons j t ih => rw [Regs.writeV, ih]; rfl

/-! ### Parts -/

/-- What a context says of the state it was read from. -/
theorem State.ctxOf_spec (s : State) (c g k : Nat) (x : Ctx) (h : s.ctxOf c g k = some x) :
    x.crew = c ∧ x.gang = g ∧ s.crew? c = some x.c ∧ s.gang? c g = some x.g ∧ x.part = x.g.part k
      ∧ x.low = x.part.headD k ∧ (x.g.slice k).exited = false
      ∧ x.pc = (x.g.slice x.low).pc ∧ x.hints = (x.g.slice x.low).hints := by
  unfold State.ctxOf at h
  split at h
  · cases h
  · rename_i cr hc
    split at h
    · cases h
    · rename_i gg hg
      split at h
      · cases h
      · rename_i he
        cases h
        refine ⟨rfl, rfl, hc, ?_, rfl, rfl, by simpa using he, rfl, rfl⟩
        simp [State.gang?, hc, hg]

/-- Lanes of a context are lanes. -/
theorem Ctx.lanes_lt (x : Ctx) (g : Nat) : ∀ i ∈ x.lanes g, i < 32 := by
  intro i h
  simp only [Ctx.lanes, List.mem_filter, List.mem_range] at h
  exact h.1

/-- What issuing on a part comes to when the word is one a part may issue, nothing holds it and its registers are in range. -/
theorem State.issueGang_runs (s : State) (x : Ctx) (n : Need) (ok : Ctx → Bool) (body : Ctx → State → Out) (ho : ok x = true)
    (hr : x.recordHazard n = false) (hl : x.loadHazard n = false) (hf : n.past = .runs ∨ x.g.fences = [])
    (hb : x.rangeBreach n = false) : s.issueGang x n ok body = body x s := by
  simp [State.issueGang, ho, hr, hl, hf, hb]

/-- A part issues an instruction. -/
theorem State.issue_part (s : State) (n : Need) (body : Ctx → State → Out) (ok : Ctx → Bool) (c g k : Nat) (x : Ctx)
    (hc : s.cur = .gang c g k) (hx : s.ctxOf c g k = some x) : s.issue n body ok = s.issueGang x n ok body := by
  simp [State.issue, hc, hx]

/-- A part issues an instruction that a Vintner executes as well. -/
theorem State.issueBoth_part (s : State) (n : Need) (v : Bool) (body : Ctx → State → Out) (vbody : VRun → State → Out)
    (ok : Ctx → Bool) (c g k : Nat) (x : Ctx) (hc : s.cur = .gang c g k) (hx : s.ctxOf c g k = some x) :
    s.issueBoth n v body vbody ok = s.issueGang x n ok body := by
  simp [State.issueBoth, hc, hx]

/-- A Vintner issues an instruction that has a form for it. -/
theorem State.issueBoth_vintner (s : State) (n : Need) (body : Ctx → State → Out) (vbody : VRun → State → Out)
    (ok : Ctx → Bool) (cl : Nat) (x : VRun) (hc : s.cur = .vintner cl) (hx : s.vRun? cl = some x) :
    s.issueBoth n true body vbody ok = vbody x s := by
  simp [State.issueBoth, hc, hx]

/-- Registers of the issuing part change, and it advances. -/
theorem State.retireRegs_eq (s : State) (x : Ctx) (f : Regs → Regs) (h : s.gang? x.crew x.gang = some x.g) :
    s.retireRegs x f = s.setGang x.crew x.gang (({ x.g with regs := f x.g.regs } : Gang).retire x) := by
  simp [State.retireRegs, h, State.retire]

/-- Registers and flags of the issuing part change, and it advances. -/
theorem State.finishFlags_eq (s : State) (x : Ctx) (flags : Nat) (f : Regs → Regs) (h : s.gang? x.crew x.gang = some x.g) :
    s.finishFlags x flags f =
      s.setGang x.crew x.gang ((({ x.g with regs := f x.g.regs } : Gang).raise x.mask (BitVec.ofNat 32 flags)).retire x) := by
  simp [State.finishFlags, h, State.retire]

/-- The part goes on with its registers as they are. -/
theorem State.retireHere_eq (s : State) (x : Ctx) (h : s.gang? x.crew x.gang = some x.g) :
    s.retireHere x = s.setGang x.crew x.gang (x.g.retire x) := by
  simp [State.retireHere, h, State.retire]

end Sys2Proof.Machine
end

