-- ==== Sys2Proof/Laws/Issue.lean ====
section
/-!
SUPPORT. What the shared operations of issue come to: no agent issues; a part with no fence waits, or takes a trap; a
gang that runs past no fence completes none.
-/

namespace Sys2Proof.Machine

/-- A part that issues comes to a next state whenever the instruction's own effect does. -/
theorem State.issueGang_next (s : State) (x : Ctx) (n : Need) (ok : Ctx → Bool) (body : Ctx → State → Out)
    (hb : ∀ y t, ∃ u, body y t = .next u) : ∃ t, s.issueGang x n ok body = .next t := by
  unfold State.issueGang
  dsimp only
  repeat' split
  all_goals first | exact ⟨_, rfl⟩ | exact hb _ _

/-- An instruction of parts alone comes to a next state, or stops because `cur` names no issuer. -/
theorem State.issue_next (s : State) (n : Need) (body : Ctx → State → Out) (ok : Ctx → Bool)
    (hb : ∀ y t, ∃ u, body y t = .next u) : (∃ t, s.issue n body ok = .next t) ∨ s.issue n body ok = .fault .noIssuer := by
  unfold State.issue
  repeat' split
  all_goals first | exact .inl (s.issueGang_next _ n ok body hb) | exact .inl ⟨_, rfl⟩ | exact .inr rfl

/-- A gang that runs past no fence completes none. -/
theorem State.completeFence_none (s : State) (c g : Nat) (m : BitVec 8) (x : Gang) (h : s.gang? c g = some x) (hf : x.fences = []) :
    s.completeFence c g m = s := by
  simp [State.completeFence, h, hf]

/-- The part stands where its context was read. -/
theorem State.moved_ctxOf (s : State) (c g k : Nat) (x : Ctx) (h : s.ctxOf c g k = some x) : s.moved x = false := by
  obtain ⟨rfl, rfl, _, hg, _, _, _, hp, hh⟩ := s.ctxOf_spec c g k x h
  simp [State.moved, hg, hp, hh]

/-- A part that runs past no fence waits: it stands at the first hint of its group with the wait, and nothing else changes. -/
theorem State.waitPart_eq (s : State) (c g k : Nat) (x : Ctx) (code num operand : Nat) (h : s.ctxOf c g k = some x) (hf : x.g.fences = []) :
    s.waitPart x code num operand = s.setGang x.crew x.gang (x.g.waitAt x code num operand s.clock) := by
  have hm := s.moved_ctxOf c g k x h
  obtain ⟨rfl, rfl, _, hg, _⟩ := s.ctxOf_spec c g k x h
  simp [State.waitPart, s.completeFence_none _ _ x.mask x.g hg hf, hm, hg]

/-- A part that runs past no fence takes a precise trap: it waits with code 10 at the first hint of its group, and the
trap stands with the gang. -/
theorem State.takeTrapAt_eq (s : State) (c g k : Nat) (x : Ctx) (t : Trap) (va : W64) (lanes : LaneMask) (h : s.ctxOf c g k = some x)
    (hf : x.g.fences = []) : s.takeTrapAt x t va lanes = s.setGang x.crew x.gang { x.g.waitAt x 10 0 (vaNat va) s.clock with
      stops := x.g.stops ++ [{ slices := x.mask, trap := t, addr := x.start, va := va, lanes := lanes, tag := none, park := false }] } := by
  have hm := s.moved_ctxOf c g k x h
  obtain ⟨rfl, rfl, _, hg, _⟩ := s.ctxOf_spec c g k x h
  simp [State.takeTrapAt, s.completeFence_none _ _ x.mask x.g hg hf, hm, hg]
  rfl

end Sys2Proof.Machine
end

