-- ==== Sys2Proof/Tests/Slice0.lean ====
section
/-!
SUPPORT. Tests of one step each on small states; an ill-formed term for each check of `Instr.wellFormed`; the words that the
spec writes out; and, for the hypotheses of each statement, a state and operands that meet them together (`test_met_…`).
-/

namespace Sys2Proof.Tests

open Machine Claims

set_option Elab.async false

/-! ### Small states -/

/-- The translation of the 1 MiB page at `codeBase` to itself, held by a unit under ASID 0. -/
def page (u : UnitId) (k : Kind := .rc) (fmt : Nat := 0) (geo : Nat := 0) : TlbEntry := { codeTlb u with kind := k, fmt := fmt, geo := geo }

/-- An address of that page. -/
def at_ (n : Nat) : Nat := codeBase + n

/-- Every lane's `v` register q. -/
def putV (q : Nat) (f : Nat → W32) (r : Regs) : Regs := (List.range 32).foldl (fun r l => r.setV q l (f l)) r
def putV2 (q : Nat) (f : Nat → W64) (r : Regs) : Regs := (List.range 32).foldl (fun r l => r.setV2 q l (f l)) r
/-- Every slice's `s` register q. -/
def putS (q : Nat) (v : W32) (r : Regs) : Regs := (List.range 8).foldl (fun r k => r.setS k q v) r
def putS2 (q : Nat) (v : W64) (r : Regs) : Regs := (List.range 8).foldl (fun r k => r.setS2 k q v) r
/-- Predicate q as a mask of lanes. -/
def putP (q : Nat) (m : W32) (r : Regs) : Regs := { r with p := SMap.put r.p q m }

/-- A gang at `codeBase` with registers r. -/
def gangOf (r : Regs) : Gang := { Gang.start (BitVec.ofNat 64 codeBase) with regs := r }

/-- A state in which gang 0 of crew 0 issues; the crew is one of `codeCrew`'s record. -/
def ofGangs (gs : List (Nat × Gang)) (u : List TlbEntry := [page (.core 0)]) : State :=
  { State.reset with tlb := u, crews := [(0, { codeCrew with gangs := gs })], cur := .gang 0 0 0 }
def ofGang (g : Gang) (u : List TlbEntry := [page (.core 0)]) : State := ofGangs [(0, g)] u
def ofRegs (r : Regs) (u : List TlbEntry := [page (.core 0)]) : State := ofGang (gangOf r) u
/-- With n bytes of v at an address of the page. -/
def stored (a n v : Nat) (s : State) : State := { s with mem := Memory.writeNat s.mem (at_ a) n v }

/-- The part that issues. -/
def ctx (s : State) : Ctx :=
  (s.ctxOf 0 0 0).getD { crew := 0, gang := 0, low := 0, part := [], c := codeCrew, g := {}, pc := 0, start := 0, len := 0, hints := [] }

theorem getD_some {α : Type} {o : Option α} (d : α) (h : o.isSome = true) : o = some (o.getD d) := by
  cases o with
  | none => cases h
  | some a => rfl

theorem issuing {s : State} (h : s.cur = .gang 0 0 0) (g : (s.ctxOf 0 0 0).isSome = true) : Issuing s (ctx s) :=
  ⟨0, 0, 0, h, getD_some _ g⟩

/-- Nothing that a part waits for stands. -/
def idle (s : State) (x : Ctx) : Bool :=
  decide (x.g.records = []) && decide (x.g.loads = []) && decide (x.g.fences = []) && decide (x.g.buffer = []) &&
    (SMap.find x.g.replay x.low).isNone && decide (s.fills = [])

theorem fresh {s : State} {x : Ctx} (h : idle s x = true) : Fresh s x := by
  simp only [idle, Bool.and_eq_true, decide_eq_true_eq, Option.isNone_iff_eq_none] at h
  obtain ⟨⟨⟨⟨⟨h1, h2⟩, h3⟩, h4⟩, h5⟩, h6⟩ := h
  exact ⟨⟨by simp [h1], by simp [h2]⟩, h3, by simp [h4], h5, by simp [h6]⟩

/-- The step that an instruction makes, where it makes one. -/
noncomputable def after (i : Instr) (s : State) : State := match exec i s with | .next t => t | _ => State.reset
/-- Registers of gang 0 after an instruction. -/
noncomputable def regsAfter (i : Instr) (s : State) : Regs := (ctx (after i s)).g.regs
/-- `v` register q of lane l after an instruction. -/
noncomputable def vAfter (i : Instr) (s : State) (q l : Nat) : W32 := (regsAfter i s).getV q l
noncomputable def sAfter (i : Instr) (s : State) (k q : Nat) : W32 := (regsAfter i s).getS k q
noncomputable def pAfter (i : Instr) (s : State) (q : Nat) : W32 := (regsAfter i s).getPs q
/-- The trap of gang 0 after an instruction. -/
noncomputable def trapAfter (i : Instr) (s : State) : List FaultKind := (ctx (after i s)).g.stops.map (·.trap.kind)
/-- n bytes of the page after an instruction. -/
noncomputable def memAfter (i : Instr) (s : State) (a n : Nat) : Nat := Memory.readNat (after i s).mem (at_ a) n
/-- The same once the oldest buffered entry has been performed. -/
noncomputable def memPast (i : Instr) (s : State) (a n : Nat) : Nat := memAfter (.homeSliceWrite 0 0 0) (after i s) a n
/-- The byte that the gang's buffer stores at an address of the page after an instruction. -/
noncomputable def byteStored (i : Instr) (s : State) (a : Nat) : Option Byte :=
  (((ctx (after i s)).g.buffer.flatMap storedBytes).find? (fun w => w.addr == at_ a)).map (·.value)
/-- No core holds a copy of a PV line. -/
theorem noPvCopy {s : State} (h : s.cores = []) (a : Nat) : NoPvCopy s a := fun c l e => by
  simp [State.pvLine, State.core, h, SMap.getD, SMap.find] at e

/-! ### Well-formed fields: each check refuses an ill-formed term -/

theorem test_wf_pairs : ∀ i ∈ [Instr.jmpi 7 3, .calli 7 1, .calliSave ⟨7, 1, 2⟩, .calliSave ⟨7, 2, 1⟩, .gredAddF64 ⟨7, 1, 2⟩,
    .gscanAddF64 ⟨7, 2, 1⟩, .addS64 ⟨7, 0, 1, 2, 4⟩, .addS64 ⟨7, 0, 2, 1, 4⟩, .addS64 ⟨7, 1, 2, 4, 1⟩, .lea ⟨7, 0, 1, 2, 3⟩, .lea ⟨7, 0, 2, 1, 3⟩,
    .ltS64 ⟨7, 0, 1, 3, 2⟩, .eq64 ⟨7, 0, 1, 2, 3⟩, .addF64 ⟨7, 0, 1, 2, 4⟩, .absF64 ⟨7, 0, 2, 1⟩, .feqF64 ⟨7, 0, 1, 1, 2⟩,
    .mmul 7 0 0 1 2 4, .mmul 7 0 0 2 1 4, .mmul 7 0 0 2 4 1, .mred 7 0 1 2, .mneg 7 0 2 1, .bfly 7 0 1 2 0, .setm 7 0 1], i.wellFormed = false := by decide +kernel

theorem test_wf_pairs_memory : ∀ i ∈ [Instr.ld ⟨7, 1, 0, 0, 0, 3⟩, .st ⟨7, 1, 0, 0, 0, 3⟩, .lde ⟨7, 1, 0, 0, 0, 1⟩, .ste ⟨7, 1, 0, 0, 0, 1⟩,
    .preq 0 1 0 0 0, .lclean 1 0, .pf 0 1 0, .lflush 1 0, .linv 1 0, .lds 0 1 0 0, .lds 1 0 0 3, .cst 0 1 0 0, .cst 1 0 0 3, .exld 0 1 0 0 0,
    .exld 1 0 0 0 3, .tfill 1 0 0, .tflush 1 0, .tld 7 0 3 1 0 0, .tst 7 0 3 1 0 0, .tlde ⟨7, 0, 1, 1, 0⟩, .tste ⟨7, 0, 1, 1, 0⟩, .atomAdd ⟨7, 0, 0, 1, 0⟩,
    .redAdd ⟨7, 0, 1, 0⟩, .atomAddN64 ⟨7, 0, 1, 0, 0⟩, .atomAddN64 ⟨7, 1, 0, 0, 1⟩, .redAddN64 ⟨7, 0, 0, 1⟩, .atomAddF32 ⟨7, 0, 0, 1, 0⟩,
    .atomAddF64 ⟨7, 0, 1, 0, 0⟩, .atomAddBf16 ⟨7, 0, 0, 1, 0⟩, .redAddF32 ⟨7, 0, 1, 0⟩, .redAddF64 ⟨7, 0, 0, 1⟩, .redAddBf16 ⟨7, 0, 1, 0⟩], i.wellFormed = false := by decide +kernel

theorem test_wf_pairs_system : ∀ i ∈ [Instr.lres32 ⟨7, 0, 1⟩, .lres64 ⟨7, 1, 0⟩, .scond32 ⟨7, 0, 0, 1, 0⟩, .scond64 ⟨7, 0, 0, 0, 1⟩, .mon 7 1, .launch 1,
    .spawn ⟨1, 0⟩, .spawn ⟨0, 1⟩, .jcnt 0 1 1, .qpush ⟨1, 0⟩, .seqwait ⟨0, 1⟩, .qhead ⟨1, 0⟩, .mload 0 1 0, .mdrain 1 0 0 0 0, .mdrain 0 1 0 0 0, .vdsub 1,
    .vsig ⟨1, 0⟩, .rdsV 1 8, .rdsS 1 16, .upcall 1 0 0, .tlbiPage ⟨0, 1⟩, .pkset 0 1 0], i.wellFormed = false := by decide +kernel

theorem test_wf_quads : ∀ i ∈ [Instr.mred128 7 0 0 2, .ld ⟨7, 2, 0, 0, 0, 4⟩, .talloc 0 2 0, .tfree 2, .tfill 0 2 0, .tflush 0 2, .tquery ⟨7, 0, 2⟩,
    .tld 7 0 0 0 2 0, .tldg ⟨7, 0, 0, 2, 0⟩, .macq 2, .mrel 2, .cas128 7 2 0 0, .cas128 7 0 0 2, .upcall 0 2 0], i.wellFormed = false := by decide +kernel

theorem test_wf_blocks : ∀ i ∈ [Instr.rast 7 0 52, .rast 7 0 2, .rastbin 7 0 60, .binflush 7 0 62, .ctok ⟨7, 0, 0, 2⟩, .zs ⟨7, 0, 0, 1⟩, .zsP 7 0 2,
    .blnd ⟨7, 0, 0, 2⟩, .blndP 7 0 2, .tex ⟨7, 0, 0, 2⟩, .trav ⟨7, 0, 0, 2⟩, .travc ⟨7, 0, 0, 60⟩, .upcall 0 60 0], i.wellFormed = false := by decide +kernel

theorem test_wf_codes : ∀ i ∈ [Instr.cvt 7 15 0 0 1, .cvt 7 1 0 0 15, .cvt 7 0 1 0 1, .cvt 7 1 0 1 13, .bfly 7 0 0 2 5, .ibfly 7 0 0 2 7, .ld ⟨7, 0, 0, 0, 0, 5⟩,
    .st ⟨7, 0, 0, 0, 2, 0⟩, .ste ⟨7, 0, 0, 0, 2, 0⟩, .lde ⟨7, 0, 0, 0, 0, 5⟩, .tlde ⟨7, 1, 0, 1, 0⟩, .tste ⟨7, 1, 0, 2, 0⟩, .fence 7, .fenceAcq 7, .fenceRel 7,
    .mstep 0 0 0 0 5, .rdsV 0 22, .rdsS 0 0, .rdsS 0 22, .wrs 0 16, .wrs 0 20, .hintRounding 16, .hintScalePolicy 5, .hintScalePolicy 32,
    .hintScalePolicy 64, .hintPriority 3, .hintPriority 4, .hintScope 7, .hintScope 8, .hintFormat 32, .hintFormat 10, .hintFormat 256, .hintFormat 15], i.wellFormed = false := by decide +kernel

/-! ### Decoding -/

/-- What the decoder reads. -/
noncomputable def reads (w : W32) : Option Instr := (decode w).toOption

/-- Words written out field by field as R49 to R56 lay the formats out, one or more for each class. -/
noncomputable def words1 : List (W32 × Instr) :=
  [(0b000001_111_0_0000000000000000000011, .br 7 0 3), (0b000010_001_1_1111111111111111111111, .call 1 1 0x3FFFFF),
   (0b000011_111_0_0010_000000_000000_000000, .ret_ 7), (0b000100_010_0_0001_000001_000010_000001, .pfoldSome ⟨2, 1, 2⟩),
   (0b000101_111_1_0010_000001_000011_001001, .lfetchFlip ⟨7, 1, 1, 3, 9⟩), (0b000110_111_0_0000_000011_000010_000000, .gredAddS32 ⟨7, 3, 2⟩),
   (0b001000_111_1_0110_000101_000100_001001, .divS32 ⟨7, 1, 5, 4, 9⟩), (0b001101_111_000100_000101_11111111010, .addi 7 4 5 0x7FA),
   (0b001110_111_001000_1_0000000000000111, .movi 7 8 1 7), (0b010000_111_0_0011_000100_000001_000010, .fmaF32 ⟨7, 0, 4, 1, 2⟩),
   (0b010110_000000_000000_000000_00000000, .tfence), (0b011000_111_0_0001_000100_000000_000010, .mmul 7 0 1 4 0 2),
   (0b011100_010_000101_00010_000010_001_010, .ld ⟨2, 5, 2, 2, 1, 2⟩), (0b011101_111_000101_00010_000010_000_010, .st ⟨7, 5, 2, 2, 0, 2⟩)]
noncomputable def words2 : List (W32 × Instr) :=
  [(0b100000_000000_000010_000100_000_001_0_1, .preq 2 4 1 0 1), (0b100000_000111_000011_000100_010_001_10, .exld 3 4 2 1 2),
   (0b100001_111_1_0000_001000_000100_001001, .talloc 8 4 9), (0b100100_111_0_0000_000011_000100_000010, .atomAdd ⟨7, 0, 3, 4, 2⟩),
   (0b101011_000000_000000_000000_00000101, .fence 5), (0b101100_000010_001000_000110_00000001, .jcnt 8 6 1),
   (0b101101_000000_001000_000100_00000000, .qpush ⟨8, 4⟩), (0b110000_000000_001000_000010_00000001, .mload 8 2 1),
   (0b110001_000001_001000_000110_00000000, .vsig ⟨8, 6⟩), (0b110100_111_0000_001000_000000_000000_1, .rast 7 8 0),
   (0b110101_111_0000_000010_000000_001000_1, .ctok ⟨7, 2, 0, 8⟩), (0b111000_000011_001000_010000_00000101, .upcall 8 16 5),
   (0b111001_000000_001000_000100_00000000, .tlbiPage ⟨8, 4⟩), (0b111110_0010_0000000000000000000100, .hintRounding 4)]
theorem test_decode_words1 : ∀ e ∈ words1, reads e.1 = some e.2 := by decide +kernel
theorem test_decode_words2 : ∀ e ∈ words2, reads e.1 = some e.2 := by decide +kernel

/-- The examples of the spec, in parts. -/
theorem test_decode_examples1 : ∀ e ∈ wordsOfSpec.take 35, reads e.1 = some e.2 := by decide +kernel
theorem test_decode_examples2 : ∀ e ∈ (wordsOfSpec.drop 35).take 35, reads e.1 = some e.2 := by decide +kernel
theorem test_decode_examples3 : ∀ e ∈ wordsOfSpec.drop 70, reads e.1 = some e.2 := by decide +kernel

theorem test_decode_reserved : (reads 0).isNone = true ∧ (reads 0xFFFFFFFF).isNone = true ∧ (reads 0x5C000000).isNone = true
    ∧ (reads 0xF9C00000).isNone = true ∧ (reads 0x58000001).isNone = true := by decide +kernel

/-! ### Registers: hypotheses that are met, and results worked out by hand -/

/-- A part that issues and waits for nothing. -/
def ok (s : State) : Bool := decide (s.cur = .gang 0 0 0) && (s.ctxOf 0 0 0).isSome && idle s (ctx s)

theorem ok_issuing {s : State} (h : ok s = true) : Issuing s (ctx s) := by
  simp only [ok, Bool.and_eq_true, decide_eq_true_eq] at h
  exact issuing h.1.1 h.1.2

theorem ok_fresh {s : State} (h : ok s = true) : Fresh s (ctx s) := by
  simp only [ok, Bool.and_eq_true] at h
  exact fresh h.2

theorem noRecords {s : State} (h : ok s = true) : NoRecords (ctx s) := (ok_fresh h).1

theorem met (s : State) (h : ok s = true) {P : State → Ctx → Prop} (p : P s (ctx s)) : ∃ s x, Issuing s x ∧ Fresh s x ∧ P s x :=
  ⟨s, ctx s, ok_issuing h, ok_fresh h, p⟩

/-- `v1` holds l + 1 in lanes 0, 1, 2, 4, 6 and 31, `v2` holds 2 and `v3` −1 in lanes 0 to 4, `v6` holds 1.0 and `v8` 5 in lane 0;
predicate 0 is lanes 0 to 3 and 31; slices 0 and 1 hold 3 in `s4`. -/
def someRegs : Regs :=
  { v := [(32, 1), (33, 2), (34, 3), (36, 5), (38, 7), (63, 32), (64, 2), (65, 2), (66, 2), (67, 2), (68, 2), (96, 0xFFFFFFFF), (97, 0xFFFFFFFF),
      (98, 0xFFFFFFFF), (99, 0xFFFFFFFF), (100, 0xFFFFFFFF), (192, 0x3F800000), (256, 5)]
    s := [(4, 3), (68, 3)], p := [(0, 0x8000000F), (1, 0x0000FFF0)] }
def some_ : State := ofRegs someRegs

theorem test_met_IntBinary : ∃ s x, Issuing s x ∧ Fresh s x ∧ Holds x ([(63, 1), (63, 1)] ++ bRegs 0 63 1) ∧ Holds x ([(0, 1), (0, 1)] ++ bRegs 1 63 1) :=
  met some_ (by decide +kernel) (by unfold Holds; decide +kernel)
theorem test_met_IntPairs : ∃ s x, Issuing s x ∧ Fresh s x ∧ Holds x ([(62, 2), (0, 2)] ++ bRegs 0 62 2) :=
  met some_ (by decide +kernel) (by unfold Holds; decide +kernel)
theorem test_met_quad : ∃ s x, Issuing s x ∧ Fresh s x ∧ Holds x [(62, 2), (60, 4)] :=
  met some_ (by decide +kernel) (by unfold Holds; decide +kernel)
theorem test_met_AddsS32 : Claims.overflows 0x7FFFFFFF 1 ∧ ¬ Claims.overflows 0x7FFFFFFF 0 ∧ Claims.overflows 0x80000000 0xFFFFFFFF ∧ ¬ Claims.overflows 0x80000000 0
    ∧ satHint [0xF8800004] ∧ ¬ satHint [] :=
  ⟨by unfold Claims.overflows; decide +kernel, by unfold Claims.overflows; decide +kernel, by unfold Claims.overflows; decide +kernel, by unfold Claims.overflows; decide +kernel,
    ⟨4, by decide +kernel, by decide +kernel⟩, fun ⟨p, h, _⟩ => by revert h; simp [hintOf]⟩
theorem test_met_Conversion : RegType.ofCode 0 ≠ none ∧ RegType.ofCode 14 ≠ none ∧ RegType.ofCode 15 = none := by decide +kernel
theorem test_met_TrapFence : (∃ s x, Issuing s x ∧ Fresh s x ∧ x.g.regs.af &&& x.g.regs.te &&& 0x7F = 0)
    ∧ ∃ s x, Issuing s x ∧ Fresh s x ∧ x.g.regs.af &&& x.g.regs.te &&& 0x7F ≠ 0 :=
  ⟨met (ofRegs { af := 0x80, te := 0x80 }) (by decide +kernel) (by decide +kernel), met (ofRegs { af := 0x40, te := 0x7F }) (by decide +kernel) (by decide +kernel)⟩

/-- Moduli 17 in number 1 of every lane. -/
def withModulus : State := ofRegs { someRegs with mq := (List.range 32).map (fun l => (32 + l, 17)) }
theorem test_met_ModularArithmetic : (∃ s x, Issuing s x ∧ Fresh s x ∧ (x.lanes 7).filter (fun l => x.g.regs.getMq 1 l == 0) = [])
    ∧ ∃ s x, Issuing s x ∧ Fresh s x ∧ (x.lanes 7).filter (fun l => x.g.regs.getMq 1 l == 0) ≠ [] :=
  ⟨met withModulus (by decide +kernel) (by decide +kernel), met some_ (by decide +kernel) (by decide +kernel)⟩
theorem test_met_Butterflies : ∃ s x, Issuing s x ∧ Fresh s x
    ∧ ∀ l, l < 32 → (x.on 7 (lowLane 4 l) && x.on 7 (lowLane 4 l + 2 ^ 4)) = true → ((x.g.regs.getMq 1 (lowLane 4 l)).toNat : Int) ≠ 0 :=
  met withModulus (by decide +kernel) (by decide +kernel)
/-- The bounds of a modulus. -/
theorem test_met_Moduli : (∃ s x, Issuing s x ∧ Fresh s x ∧ (x.lanes 7).filter (fun l => let q := (x.g.regs.getV2 6 l).toNat; decide (q < 3) || decide (2 ^ 62 < q)) = [])
    ∧ ∃ s x, Issuing s x ∧ Fresh s x ∧ (x.lanes 7).filter (fun l => let q := (x.g.regs.getV2 6 l).toNat; decide (q < 3) || decide (2 ^ 62 < q)) = List.range 32 :=
  ⟨met (ofRegs { v := (192, 3) :: (List.range 31).map (fun l => (225 + l, 0x40000000)) }) (by decide +kernel) (by decide +kernel),
    met (ofRegs { v := (192, 2) :: (List.range 31).map (fun l => (193 + l, 1)) ++ (List.range 31).map (fun l => (225 + l, 0x40000000)) }) (by decide +kernel) (by decide +kernel)⟩

theorem test_add : vAfter (.add ⟨7, 0, 5, 1, 3⟩) some_ 5 4 = 4 ∧ vAfter (.add ⟨0, 0, 5, 1, 3⟩) some_ 5 4 = 0 := by decide +kernel
theorem test_sub : vAfter (.sub ⟨7, 1, 5, 1, 4⟩) some_ 5 0 = 0xFFFFFFFE := by decide +kernel
theorem test_mulhi : vAfter (.mulhiS32 ⟨7, 0, 5, 1, 3⟩) some_ 5 0 = 0xFFFFFFFF ∧ vAfter (.mulhiN32 ⟨7, 0, 5, 1, 3⟩) some_ 5 0 = 0 := by decide +kernel
theorem test_div : vAfter (.divS32 ⟨7, 0, 5, 3, 2⟩) some_ 5 0 = 0 ∧ vAfter (.remS32 ⟨7, 0, 5, 3, 2⟩) some_ 5 0 = 0xFFFFFFFF
    ∧ vAfter (.divN32 ⟨7, 0, 5, 3, 2⟩) some_ 5 0 = 0x7FFFFFFF ∧ vAfter (.divS32 ⟨7, 0, 5, 3, 9⟩) some_ 5 0 = 0xFFFFFFFF := by decide +kernel
theorem test_shl_by_32 : vAfter (.shl ⟨7, 1, 5, 1, 4⟩) (ofRegs { someRegs with s := [(4, 32)] }) 5 0 = 0 ∧ vAfter (.shrS32 ⟨7, 1, 5, 3, 4⟩) (ofRegs { someRegs with s := [(4, 32)] }) 5 0 = 0xFFFFFFFF := by
  decide +kernel
theorem test_addi : vAfter (.addi 7 5 1 0x7FA) some_ 5 0 = 0xFFFFFFFB := by decide +kernel
theorem test_movi : sAfter (.movi 7 8 1 7) some_ 3 8 = 7 ∧ vAfter (.movi 7 8 0 0x8000) some_ 8 0 = 0xFFFF8000 := by decide +kernel
theorem test_movhi : vAfter (.movhi 7 1 0 0x1234) some_ 1 0 = 0x12340001 := by decide +kernel
theorem test_compare : pAfter (.ltN32 ⟨7, 0, 2, 1, 2⟩) some_ 2 = 9 ∧ pAfter (.ltS32 ⟨7, 0, 2, 3, 2⟩) some_ 2 = 0x1F ∧ pAfter (.eq ⟨7, 0, 7, 1, 2⟩) some_ 7 = 0xFFFFFFFF := by
  decide +kernel
theorem test_pandn : pAfter (.pandn ⟨7, 0, 2, 7, 1⟩) some_ 2 = 0xFFFF000F := by decide +kernel
theorem test_fp : vAfter (.addF32 ⟨7, 0, 5, 6, 6⟩) some_ 5 0 = 0x40000000
    ∧ vAfter (.rcpF32 ⟨7, 0, 5, 6⟩) some_ 5 0 = 0x3F800000
    ∧ (regsAfter (.rcpF32 ⟨7, 0, 5, 6⟩) (ofRegs {})).af = 2 := by decide +kernel
theorem test_cvt : vAfter (.cvt 7 11 5 1 1) some_ 5 0 = 0 ∧ vAfter (.cvt 7 1 5 1 11) some_ 5 2 = 0x40400000 := by decide +kernel
theorem test_mmul : vAfter (.mmul 7 0 1 10 8 8) withModulus 10 0 = 8 := by decide +kernel
theorem test_setm : (regsAfter (.setm 2 0 8) (ofRegs { someRegs with p := [(2, 1)] })).getMk 0 0 = BitVec.ofNat 64 (2 ^ 65 / 5) := by decide +kernel
theorem test_pfold : pAfter (.pfoldSome ⟨0, 2, 1⟩) some_ 2 = 0 ∧ pAfter (.pfoldSome ⟨7, 2, 1⟩) some_ 2 = 0xFFFFFFFF := by decide +kernel
theorem test_prank : vAfter (.prank ⟨7, 5, 1⟩) some_ 5 6 = 2 := by decide +kernel
theorem test_lfetch : vAfter (.lfetchOff ⟨7, 0, 5, 1, 2⟩) some_ 5 4 = 7 ∧ vAfter (.lfetchOff ⟨7, 0, 5, 1, 2⟩) some_ 5 31 = 32 := by decide +kernel
theorem test_gred : vAfter (.gredAddS32 ⟨7, 5, 1⟩) some_ 5 9 = 50 ∧ vAfter (.gscanAddS32 ⟨7, 5, 1⟩) some_ 5 2 = 6 := by decide +kernel
theorem test_lrot : vAfter (.lrot 7 5 1 4) some_ 5 2 = 32 := by decide +kernel

/-! ### Branches -/

/-- Slice k of gang 0 alone in its part, its other slices gone. -/
def oneSlice (k : Nat) (f : Slice → Slice) (r : Regs) : State :=
  let g := gangOf r
  let s := ofGang { g with slices := g.slices.mapIdx (fun j x => if j = k then f { x with part := k } else { x with exited := true, live := 0 }) }
  { s with cur := .gang 0 0 k }
/-- The part that issues in such a state. -/
def ctxAt (k : Nat) (s : State) : Ctx :=
  (s.ctxOf 0 0 k).getD { crew := 0, gang := 0, low := 0, part := [], c := codeCrew, g := {}, pc := 0, start := 0, len := 0, hints := [] }
def okAt (k : Nat) (s : State) : Bool := decide (s.cur = .gang 0 0 k) && (s.ctxOf 0 0 k).isSome && idle s (ctxAt k s)
theorem metAt (k : Nat) (s : State) (h : okAt k s = true) {P : State → Ctx → Prop} (p : P s (ctxAt k s)) : ∃ s x, Issuing s x ∧ Fresh s x ∧ P s x := by
  simp only [okAt, Bool.and_eq_true, decide_eq_true_eq] at h
  exact ⟨s, ctxAt k s, ⟨0, 0, k, h.1.1, getD_some _ h.1.2⟩, fresh h.2, p⟩

theorem test_met_UniformBranches : ∃ s x, Issuing s x ∧ Fresh s x ∧ Eight x ∧ ∀ k ∈ x.part,
    (∀ j, j < 4 → (x.on 7 (4 * k + j) && (x.g.regs.getP 1 (4 * k + j) != false)) = false)
      ∨ (∀ j, j < 4 → (x.on 7 (4 * k + j) && !(x.g.regs.getP 1 (4 * k + j) != false)) = false) :=
  met some_ (by decide +kernel) (by unfold Eight; decide +kernel)
/-- Slice 2, whose lanes 8 and 10 have predicate 2. -/
def forked (d : Nat) : State := oneSlice 2 (fun x => { x with spilled := d }) { p := [(2, 0x500)] }
theorem test_met_DivergentBranch : ∃ s x, Issuing s x ∧ Fresh s x ∧ Eight x ∧ x.part = [2] ∧ (x.g.slice 2).stack.length ≤ 14 ∧ (x.g.slice 2).spilled = 0
    ∧ (∃ j, j < 4 ∧ (x.on 7 (4 * 2 + j) && (x.g.regs.getP 2 (4 * 2 + j) != false)) = true)
    ∧ ∃ j, j < 4 ∧ (x.on 7 (4 * 2 + j) && !(x.g.regs.getP 2 (4 * 2 + j) != false)) = true :=
  metAt 2 (forked 0) (by decide +kernel) (by unfold Eight; decide +kernel)
theorem test_met_DivergenceOverflow : ∃ s x, Issuing s x ∧ Fresh s x ∧ 2 ∈ x.part ∧ 254 ≤ (x.g.slice 2).stack.length + (x.g.slice 2).spilled
    ∧ (∃ j, j < 4 ∧ (x.on 7 (4 * 2 + j) && (x.g.regs.getP 2 (4 * 2 + j) != false)) = true)
    ∧ ∃ j, j < 4 ∧ (x.on 7 (4 * 2 + j) && !(x.g.regs.getP 2 (4 * 2 + j) != false)) = true :=
  metAt 2 (forked 254) (by decide +kernel) (by decide +kernel)
/-- Targets at `codeBase` + 64 in lanes 0 to 3 of the guard; `lk` as well. -/
def jumping (low : W32) : State := ofRegs { v := (List.range 4).map (fun l => (64 + l, low)), lk := (List.range 4).map (fun l => (l, low.setWidth 64)), p := [(0, 0xF)] }
theorem test_met_IndirectTransfers : (∃ s x, Issuing s x ∧ Fresh s x ∧ Eight x ∧ Holds x [(4, 2), (2, 2)] ∧ (x.lanes 0).filter (fun l => decide ((x.g.regs.getV2 2 l).toNat % 4 ≠ 0)) = []
      ∧ (∀ k ∈ x.part, (∀ j, j < 4 → x.on 0 (4 * k + j) = false) → (if k = 0 then (64 : W64) else x.pc + 4) = x.pc + 4)
      ∧ ∀ k ∈ x.part, ∀ j, j < 4 → x.on 0 (4 * k + j) = true → x.g.regs.getV2 2 (4 * k + j) = (if k = 0 then (64 : W64) else x.pc + 4))
    ∧ ∃ s x, Issuing s x ∧ Fresh s x ∧ Eight x ∧ (x.lanes 0).filter (fun l => decide ((x.g.regs.getLk l).toNat % 4 ≠ 0)) ≠ [] :=
  ⟨met (jumping 64) (by decide +kernel) (by unfold Eight Holds; decide +kernel), met (jumping 66) (by decide +kernel) (by unfold Eight; decide +kernel)⟩

/-- Program counters of gang 0 after an instruction, and the stack of a slice. -/
noncomputable def pcsAfter (i : Instr) (s : State) : List W64 := ((after i s).gang? 0 0).elim [] (fun g => g.slices.map (·.pc))
noncomputable def stackAfter (i : Instr) (s : State) (k : Nat) : List (W64 × BitVec 4) :=
  ((after i s).gang? 0 0).elim [] (fun g => (g.slice k).stack.map (fun e => (e.pc, e.mask)))
theorem test_br : pcsAfter (.br 7 0 3) some_ = List.replicate 8 (BitVec.ofNat 64 (at_ 12)) ∧ pcsAfter (.br 7 1 3) some_ = List.replicate 8 (BitVec.ofNat 64 (at_ 4)) := by
  decide +kernel
theorem test_br_backward : pcsAfter (.br 7 0 0x3FFFFF) some_ = List.replicate 8 (BitVec.ofNat 64 (codeBase - 4)) := by decide +kernel
theorem test_diverge : stackAfter (.br 2 0 3) (forked 0) 2 = [(BitVec.ofNat 64 (at_ 4), 0b1010), (BitVec.ofNat 64 (at_ 12), 0b1111)]
    ∧ (pcsAfter (.br 2 0 3) (forked 0)).getD 2 0 = BitVec.ofNat 64 (at_ 12) := by decide +kernel
theorem test_call : (regsAfter (.call 7 0 64) some_).getLk 31 = BitVec.ofNat 64 (at_ 4) := by decide +kernel
theorem test_ret : pcsAfter (.ret_ 0) (jumping 64) = 64 :: List.replicate 7 (BitVec.ofNat 64 (at_ 4)) ∧ trapAfter (.ret_ 0) (jumping 66) = [.misalignedCode] := by
  decide +kernel

/-! ### Memory -/

/-- `s10:11` of slice 0 points to the page's byte 0x1000, `v8:9` of lane 0 to its byte 0x1010; `v1` holds 4 l in lanes 0 to 3; lane 0 holds
data in `v4` to `v7` and `v12` to `v15`; predicate 0 is lanes 0 to 3, predicate 3 lane 0, predicate 4 lanes 1 and 3. -/
def memRegs : Regs :=
  { v := [(33, 4), (34, 8), (35, 12), (128, 0x44332211), (129, 0x88776655), (160, 0x88776655), (192, 0xCCBBAA99), (224, 0x00FFEEDD),
      (256, 0x40001010), (384, 7), (416, 0), (448, 0), (480, 0)]
    s := [(10, 0x40001000), (12, 9), (14, 0x40001000)], p := [(0, 0xF), (3, 1), (4, 0b1010)] }
/-- With 16 bytes at 0x1000 and 16 at 0x1010, on a page of a kind and a format. -/
def memOn (k : Kind) (fmt : Nat := 0) (r : Regs := memRegs) : State :=
  ofRegs r [page (.core 0) k fmt] |> stored 0x1000 16 0x0F0E0D0C0B0A09080706050403020100 |> stored 0x1010 16 0x0000000700000005
def mem_ : State := memOn .rc
def memSc : State := memOn .sc

/-- A page that an address leads to. -/
def pageAt (s : State) (acc : Access) (va : W64) : Page :=
  match (s.translate (.core 0) 0 va acc).1 with
  | .ok p => p
  | .error _ => { pa := 0, peer := 0, remote := false, kind := .rc, fmt := 0, geo := 0, base := 0, size := 0 }
theorem test_page : pageAt mem_ .read 0x40001003 = { pa := 0x40001003, peer := 0, remote := false, kind := .rc, fmt := 0, geo := 0, base := 2 ^ 30, size := 2 ^ 20 } := by
  decide +kernel

/-- An answer is `.ok a`, and the state is s. -/
def okIs {α β : Type} [DecidableEq α] (x : Except β α × State) (a : α) (s : State) : Bool :=
  match x.1 with
  | .ok b => decide (b = a) && decide (x.2 = s)
  | .error _ => false
theorem of_okIs {α β : Type} [DecidableEq α] {x : Except β α × State} {a : α} {s : State} (h : okIs x a s = true) : x = (.ok a, s) := by
  obtain ⟨y, z⟩ := x
  cases y with
  | error e => cases h
  | ok b =>
    simp only [okIs, Bool.and_eq_true, decide_eq_true_eq] at h
    rw [h.1, h.2]
/-- An answer is `.error e`. -/
def failsAs {α β : Type} [DecidableEq β] (x : Except β α × State) (e : β) : Bool :=
  match x.1 with
  | .ok _ => false
  | .error b => decide (b = e)
theorem of_failsAs {α β : Type} [DecidableEq β] {x : Except β α × State} {e : β} (h : failsAs x e = true) : ∃ w, x = (.error e, w) := by
  obtain ⟨y, z⟩ := x
  cases y with
  | ok a => cases h
  | error b =>
    simp only [failsAs, decide_eq_true_eq] at h
    exact ⟨z, by rw [h]⟩

/-- The n bytes at va are reached. -/
def reached (s : State) (acc : Access) (va : W64) (n : Nat) (p : Page) : Bool :=
  okIs (s.translateSpan (.core 0) 0 va n acc (n / 4096 + 2)) [(p, n)] s && p.local && !s.poisonedIn [(p, n)]
theorem reaches {s : State} {x : Ctx} {acc : Access} {va : W64} {n : Nat} {p : Page} (hu : x.unit = .core 0) (ha : x.c.asid = 0) (h : reached s acc va n p = true) :
    Reaches s x acc va n p := by
  simp only [reached, Bool.and_eq_true, Bool.not_eq_true'] at h
  unfold Reaches
  rw [hu, ha]
  exact ⟨of_okIs h.1.1, h.1.2, h.2⟩

/-- 4 bytes of each lane; the data come at once, or later. -/
theorem test_met_Load : ∀ t ∈ [none, some 7], ∃ s x, Issuing s x ∧ Fresh s x ∧ s.late = t ∧ x.lanes 0 ≠ [] ∧ Holds x [(1, 1), (4, 1)]
    ∧ ∀ l ∈ x.lanes 0, Reaches s x .read (x.laneAddr ⟨0, 4, 5, 1, 7, 2⟩ l) 4 (pageAt s .read (x.laneAddr ⟨0, 4, 5, 1, 7, 2⟩ l)) := by
  intro t ht
  have h : ∀ t ∈ [none, some 7], let s := { mem_ with late := t }
      ok s = true ∧ ((ctx s).unit = .core 0 ∧ (ctx s).c.asid = 0 ∧ (ctx s).lanes 0 ≠ [] ∧ recRegs (ctx s).c.record = 64)
      ∧ ∀ l ∈ (ctx s).lanes 0, reached s .read ((ctx s).laneAddr ⟨0, 4, 5, 1, 7, 2⟩ l) 4 (pageAt s .read ((ctx s).laneAddr ⟨0, 4, 5, 1, 7, 2⟩ l)) = true := by
    decide +kernel
  obtain ⟨h1, ⟨h2, h3, h4, h5⟩, h6⟩ := h t ht
  exact met _ h1 ⟨rfl, h4, by unfold Holds; rw [h5]; decide, fun l hl => reaches h2 h3 (h6 l hl)⟩

/-- A table of pages under ASID 0 whose one leaf, at virtual address 2^36, is mapped, readable and writable, and not present. -/
def absent (s : State) : State :=
  { s with descs := [{ unit := .core 0, asid := 0, root := at_ 0x8000, groups := at_ 0xA000, guest := 0, valid := true }] }
    |> stored 0x8000 16 (at_ 0x9000 + 1) |> stored 0x9010 16 (2 ^ 64 + 27)
def absent_ : State := absent (memOn .rc 0 { memRegs with s := [(11, 0x10)] })
theorem test_met_Load_absent : ∃ s x w, Issuing s x ∧ Fresh s x ∧ Holds x [(1, 1), (4, 4)]
    ∧ FindsAbsent x 16 (x.laneAddr ⟨3, 4, 5, 1, 7, 4⟩) s (x.lanes 3) w := by
  obtain ⟨w, hw⟩ := of_failsAs (x := absent_.translateSpan (ctx absent_).unit (ctx absent_).c.asid ((ctx absent_).laneAddr ⟨3, 4, 5, 1, 7, 4⟩ 0) 16 .read (16 / 4096 + 2))
    (e := (.notPresent (at_ 0x9010), (ctx absent_).laneAddr ⟨3, 4, 5, 1, 7, 4⟩ 0)) (by decide +kernel)
  have hl : (ctx absent_).lanes 3 = [0] := by decide +kernel
  refine ⟨absent_, ctx absent_, w, ok_issuing (by decide +kernel), ok_fresh (by decide +kernel), by unfold Holds; decide +kernel, ?_⟩
  rw [hl]
  exact ⟨_, w, hw, rfl⟩

/-- Hint words before the instruction. -/
def hinted (hs : List W32) (s : State) : State :=
  { s with crews := s.crews.map (fun c => (c.1, { c.2 with gangs := c.2.gangs.map (fun g => (g.1, { g.2 with
      slices := g.2.slices.map (fun x => { x with hints := hs, pc := x.pc + BitVec.ofNat 64 (4 * hs.length) }) })) })) }
theorem test_met_LoadElement : ∃ s x, Issuing s x ∧ Fresh s x ∧ Holds x [(1, 1), (4, 2)] ∧ x.fmtHint = some (3, 0) ∧ blockFormat 3 = false ∧ 8 ≤ elemBits 3
    ∧ ∀ l ∈ x.lanes 3, vaNat (x.laneBase 5 l) % 2 = 0
      ∧ Reaches s x .read (x.laneBase 5 l + BitVec.ofNat 64 (x.laneIndex 1 l * elemBits 3 / 8)) 2 (pageAt s .read 0x40001000) :=
  met (hinted [0xF9800003] mem_) (by decide +kernel) ⟨by unfold Holds; decide +kernel, by decide +kernel, rfl, by decide, fun l hl => by
    have h : ∀ l ∈ (ctx (hinted [0xF9800003] mem_)).lanes 3, l = 0 := by decide +kernel
    cases h l hl
    exact ⟨by decide +kernel, reaches (by decide +kernel) (by decide +kernel) (by decide +kernel)⟩⟩

theorem test_met_UniformLoads : (∃ s x, Issuing s x ∧ Fresh s x ∧ x.uslice = some 0 ∧ Reaches s x .read (x.ubase 0 10) 8 (pageAt s .read 0x40001000))
    ∧ ∃ s x, Issuing s x ∧ Fresh s x ∧ x.uslice = some 0 ∧ Holds x [(62, 2)] ∧ ∀ l, l < 32 → (x.on 7 l && x.g.regs.getP 4 l) = true →
        Reaches s x .read (x.ubase 0 10 + BitVec.ofNat 64 (((List.range l).countP (fun l => x.on 7 l && x.g.regs.getP 4 l)) * 8)) 8
          (pageAt s .read (if l = 1 then 0x40001000 else 0x40001008)) :=
  ⟨met mem_ (by decide +kernel) ⟨by decide +kernel, reaches (by decide +kernel) (by decide +kernel) (by decide +kernel)⟩,
    met mem_ (by decide +kernel) ⟨by decide +kernel, by unfold Holds; decide +kernel, fun l hl h => by
      have h2 : ∀ l, l < 32 → ((ctx mem_).on 7 l && (ctx mem_).g.regs.getP 4 l) = true → l = 1 ∨ l = 3 := by decide +kernel
      obtain rfl | rfl := h2 l hl h
      · exact reaches (by decide +kernel) (by decide +kernel) (by decide +kernel)
      · exact reaches (by decide +kernel) (by decide +kernel) (by decide +kernel)⟩⟩

/-- No core holds a copy of a PV line. -/
theorem published {s : State} {x : Ctx} {fl : Bool} {p : Page} {n : Nat} (h : (s.core x.c.core).pv = []) : Published s x fl p n :=
  fun _ _ _ l _ _ hl => by simp [State.pvLine, h, SMap.find] at hl
/-- Of one lane of each store, and of the lanes of `st`: a 16-byte store to the last 16 bytes of a line, with `.fl` or without. -/
theorem test_met_Stores : (∃ s x, Issuing s x ∧ Fresh s x ∧ x.lanes 3 = [0] ∧ Holds x [(1, 1), (4, 4)]
      ∧ Reaches s x .write (x.laneAddr ⟨3, 4, 5, 1, 0, 4⟩ 0) 16 (pageAt s .write 0x40001070) ∧ (pageAt s .write 0x40001070).pa % 128 + 16 ≤ 128
      ∧ (∀ fl, Published s x fl (pageAt s .write 0x40001070) 16) ∧ ∀ l ∈ x.lanes 3, Published s x false (pageAt s .write 0x40001070) 16)
    ∧ (∃ s x, Issuing s x ∧ Fresh s x ∧ x.lanes 3 = [0] ∧ Holds x [(1, 1), (4, 1)] ∧ x.fmtHint = some (5, 0) ∧ vaNat (x.laneBase 5 0) % 1 = 0
      ∧ Reaches s x .write (x.laneBase 5 0 + BitVec.ofNat 64 (x.laneIndex 1 0 * elemBits 5 / 8)) 1 (pageAt s .write 0x40001000)
      ∧ (pageAt s .write 0x40001000).pa % 128 + 1 ≤ 128 ∧ ∀ fl, Published s x fl (pageAt s .write 0x40001000) 1)
    ∧ ∃ s x, Issuing s x ∧ Fresh s x ∧ x.uslice = some 0 ∧ Holds x [(4, 2)] ∧ (x.lanes 7).filter (x.g.regs.getP 3) = [0]
      ∧ Reaches s x .write (x.ubase 0 10) 8 (pageAt s .write 0x40001000) ∧ (pageAt s .write 0x40001000).pa % 128 + 8 ≤ 128
      ∧ Published s x false (pageAt s .write 0x40001000) 8 :=
  ⟨met (memOn .rc 0 { memRegs with s := [(10, 0x40001070)] }) (by decide +kernel) ⟨by decide +kernel, by unfold Holds; decide +kernel,
      reaches (by decide +kernel) (by decide +kernel) (by decide +kernel), by decide +kernel, fun _ => published rfl, fun _ _ => published rfl⟩,
    met (hinted [0xF9800005] mem_) (by decide +kernel) ⟨by decide +kernel, by unfold Holds; decide +kernel, by decide +kernel, by decide +kernel,
      reaches (by decide +kernel) (by decide +kernel) (by decide +kernel), by decide +kernel, fun _ => published rfl⟩,
    met mem_ (by decide +kernel) ⟨by decide +kernel, by unfold Holds; decide +kernel, by decide +kernel,
      reaches (by decide +kernel) (by decide +kernel) (by decide +kernel), by decide +kernel, published rfl⟩⟩

/-- Nothing is in flight. -/
theorem allRead {s : State} {g : Gang} {e : BufEntry} (h : g.loads = []) (h2 : s.fills = []) : AllRead s 0 0 g e := ⟨by simp [h], by simp [h2]⟩
/-- A gang with one buffered entry, which is one event or not. -/
def buffered (op : BufOp) (whole : Bool := true) : State :=
  ofGang { gangOf memRegs with buffer := [{ slices := 255, op := op, whole := whole }] } |> stored 0x1000 4 7
/-- The core holds the line changed by crew 0. -/
def holdingPv (s : State) : State :=
  s.setCore 0 { cache := [(cacheSet (lineOf (at_ 0x1000)), [{ line := lineOf (at_ 0x1000), retain := false }])]
                pv := [(lineOf (at_ 0x1000), { crew := 0, data := [(3, 9)], dirty := true })] }
theorem test_met_HomeSliceWrite : (∀ w ∈ [true, false], ∃ s g e, State.gang? s 0 0 = some g ∧ g.buffer = [e] ∧ AllRead s 0 0 g e
      ∧ e.op = .write .rc (byteWrites (at_ 0x107C) 4 9) ∧ e.whole = w ∧ at_ 0x107C % 128 + 4 ≤ 128 ∧ g.fences = [])
    ∧ (∃ s g e l, State.gang? s 0 0 = some g ∧ g.buffer = [e] ∧ AllRead s 0 0 g e ∧ e.op = .write .pv (byteWrites (at_ 0x107C) 4 9) ∧ e.whole = true
      ∧ s.pvLine (s.coreOf 0) (lineOf (at_ 0x107C)) = some l ∧ (s.core (s.coreOf 0)).holds (lineOf (at_ 0x107C)) = true)
    ∧ (∃ s g e, State.gang? s 0 0 = some g ∧ g.buffer = [e] ∧ AllRead s 0 0 g e ∧ e.op = .write .pv (byteWrites (at_ 0x107C) 4 9) ∧ e.whole = true
      ∧ s.pvLine (s.coreOf 0) (lineOf (at_ 0x107C)) = none ∧ (SMap.getD (s.core (s.coreOf 0)).cache (cacheSet (lineOf (at_ 0x107C))) []).length < 16)
    ∧ ∃ s g e, State.gang? s 0 0 = some g ∧ g.buffer = [e] ∧ AllRead s 0 0 g e ∧ e.op = .reduce .rc (.int .add) 4 [(at_ 0x1000, 9)] := by
  refine ⟨fun w hw => ⟨buffered (.write .rc (byteWrites (at_ 0x107C) 4 9)) w, _, _, rfl, rfl, allRead rfl rfl, rfl, rfl, by decide, rfl⟩,
    ⟨holdingPv (buffered (.write .pv (byteWrites (at_ 0x107C) 4 9))), _, _, { crew := 0, data := [(3, 9)], dirty := true }, rfl, rfl,
      allRead rfl rfl, rfl, rfl, by decide +kernel, by decide +kernel⟩,
    ⟨buffered (.write .pv (byteWrites (at_ 0x107C) 4 9)), _, _, rfl, rfl, allRead rfl rfl, rfl, rfl, by decide +kernel, by decide +kernel⟩,
    ⟨buffered (.reduce .rc (.int .add) 4 [(at_ 0x1000, 9)]), _, _, rfl, rfl, allRead rfl rfl, rfl⟩⟩

theorem test_met_CacheMaintenance : (∃ s x, Issuing s x ∧ Fresh s x ∧ x.uslice = some 0
      ∧ s.rangePages x false [0x40001000, 0x40001080] = (.ok [pageAt s .read 0x40001000, pageAt s .read 0x40001080], s)
      ∧ s.rangePages x true [0x40001000, 0x40001080] = (.ok [pageAt s .read 0x40001000, pageAt s .read 0x40001080], s)
      ∧ (pageAt s .read 0x40001000).kind ≠ .pv ∧ Holds x [(1, 1)])
    ∧ ∃ s x, Issuing s x ∧ Fresh s x ∧ x.uslice = none :=
  ⟨met mem_ (by decide +kernel) ⟨by decide +kernel, of_okIs (by decide +kernel), of_okIs (by decide +kernel), by decide +kernel, by unfold Holds; decide +kernel⟩,
    met (oneSlice 0 (fun x => { x with mask := 0 }) {}) (by decide +kernel) (by decide +kernel)⟩

/-- The word at 0x1010, for lane 0. -/
def located (s : State) (x : Ctx) (acc : Access) (n : Nat) : Bool :=
  okIs (s.placeWord x acc none n n true (x.g.regs.getV2 8 0)) (pageAt s acc 0x40001010) s && !(pageAt s acc 0x40001010).remote
    && decide ((pageAt s acc 0x40001010).pa % n = 0)
theorem located_of {s : State} {x : Ctx} {acc : Access} {n : Nat} (h : located s x acc n = true) : Located s x acc 8 0 n (pageAt s acc 0x40001010) := by
  simp only [located, Bool.and_eq_true, Bool.not_eq_true', decide_eq_true_eq] at h
  exact ⟨of_okIs h.1.1, h.1.2, h.2⟩
theorem test_met_Atomics : ∃ s x, Issuing s x ∧ Fresh s x ∧ x.lanes 3 = [0] ∧ Holds x ([(4, 1), (8, 2)] ++ bRegs 0 1 1) ∧ Holds x [(4, 4), (8, 2), (12, 4)]
    ∧ Located s x .atomic 8 0 4 (pageAt s .atomic 0x40001010) ∧ Located s x .atomic 8 0 2 (pageAt s .atomic 0x40001010)
    ∧ Located s x .atomic 8 0 8 (pageAt s .atomic 0x40001010) ∧ Located s x .atomic 8 0 16 (pageAt s .atomic 0x40001010) :=
  met mem_ (by decide +kernel) ⟨by decide +kernel, by unfold Holds; decide +kernel, by unfold Holds; decide +kernel, located_of (by decide +kernel),
    located_of (by decide +kernel), located_of (by decide +kernel), located_of (by decide +kernel)⟩
theorem test_met_Reservations : ∃ s x, Issuing s x ∧ Fresh s x ∧ x.lanes 3 = [0] ∧ Located s x .read 8 0 4 (pageAt s .read 0x40001010)
    ∧ Located s x .read 8 0 8 (pageAt s .read 0x40001010) ∧ Located s x .read 8 0 1 (pageAt s .read 0x40001010)
    ∧ (∀ w ∈ x.g.watches, w.slice ≠ 0 / 4) ∧ s.watchCount (homeOf (lineOf (pageAt s .read 0x40001010).pa * 128)) < 256 :=
  met mem_ (by decide +kernel) ⟨by decide +kernel, located_of (by decide +kernel), located_of (by decide +kernel), located_of (by decide +kernel), by decide +kernel,
    by decide +kernel⟩
/-- A reservation that is held, and one that another location or width has. -/
theorem test_met_reservation : resvOf (ofGang { gangOf memRegs with resv := [(0, { addr := at_ 0x1010, width := 4, age := 0 })] }) (ctx mem_) 0 = some (at_ 0x1010, 4)
    ∧ resvOf mem_ (ctx mem_) 0 = none := by decide +kernel

theorem test_ld : vAfter (.ld ⟨0, 16, 5, 1, 7, 2⟩) mem_ 16 1 = 0x07060504 ∧ vAfter (.ld ⟨3, 16, 5, 1, 7, 0⟩) mem_ 16 0 = 0
    ∧ vAfter (.ld ⟨3, 16, 5, 1, 7, 4⟩) mem_ 19 0 = 0x0F0E0D0C := by decide +kernel
theorem test_ld_absent : pAfter (.ld ⟨3, 4, 5, 1, 2, 4⟩) absent_ 2 = 1 ∧ vAfter (.ld ⟨3, 4, 5, 1, 2, 4⟩) absent_ 4 0 = 0 := by decide +kernel
theorem test_st : memPast (.st ⟨3, 4, 5, 1, 0, 4⟩) mem_ 0x1000 16 = 0x00FFEEDDCCBBAA998877665544332211 := by decide +kernel
theorem test_lds : sAfter (.lds 20 10 7 3) mem_ 7 21 = 0x07060504 := by decide +kernel
theorem test_exld : vAfter (.exld 16 10 7 4 2) mem_ 16 3 = 0x07060504 := by decide +kernel
theorem test_atom : vAfter (.atomAdd ⟨3, 0, 4, 8, 12⟩) mem_ 4 0 = 5 ∧ memAfter (.atomAdd ⟨3, 0, 4, 8, 12⟩) mem_ 0x1010 4 = 12 := by decide +kernel
theorem test_cas128 : memAfter (.cas128 3 4 8 12) mem_ 0x1010 16 = 0x0000000700000005 := by decide +kernel
theorem test_red : memAfter (.redAdd ⟨3, 0, 8, 12⟩) mem_ 0x1010 4 = 5 ∧ memPast (.redAdd ⟨3, 0, 8, 12⟩) mem_ 0x1010 4 = 12 := by decide +kernel
theorem test_lres : vAfter (.lres32 ⟨3, 16, 8⟩) mem_ 16 0 = 5 ∧ vAfter (.scond32 ⟨3, 0, 16, 8, 12⟩) mem_ 16 0 = 1
    ∧ memAfter (.scond32 ⟨3, 0, 16, 8, 12⟩) (after (.lres32 ⟨3, 16, 8⟩) mem_) 0x1010 4 = 7 := by decide +kernel
theorem test_illegal_kind : trapAfter (.atomAdd ⟨3, 0, 4, 8, 12⟩) (memOn .ws) = [.illegalKind] := by decide +kernel

/-! ### Joining, waiting, fences -/

/-- Two parts, slices 0 to 3 and 4 to 7. -/
def twoParts (r : Regs) : Gang := let g := gangOf r; { g with slices := g.slices.mapIdx (fun k x => { x with part := if k < 4 then 0 else 4, pc := x.pc + (if k < 4 then 0 else 8) }) }
/-- Every slice waits, at one place, with a code. -/
def waiting (code num operand : Nat) (g : Gang) : Gang :=
  { g with slices := g.slices.map (fun x => { x with wait := some { code := code, num := num, operand := operand, since := 0, len := 4 } }) }
/-- A crew of one gang, as it is at the issue of that gang, with a record, tiles and a phase. -/
def ofCrew (f : Crew → Crew) (s : State) : State := { s with crews := s.crews.map (fun c => (c.1, f c.2)) }

theorem sCanon {g : Gang} (h : (decide (g.regs.s.Pairwise (fun a b => a.1 < b.1)) && decide (∀ p ∈ g.regs.s, p.2 ≠ 0)) = true) : SCanon g := by
  simp only [Bool.and_eq_true, decide_eq_true_eq] at h
  exact h
/-- Slice 5 has another `s4`. -/
def differing : Regs := { s := [(4, 3), (68, 3), (324, 9)] }
theorem test_met_Regang : (∃ s x, Issuing s x ∧ Fresh s x ∧ SCanon x.g ∧ x.part = x.g.liveSlices ∧ x.part.head? = some 0)
    ∧ (∃ s x, Issuing s x ∧ Fresh s x ∧ OthersRun x)
    ∧ ∃ s g u, State.gang? s 0 0 = some g ∧ SCanon g ∧ g.liveSlices.head? = some 0 ∧ (g.slice 0).wait = some u
      ∧ ∀ k ∈ g.liveSlices, (g.slice k).waitKey = (12, 0) ∧ (g.slice k).pc = BitVec.ofNat 64 codeBase :=
  ⟨met (ofRegs differing) (by decide +kernel) ⟨sCanon (by decide +kernel), by decide +kernel, by decide +kernel⟩,
    met (ofGang (twoParts {})) (by decide +kernel) ⟨4, by decide +kernel⟩,
    ofGang (waiting 12 0 0 (gangOf differing)), _, _, rfl, sCanon (by decide +kernel), by decide +kernel, rfl, by decide +kernel⟩

/-- A watch of slice 0, and an overflow bit. -/
def watching (fired : Bool) (o : BitVec 8) : State :=
  ofGang { gangOf {} with watches := [{ slice := 0, line := 1, fired := fired }], overflow := o }
/-- Group 0's entry at 0xA000: two members, co-resident, valid (or not); the group is that of `codeRecord`. -/
def grouped (e : Nat) (g : Gang) : State := absent (ofGang g) |> stored 0xA000 16 e
theorem test_met_WaitingInstructions : (∃ s x, Issuing s x ∧ Fresh s x ∧ x.g.watches.filter (fun w => x.part.contains w.slice) = [] ∧ x.g.overflow &&& x.mask = 0)
    ∧ (∃ s x, Issuing s x ∧ Fresh s x ∧ ∃ w ∈ x.g.watches.filter (fun w => x.part.contains w.slice), w.fired = true)
    ∧ (∃ s x, Issuing s x ∧ Fresh s x ∧ x.g.overflow &&& x.mask ≠ 0)
    ∧ (∃ s x, Issuing s x ∧ Fresh s x ∧ x.g.watches.filter (fun w => x.part.contains w.slice) ≠ []
      ∧ (∀ w ∈ x.g.watches.filter (fun w => x.part.contains w.slice), w.fired = false) ∧ x.g.overflow &&& x.mask = 0)
    ∧ (∃ s x, Issuing s x ∧ Fresh s x ∧ x.c.phase = .stopping ∧ x.lanes 7 ≠ [])
    ∧ (∃ s x, Issuing s x ∧ Fresh s x ∧ x.uslice = some 0 ∧ OthersRun x ∧ ∃ p w, s.groupEntry x.unit x.c.asid ((x.g.regs.getS 0 4).toNat % 256) = (some (p, w), s)
      ∧ w.getLsbD 17 = true ∧ (x.g.regs.getS 0 4).toNat % 256 ∈ recGroups x.c.record)
    ∧ ∃ s x, Issuing s x ∧ Fresh s x ∧ x.uslice = some 0 ∧ s.groupEntry x.unit x.c.asid ((x.g.regs.getS 0 4).toNat % 256) = (none, s) :=
  ⟨met some_ (by decide +kernel) (by decide +kernel), met (watching true 0) (by decide +kernel) (by decide +kernel),
    met (watching false 0x80) (by decide +kernel) (by decide +kernel), met (watching false 0) (by decide +kernel) (by decide +kernel),
    met (ofCrew (fun c => { c with phase := .stopping }) some_) (by decide +kernel) (by decide +kernel),
    met (grouped 0x30002 (twoParts {})) (by decide +kernel) ⟨by decide +kernel, ⟨4, by decide +kernel⟩, pageAt (grouped 0x30002 (twoParts {})) .read 0x4000A000, 0x30002,
      Prod.ext (by decide +kernel) (by decide +kernel), by decide +kernel, by decide +kernel⟩,
    met (ofGang (gangOf { s := [(4, 255)] })) (by decide +kernel) ⟨by decide +kernel, Prod.ext (by decide +kernel) (by decide +kernel)⟩⟩

theorem test_regang : pcsAfter .regang some_ = List.replicate 8 (BitVec.ofNat 64 (at_ 4)) ∧ (regsAfter .regang (ofRegs differing)).af = flagUD
    ∧ sAfter .regang (ofRegs differing) 5 4 = 3 := by decide +kernel
theorem test_mwait : pcsAfter .mwait some_ = List.replicate 8 (BitVec.ofNat 64 (at_ 4)) ∧ pcsAfter .mwait (watching false 0) = List.replicate 8 (BitVec.ofNat 64 codeBase) := by
  decide +kernel

/-- A part past a fence of a kind, with a store before the fence and lines read behind it. -/
def fenced (kind : Nat) (lines : List Nat) : State :=
  let g := gangOf {}
  ofGang { g with
    slices := g.slices.map (fun x => { x with pc := x.pc + 8 })
    fences := [{ id := 3, slices := 255, kind := kind, scope := 5, lines := lines, rollbacks := 0, regs := { v := [(32, 7)] }, control := g.slices, others := 4, back := false }]
    buffer := if kind = 1 then [] else [{ slices := 255, op := .write .rc (byteWrites (at_ 0x1000) 4 9) }, { slices := 255, op := .fence 3 }] }
theorem test_met_Fences : (∃ s x, Issuing s x ∧ Fresh s x) ∧ (∀ kind ∈ [0, 1, 2], ∃ s x f, State.ctxOf s 0 0 0 = some x ∧ x.g.fences = [f] ∧ f.slices = x.mask ∧ x.mask ≠ 0
      ∧ f.back = false ∧ f.kind = kind ∧ (f.kind ≠ 1 → x.g.buffer = [{ slices := x.mask, op := .write .rc (byteWrites (at_ 0x1000) 4 9), scope := 5 },
          { slices := x.mask, op := .fence f.id, scope := f.scope }] ∧ ∀ l ∈ f.lines, l ≠ at_ 0x1000 / 128))
    ∧ ∃ s x f, State.ctxOf s 0 0 0 = some x ∧ x.g.fences = [f] ∧ f.slices = x.mask ∧ x.mask ≠ 0 ∧ f.back = false ∧ f.lines ≠ [] :=
  ⟨⟨some_, ctx some_, ok_issuing (by decide +kernel), ok_fresh (by decide +kernel)⟩, fun k hk => by
      simp only [List.mem_cons, List.not_mem_nil, or_false] at hk
      rcases hk with rfl | rfl | rfl <;>
        exact ⟨fenced _ [1], ctx (fenced _ [1]), _, getD_some _ (by decide +kernel), rfl, by decide +kernel, by decide +kernel, rfl, rfl, by decide +kernel⟩,
    fenced 0 [1], ctx (fenced 0 [1]), _, getD_some _ (by decide +kernel), rfl, by decide +kernel, by decide +kernel, rfl, by simp⟩
theorem test_fence_complete : memAfter (.fenceComplete ⟨0, 0, 0⟩) (fenced 0 []) 0x1000 4 = 9 ∧ (ctx (after (.fenceComplete ⟨0, 0, 0⟩) (fenced 0 []))).g.fences = [] := by decide +kernel
theorem test_fence_rollback : (regsAfter (.fenceRollback ⟨0, 0, 0⟩) (fenced 0 [1])).getV 1 0 = 7 ∧ pcsAfter (.fenceRollback ⟨0, 0, 0⟩) (fenced 0 [1]) = List.replicate 8 (BitVec.ofNat 64 codeBase) := by
  decide +kernel

/-- A store that the scope of the fence after it does not cover stays buffered: a WS line's, under a fence of the crew. -/
def uncovered : State :=
  let g := gangOf {}
  ofGang { g with
    slices := g.slices.map (fun x => { x with pc := x.pc + 8 })
    fences := [{ id := 3, slices := 255, kind := 0, scope := 1, lines := [], rollbacks := 0, regs := {}, control := g.slices, others := 0, back := false }]
    buffer := [{ slices := 255, op := .write .ws (byteWrites (at_ 0x1000) 4 9), scope := 5 }, { slices := 255, op := .fence 3, scope := 1 }] }
theorem test_met_Fences_scopes : (∃ s x f e m, State.ctxOf s 0 0 0 = some x ∧ x.g.fences = [f] ∧ f.slices = x.mask ∧ x.mask ≠ 0 ∧ f.back = false ∧ x.g.loads = [] ∧ s.fills = [] ∧ f.kind ≠ 1
      ∧ x.g.buffer = [e, m] ∧ e.slices = x.mask ∧ m.slices = x.mask ∧ m.op = .fence f.id ∧ (∀ n, e.op ≠ .fence n) ∧ e.covered f.scope = false)
    ∧ ∃ s x f e m, State.ctxOf s 0 0 0 = some x ∧ x.g.fences = [f] ∧ f.slices = x.mask ∧ x.mask ≠ 0 ∧ f.back = false ∧ x.g.loads = [] ∧ s.fills = [] ∧ f.kind ≠ 1
      ∧ x.g.buffer = [e, m] ∧ e.slices = x.mask ∧ m.slices = x.mask ∧ m.op = .fence f.id ∧ e.op = .write .rc (byteWrites (at_ 0x1000) 4 9) ∧ e.covered f.scope = true :=
  ⟨⟨uncovered, ctx uncovered, _, _, _, getD_some _ (by decide +kernel), rfl, by decide +kernel, by decide +kernel, rfl, rfl, rfl, by decide, rfl, by decide +kernel, by decide +kernel, rfl,
      fun _ h => (by cases h), rfl⟩,
    ⟨fenced 0 [], ctx (fenced 0 []), _, _, _, getD_some _ (by decide +kernel), rfl, by decide +kernel, by decide +kernel, rfl, rfl, rfl, by decide, rfl, by decide +kernel, by decide +kernel, rfl, rfl, rfl⟩⟩
theorem test_fence_scope : ((ctx (after (.fenceComplete ⟨0, 0, 0⟩) uncovered)).g.buffer.length, (ctx (after (.fenceComplete ⟨0, 0, 0⟩) uncovered)).g.fences.length) = (1, 0) := by decide +kernel

/-- Two gangs that have arrived at barrier 15. -/
def arrived : State := ofGangs [(0, waiting 1 15 0 (gangOf {})), (1, waiting 1 15 0 (gangOf {}))]
theorem test_met_BarrierReleases : (∃ s c, State.crew? s 0 = some c ∧ c.phase = .running ∧ c.liveGangs ≠ [] ∧ ∀ q ∈ c.liveGangs, ∀ k ∈ q.2.liveSlices, (q.2.slice k).waitKey = (1, 15))
    ∧ ∃ (s : State) (c : Crew) (p : Page) (w : BitVec 128), s.crews.find? (fun q => q.2.asid == 0 && (recGroups q.2.record).contains 0) = some (0, c)
      ∧ s.groupEntry (.cellarer (dieOfCore c.core)) 0 0 = (some (p, w), s) ∧ w.getLsbD 17 = true ∧ 0 < (w.extractLsb' 64 16).toNat
      ∧ (w.extractLsb' 0 16).toNat ≤ (w.extractLsb' 64 16).toNat + (w.extractLsb' 96 16).toNat ∧ p.pa % 16 = 0 := by
  refine ⟨⟨arrived, _, rfl, rfl, by decide +kernel, by decide +kernel⟩, ?_⟩
  let s : State := { (grouped (0x30002 + 2 ^ 32 * 4294967295 + 2 ^ 64 + 2 ^ 96) (gangOf {})) with
    tlb := [page (.cellarer 0)], descs := [{ unit := .cellarer 0, asid := 0, root := 0, groups := at_ 0xA000, guest := 0, valid := true }] }
  exact ⟨s, { codeCrew with gangs := [(0, gangOf {})] }, pageAt (grouped 0 (gangOf {})) .read 0x4000A000,
    BitVec.ofNat 128 (0x30002 + 2 ^ 32 * 4294967295 + 2 ^ 64 + 2 ^ 96), by decide +kernel,
    Prod.ext (by decide +kernel) (by decide +kernel), by decide +kernel, by decide +kernel, by decide +kernel, by decide +kernel⟩
theorem test_bar_release : pcsAfter (.barRelease 0 15) arrived = List.replicate 8 (BitVec.ofNat 64 (at_ 4)) := by decide +kernel

/-! ### Wakes, tiles and tokens -/

/-- A load of 8 bytes in flight for `v62:63` of lane 5. -/
def flying : State :=
  ofGang { gangOf {} with loads := [{ id := 0, slices := 255, dest := .plain 62 3, start := 0, len := 4, past := none, holds := false
                                      lanes := [{ lane := 5, va := 0x40001000, whole := true, bytes := (List.range 8).map (fun i => { addr := at_ 0x1000 + i, kind := .rc }) }] }] }
    |> stored 0x1000 8 0x0706050403020100
/-- A part waits for the token of tile 31 as it was first allocated; the tile there now has number n. -/
def tokenWait (n : Nat) : State :=
  (ofGang (waiting 13 0 0xC1F (gangOf {}))).setCluster 0 { accs := [(31, { id := n, asid := 0, blocks := 1, token := none, data := [], stale := none })] }
theorem test_met_Wakes : (∀ c ∈ [(0, false), (0x80, true)], ∃ s x w, State.ctxOf s 0 0 0 = some x ∧ (x.g.slice x.low).wait = some w ∧ w.code = 6 ∧ x.c.phase = .running
      ∧ s.waitHolds 0 x.c x.g x.low = c.2)
    ∧ (∀ c ∈ [(7, true), (8, false)], ∃ s x w, State.ctxOf s 0 0 0 = some x ∧ (x.g.slice x.low).wait = some w ∧ w.code = 5 ∧ s.waitHolds 0 x.c x.g x.low = c.2)
    ∧ (∃ s x w, State.ctxOf s 0 0 0 = some x ∧ (x.g.slice x.low).wait = some w ∧ w.code = 3 ∧ w.num = 1 ∧ (x.g.slice x.low).remote = 0
      ∧ x.g.loads = [])
    ∧ (∃ s x f l, State.ctxOf s 0 0 0 = some x ∧ x.c.phase = .running ∧ x.g.loads = [f] ∧ f.slices = x.mask ∧ x.mask ≠ 0 ∧ f.failed = none ∧ s.fills = []
      ∧ f.lanes = [l] ∧ l.whole = true ∧ l.lane < 32 ∧ l.bytes = (List.range 8).map (fun i => { addr := at_ 0x1000 + i, kind := .rc }) ∧ f.dest = .plain 62 3)
    ∧ (∀ n ∈ [0, 1], ∃ s x w a, State.ctxOf s 0 0 0 = some x ∧ (x.g.slice x.low).wait = some w ∧ w.code = 13 ∧ x.c.phase = .running
      ∧ s.acc? (clusterOfCore x.c.core) x.c.asid w.operand = some a ∧ a.id = n ∧ w.num = 0 ∧ a.token = none)
    ∧ (∃ s x h, State.ctxOf s 0 0 0 = some x ∧ (s.core x.c.core).held.find? (fun q => q.1 == .part ⟨0, 0, 0⟩) = some h ∧ 32 ≤ (s.core x.c.core).filter.length)
    ∧ ∃ s x w, State.ctxOf s 0 0 0 = some x ∧ x.pageWait = some w ∧ w.num = 0 ∧ (s.core x.c.core).held = [(.part ⟨0, 0, 0⟩, [(x.c.asid, 4096, 1, 0)])]
      ∧ (s.core x.c.core).filter = [] := by
  refine ⟨fun c hc => ?_, fun c hc => ?_, ?_, ?_, fun n hn => ?_, ?_, ?_⟩
  · simp only [List.mem_cons, List.not_mem_nil, or_false] at hc
    rcases hc with rfl | rfl
    · exact ⟨ofGang (waiting 6 0 0 (gangOf {})), ctx (ofGang (waiting 6 0 0 (gangOf {}))), _, getD_some _ (by decide +kernel), rfl, rfl, rfl, by decide +kernel⟩
    · exact ⟨ofGang { waiting 6 0 0 (gangOf {}) with overflow := 0x80 }, ctx (ofGang { waiting 6 0 0 (gangOf {}) with overflow := 0x80 }), _,
        getD_some _ (by decide +kernel), rfl, rfl, rfl, by decide +kernel⟩
  · simp only [List.mem_cons, List.not_mem_nil, or_false] at hc
    rcases hc with rfl | rfl
    · exact ⟨stored 0x1000 8 7 (ofGang (waiting 5 7 0x40001000 (gangOf {}))), ctx (stored 0x1000 8 7 (ofGang (waiting 5 7 0x40001000 (gangOf {})))), _,
        getD_some _ (by decide +kernel), rfl, rfl, by decide +kernel⟩
    · exact ⟨stored 0x1000 8 7 (ofGang (waiting 5 8 0x40001000 (gangOf {}))), ctx (stored 0x1000 8 7 (ofGang (waiting 5 8 0x40001000 (gangOf {})))), _,
        getD_some _ (by decide +kernel), rfl, rfl, by decide +kernel⟩
  · exact ⟨ofGang (waiting 3 1 0 (gangOf {})), ctx (ofGang (waiting 3 1 0 (gangOf {}))), _, getD_some _ (by decide +kernel), rfl, rfl, rfl, by decide +kernel, rfl⟩
  · exact ⟨flying, ctx flying, _, _, getD_some _ (by decide +kernel), rfl, rfl, by decide +kernel, by decide +kernel, rfl, rfl, rfl, rfl, by decide, rfl, rfl⟩
  · have h : ∀ n ∈ [0, 1], ((tokenWait n).ctxOf 0 0 0).isSome = true ∧ ((ctx (tokenWait n)).g.slice (ctx (tokenWait n)).low).wait = some { code := 13, num := 0, operand := 0xC1F, since := 0, len := 4 }
        ∧ (ctx (tokenWait n)).c.phase = .running ∧ (tokenWait n).acc? (clusterOfCore (ctx (tokenWait n)).c.core) (ctx (tokenWait n)).c.asid 0xC1F
          = some { id := n, asid := 0, blocks := 1, token := none, data := [], stale := none } := by decide +kernel
    exact ⟨tokenWait n, ctx (tokenWait n), _, _, getD_some _ (h n hn).1, (h n hn).2.1, rfl, (h n hn).2.2.1, (h n hn).2.2.2, rfl, rfl, rfl⟩
  · let s : State := (ofGang (waiting 10 0 0 (gangOf {}))).setCore 0 { held := [(.part ⟨0, 0, 0⟩, [])], filter := List.replicate 32 { asid := 0, page := 0, union := 1, waiters := [] } }
    exact ⟨s, ctx s, _, getD_some _ (by decide +kernel), rfl, by decide⟩
  · let s : State := (ofGang (waiting 10 0 0 (gangOf {}))).setCore 0 { held := [(.part ⟨0, 0, 0⟩, [(0, 4096, 1, 0)])] }
    exact ⟨s, ctx s, { code := 10, num := 0, operand := 0, since := 0, len := 4 }, getD_some _ (by decide +kernel), by decide +kernel, rfl, rfl, rfl⟩

/-- A tile, in format f, of 1 KiB. -/
def tile (pending : Nat := 0) (f : Nat := 0) : Tile := { k := 0, fmt := f, mode := 0, data := [(0, 0x11), (1, 0x22), (4, 0x33), (4 * 255, 0x44)], reads := 0, pending := pending, filled := true }
/-- Slice 0 of a crew, with a view of tile 5 in `s12` to `s15` (its columns one element apart), a size and format for `talloc` in `s16`,
an address in `s10:11`, a read count in `s17`; lane 0 is predicate 3, `v1` of it the last column of a 1 KiB tile. -/
def tiled (t : Option Tile) (e : W32 := 0) (h : W32 := 5) : State :=
  oneSlice 0 id { s := [(10, 0x40001000), (12, h), (13, 1), (15, 0x2000), (16, e), (17, 2)], v := [(32, 255), (64, 0xAABBCCDD)], p := [(3, 1)] }
    |> ofCrew (fun c => { c with tiles := match t with | some x => [(5, x)] | none => [] }) |> stored 0x1000 16 0x0706050403020100
theorem oneSlice_of {x : Ctx} (h : (decide (x.lanes 7 ≠ []) && decide (∀ l ∈ x.lanes 7, l / 4 = 0)) = true) : OneSlice x 0 := by
  simp only [Bool.and_eq_true, decide_eq_true_eq] at h
  exact h

theorem test_met_TileManagement : (∀ e ∈ [(0 : W32), 0x99], ∃ s x, Issuing s x ∧ Fresh s x ∧ OneSlice x 0 ∧ (x.view 0 12).zero = true ∧ (x.view 0 12).level = 0
      ∧ (x.g.regs.getS 0 16).toNat = e.toNat ∧ e.toNat % 16 ≤ 9 ∧ e.toNat / 16 % 32 ≤ 9 ∧ e.toNat / 512 = 0 ∧ s.tileOf (.core x.crew (x.view 0 12).index) = none
      ∧ s.banksUsed x.c.core + 2 ^ (e.toNat % 16) ≤ 512 ∧ s.entriesUsed x.c.core < 1024)
    ∧ (∃ s x, Issuing s x ∧ Fresh s x ∧ OneSlice x 0 ∧ s.tileOf (.core x.crew (x.view 0 12).index) = none ∧ 512 < s.banksUsed x.c.core + 2 ^ ((x.g.regs.getS 0 16).toNat % 16))
    ∧ (∀ p ∈ [0, 1], ∃ s x tl, Issuing s x ∧ Fresh s x ∧ OneSlice x 0 ∧ (x.view 0 12).level ≤ 1 ∧ s.viewSlot x (x.view 0 12) false = .ok (.core 0 5)
      ∧ s.tileOf (.core 0 5) = some tl ∧ tl.pending = p ∧ vaNat (x.g.regs.getS2 0 10) % 128 = 0
      ∧ s.tileRange x .read (x.g.regs.getS2 0 10) (2 ^ tl.k * 1024) = (.ok [(pageAt s .read 0x40001000, 1024)], s)
      ∧ s.tileRange x .write (x.g.regs.getS2 0 10) (2 ^ tl.k * 1024) = (.ok [(pageAt s .write 0x40001000, 1024)], s)
      ∧ (x.g.regs.getS 0 17).toNat < 2 ^ 16)
    ∧ ∃ (s : State) (f : Fill) (tl : Tile), s.fills = [f] ∧ f.crew = some 0 ∧ f.data = none ∧ f.part = some (0, 0, 255) ∧ (∀ y, s.gang? 0 0 = some y → y.loads = []) ∧ f.spans = [{ pa := at_ 0x1000, len := 1024, peer := none, pv := false }] ∧ at_ 0x1000 + 1024 ≤ 2 ^ 39
      ∧ s.tileOf f.slot = some tl := by
  refine ⟨fun e he => ?_, ?_, fun p hp => ?_, ?_⟩
  · simp only [List.mem_cons, List.not_mem_nil, or_false] at he
    rcases he with rfl | rfl
    · obtain ⟨s, x, h1, h2, h3⟩ := met (tiled none 0) (by decide +kernel) (P := fun s x => OneSlice x 0 ∧ (x.view 0 12).zero = true ∧ (x.view 0 12).level = 0
        ∧ (x.g.regs.getS 0 16).toNat = (0 : W32).toNat ∧ s.tileOf (.core x.crew (x.view 0 12).index) = none ∧ s.banksUsed x.c.core + 2 ^ 0 ≤ 512 ∧ s.entriesUsed x.c.core < 1024)
        ⟨oneSlice_of (by decide +kernel), by decide +kernel⟩
      exact ⟨s, x, h1, h2, h3.1, h3.2.1, h3.2.2.1, h3.2.2.2.1, by decide, by decide, by decide, h3.2.2.2.2⟩
    · obtain ⟨s, x, h1, h2, h3⟩ := met (tiled none 0x99) (by decide +kernel) (P := fun s x => OneSlice x 0 ∧ (x.view 0 12).zero = true ∧ (x.view 0 12).level = 0
        ∧ (x.g.regs.getS 0 16).toNat = (0x99 : W32).toNat ∧ s.tileOf (.core x.crew (x.view 0 12).index) = none ∧ s.banksUsed x.c.core + 2 ^ 9 ≤ 512 ∧ s.entriesUsed x.c.core < 1024)
        ⟨oneSlice_of (by decide +kernel), by decide +kernel⟩
      exact ⟨s, x, h1, h2, h3.1, h3.2.1, h3.2.2.1, h3.2.2.2.1, by decide, by decide, by decide, h3.2.2.2.2⟩
  · exact met (ofCrew (fun c => { c with tiles := [(6, { tile with k := 9 })] }) (tiled none 0)) (by decide +kernel) ⟨oneSlice_of (by decide +kernel), by decide +kernel⟩
  · simp only [List.mem_cons, List.not_mem_nil, or_false] at hp
    rcases hp with rfl | rfl
    · exact ⟨tiled (some (tile 0)), ctx (tiled (some (tile 0))), tile 0, ok_issuing (by decide +kernel), ok_fresh (by decide +kernel), oneSlice_of (by decide +kernel), by decide +kernel,
        rfl, by decide +kernel, rfl, by decide +kernel, of_okIs (by decide +kernel), of_okIs (by decide +kernel), by decide +kernel⟩
    · exact ⟨tiled (some (tile 1)), ctx (tiled (some (tile 1))), tile 1, ok_issuing (by decide +kernel), ok_fresh (by decide +kernel), oneSlice_of (by decide +kernel), by decide +kernel,
        rfl, by decide +kernel, rfl, by decide +kernel, of_okIs (by decide +kernel), of_okIs (by decide +kernel), by decide +kernel⟩
  · let f : Fill := { part := some (0, 0, 255), crew := some 0, cluster := 0, key := 5, reads := 1, core := some 0, spans := [{ pa := at_ 0x1000, len := 1024, peer := none, pv := false }] }
    exact ⟨{ tiled (some (tile 1)) with fills := [f] }, f, tile 1, rfl, rfl, rfl, rfl, fun y h => by cases h; rfl, rfl, by decide, by decide +kernel⟩

/-- An answer is `.ok a`. -/
def isOk {α β : Type} [DecidableEq α] (x : Except β α) (a : α) : Bool :=
  match x with
  | .ok b => decide (b = a)
  | .error _ => false
theorem of_isOk {α β : Type} [DecidableEq α] {x : Except β α} {a : α} (h : isOk x a = true) : x = .ok a := by
  cases x with
  | error e => cases h
  | ok b => simp only [isOk, decide_eq_true_eq] at h; rw [h]

/-- The last element of a tile. -/
theorem test_met_TileAccess : (∀ w ∈ [(0, 1023), (1, 511), (2, 255), (3, 127)], ∃ s x, Issuing s x ∧ Fresh s x
      ∧ OneElem s x 3 12 (BitVec.ofNat 32 w.2) false 0 (8 * 2 ^ w.1) (.core 0 5) (tile 0) w.2)
    ∧ (∃ s x, Issuing s x ∧ Fresh s x ∧ x.fmtHint = none ∧ OneElem s x 3 12 (x.g.regs.getV 1 0) false 0 32 (.core 0 5) (tile 0) 255)
    ∧ (∃ s x e, Issuing s x ∧ Fresh s x ∧ x.lanes 3 = [0] ∧ s.remoteElem x 12 (srcOf x.g.regs 0 1) 0 = .ok (some (.core 0 5), e, ((255 : Nat) : Int))
      ∧ s.tileOf (.core 0 5) = some (tile 0))
    ∧ ∃ s x, Issuing s x ∧ Fresh s x ∧ x.lanes 3 = [0] ∧ s.remoteElem x 12 (srcOf x.g.regs 0 1) 0 = .ok (none, 0, 0) := by
  let s1 := ofCrew (fun c => { c with rank := some (0, 0) }) (absent (tiled (some (tile 0)))) |> stored 0xA000 16 0x30002
  let s2 := absent (tiled (some (tile 0))) |> stored 0xA000 16 0x30002
  refine ⟨fun w hw => ?_, ?_, ⟨s1, ctx s1, 5 + 4096, ok_issuing (by decide +kernel), ok_fresh (by decide +kernel), by decide +kernel, of_isOk (by decide +kernel), by decide +kernel⟩,
    ⟨s2, ctx s2, ok_issuing (by decide +kernel), ok_fresh (by decide +kernel), by decide +kernel, of_isOk (by decide +kernel)⟩⟩
  · refine met (tiled (some (tile 0))) (by decide +kernel) ?_
    unfold OneElem
    refine ⟨by decide +kernel, of_isOk (by decide +kernel), by decide +kernel, rfl, rfl, ?_, ?_⟩
    · revert w; decide +kernel
    · revert w; decide +kernel
  · refine met (tiled (some (tile 0))) (by decide +kernel) ⟨by decide +kernel, ?_⟩
    unfold OneElem
    exact ⟨by decide +kernel, of_isOk (by decide +kernel), by decide +kernel, rfl, rfl, by decide +kernel, by decide +kernel⟩

/-- The slices of gang 0 keep an outcome. -/
def remotely (r : Nat) (s : State) : State := ofCrew (fun c => { c with gangs := c.gangs.map (fun g => (g.1, { g.2 with slices := g.2.slices.map (fun x => { x with remote := r }) })) }) s
/-- Accumulator 31 of cluster 0, its token held by a crew. -/
def withAcc (token : Option Nat) (r : Nat := 0) : State := (remotely r (tiled none 0 0xC1F)).setCluster 0 { accs := [(31, { id := 0, asid := 0, blocks := 1, token := token, data := [], stale := none })] }
def freeAcc (t : Option Nat) : Acc := { id := 0, asid := 0, blocks := 1, token := t, data := [], stale := none }
theorem test_met_Tokens : ∀ c ∈ [(none, 0), (some 0, 0), (some 1, 0), (none, 4)], ∃ s x a, Issuing s x ∧ Fresh s x ∧ OneSlice x 0
    ∧ s.acc? (clusterOfCore x.c.core) x.c.asid (x.view 0 12).handle = some a ∧ a.token = c.1 ∧ (x.g.slice x.low).remote = c.2 := by
  intro c hc
  have h : ∀ c ∈ [(none, 0), (some 0, 0), (some 1, 0), (none, 4)], let s := withAcc c.1 c.2
      ok s = true ∧ (decide ((ctx s).lanes 7 ≠ []) && decide (∀ l ∈ (ctx s).lanes 7, l / 4 = 0)) = true
      ∧ s.acc? (clusterOfCore (ctx s).c.core) (ctx s).c.asid ((ctx s).view 0 12).handle = some (freeAcc c.1) ∧ ((ctx s).g.slice (ctx s).low).remote = c.2 := by decide +kernel
  obtain ⟨h1, h2, h3, h4⟩ := h c hc
  exact ⟨_, _, freeAcc c.1, ok_issuing h1, ok_fresh h1, oneSlice_of h2, h3, rfl, h4⟩

theorem test_talloc : sAfter (.talloc 20 12 16) (tiled none 0) 0 20 = 0 ∧ ((after (.talloc 20 12 16) (tiled none 0x21)).tileOf (.core 0 5)).map (fun t => (t.k, t.fmt)) = some (1, 2) := by
  decide +kernel
theorem test_tld : vAfter (.tld 3 0 2 20 12 1) (tiled (some (tile 0))) 20 0 = 0x44 ∧ trapAfter (.tld 3 0 3 20 12 1) (tiled (some (tile 0))) = [.tileRange] := by decide +kernel
theorem test_tst : ((after (.tst 3 0 2 2 12 1) (tiled (some (tile 0)))).slotByte (.core 0 5) 1020) = 0xDD := by decide +kernel
theorem test_tflush : [0x1000, 0x1001, 0x1002, 0x1004].map (byteStored (.tflush 10 12) (tiled (some (tile 0)))) = [some 0x11, some 0x22, some 0, some 0x33] := by decide +kernel
theorem test_load_arrives : (regsAfter (.loadDataArrival ⟨⟨0, 0, 0⟩, 0⟩) flying).getV 63 5 = 0x07060504 ∧ (regsAfter (.loadDataArrival ⟨⟨0, 0, 0⟩, 0⟩) flying).getV 62 4 = 0 := by decide +kernel
theorem test_macq : ((after (.macq 12) (withAcc none)).acc? 0 0 0xC1F).map (·.token) = some (some 0) ∧ trapAfter (.mrel 12) (withAcc (some 1)) = [.accumulatorToken] := by decide +kernel

/-! ### Vintners -/

/-- The Vintner of cluster 0 issues from a context of class 0 at `codeBase`; its translations are those of the page. -/
def vint (f : VCtx → VCtx) (kind : Kind := .rc) (fmt : Nat := 0) (geo : Nat := 0) : State :=
  { State.reset with tlb := [page (.vintner 0) kind fmt geo], cur := .vintner 0 }.setCluster 0
    { vcur := some 0, vctx := [(0, f { die := 0, group := 0, card := codeCard, pc := BitVec.ofNat 64 codeBase, prod := 1 })] }
/-- The context that issues. -/
def vrun (s : State) : VRun :=
  (s.vRun? 0).getD { cluster := 0, cls := 0, k := { die := 0, group := 0, card := codeCard }, pc := 0, start := 0 }
def okV (s : State) : Bool := decide (s.cur = .vintner 0) && (s.vRun? 0).isSome
theorem metV (s : State) (h : okV s = true) {P : State → VRun → Prop} (p : P s (vrun s)) : ∃ s x, VIssuing s x ∧ P s x := by
  simp only [okV, Bool.and_eq_true, decide_eq_true_eq] at h
  exact ⟨s, vrun s, ⟨0, h.1, getD_some _ h.2⟩, p⟩
/-- `s4` holds 3 and `s5` −1. -/
def vsome : State := vint (fun k => { k with s := [(4, 3), (5, 0xFFFFFFFF)] })
theorem test_met_VIssuing : ∃ s x, VIssuing s x ∧ x.k.hints = [] := metV vsome (by decide +kernel) (by decide +kernel)
noncomputable def vctxAfter (i : Instr) (s : State) : VCtx := (vrun (after i s)).k
theorem test_vintner_add : (vctxAfter (.add ⟨7, 1, 6, 4, 5⟩) vsome).getS 6 = 2 ∧ (vctxAfter (.br 7 0 4) vsome).pc = BitVec.ofNat 64 (at_ 16) := by decide +kernel

/-! ### Work -/

/-- A record of class 0 for one gang of 64 registers, no group, its frame at 0x10000 of the page. -/
def classRec (code : Nat := codeBase) : Nat := code + 2 ^ 64 * at_ 0x10000 + 2 ^ 160 + 64 * 2 ^ 168 + 0xFFFFFFFF * 2 ^ 208 + 2 ^ 384 * 5
/-- It stands at 0x1000, where `s4:5` of slice 0 points; a crew whose record has the frame field f, under queues of 2^c places. -/
def launching (c : Nat := 12) (code : Nat := codeBase) (addr : W32 := 0x40001000) : State :=
  (ofRegs { s := [(4, addr)], v := [(32, 7), (33, 8)] } |> stored 0x1000 64 (classRec code)).setDie 0 { cls2 := c }
def recAt : BitVec 512 := BitVec.ofNat 512 (classRec codeBase)
def recAt2 : BitVec 512 := BitVec.ofNat 512 (classRec (codeBase + 2))
theorem of_isOk1 {α β : Type} [DecidableEq α] {x : Except β α × State} {a : α} (h : isOk x.1 a = true) : x = (.ok a, x.2) :=
  Prod.ext (of_isOk h) rfl
/-- The record is read, and its check answers k. -/
def checks (s : State) (r : BitVec 512) (k : Option FaultKind) : Bool :=
  let x := ctx s
  let q := s.readRecord x.unit x.c.asid (x.g.regs.getS2 0 4)
  isOk q.1 (r, []) && decide ((q.2.checkRecord x.die x.c.asid (recService x.c.record) r []).1 = k)
theorem of_checks {s : State} {r : BitVec 512} {k : Option FaultKind} (h : checks s r k = true) : ∃ u w,
    s.readRecord (ctx s).unit (ctx s).c.asid ((ctx s).g.regs.getS2 0 4) = (.ok (r, []), u)
      ∧ u.checkRecord (ctx s).die (ctx s).c.asid (recService (ctx s).c.record) r [] = (k, w) := by
  simp only [checks, Bool.and_eq_true, decide_eq_true_eq] at h
  exact ⟨_, _, of_isOk1 h.1, Prod.ext h.2 rfl⟩
/-- The class queue has room for n records. -/
def roomy (s : State) (n : Nat) : Bool :=
  let x := ctx s
  decide (((SMap.getD (s.die x.die).queues (4 * x.c.guest + recClass recAt) []).filter (fun q => q.crew.isNone)).length + n ≤ 2 ^ (s.die x.die).cls2)
theorem test_met_LaunchAndSpawn : (∃ s x, Issuing s x ∧ Fresh s x ∧ Settled s x ∧ x.hint 5 = none ∧ x.uslice = some 0 ∧ Holds x [(1, 2)]
      ∧ (x.g.regs.getS2 0 4).toNat % 64 ≠ 0)
    ∧ ∀ c ∈ [(launching 12 (codeBase + 2), recAt2, some FaultKind.misalignedCode), (launching, recAt, none), (launching 0, recAt, none)],
      ∃ s x, Issuing s x ∧ Fresh s x ∧ Settled s x ∧ x.hint 5 = none ∧ x.uslice = some 0 ∧ Holds x [(1, 2)] ∧ (x.g.regs.getS2 0 4).toNat % 64 = 0 ∧ ClassRecord c.2.1
        ∧ s = c.1 ∧ x = ctx s ∧ ∃ u w, s.readRecord x.unit x.c.asid (x.g.regs.getS2 0 4) = (.ok (c.2.1, []), u)
          ∧ u.checkRecord x.die x.c.asid (recService x.c.record) c.2.1 [] = (c.2.2, w) := by
  refine ⟨met (launching 12 codeBase 0x40001020) (by decide +kernel) ⟨by unfold Settled; decide +kernel, by decide +kernel, by decide +kernel, by unfold Holds; decide +kernel, by decide +kernel⟩,
    fun c hc => ?_⟩
  have h : ∀ c ∈ [(launching 12 (codeBase + 2), recAt2, some FaultKind.misalignedCode), (launching, recAt, none), (launching 0, recAt, none)],
      ok c.1 = true ∧ Settled c.1 (ctx c.1) ∧ (ctx c.1).hint 5 = none ∧ (ctx c.1).uslice = some 0 ∧ Holds (ctx c.1) [(1, 2)]
      ∧ ((ctx c.1).g.regs.getS2 0 4).toNat % 64 = 0 ∧ ClassRecord c.2.1 ∧ checks c.1 c.2.1 c.2.2 = true := by
    unfold Settled Holds ClassRecord; decide +kernel
  obtain ⟨h1, h2, h3, h4, h5, h6, h7, h8⟩ := h c hc
  exact ⟨c.1, ctx c.1, ok_issuing h1, ok_fresh h1, h2, h3, h4, h5, h6, h7, rfl, rfl, of_checks h8⟩
theorem test_met_LaunchAndSpawn_room : roomy launching 32 = true ∧ roomy (launching 0) 1 = true ∧ roomy (launching 0) 2 = false := by decide +kernel

/-- A counter of n at 0x1010, where `s4:5` points. -/
def counting (n : Nat) : State := ofRegs { s := [(4, 0x40001010)] } |> stored 0x1010 4 n
theorem test_met_JoinCounter : ∀ c ∈ [(0, false), (1, true), (2, true)], ∃ s x p, Issuing s x ∧ Fresh s x ∧ Settled s x ∧ x.hint 0 = none ∧ x.uslice = some 0
    ∧ (x.g.regs.getS2 0 4).toNat % 64 = 16 ∧ s.placeWord x .write (some (.int .add)) 4 1 false (x.g.regs.getS2 0 4) = (.ok p, s) ∧ p.local = true ∧ p.pa % 4 = 0
    ∧ decide ((1 : BitVec 8).toNat ≤ Memory.readNat s.mem p.pa 4) = c.2 := by
  intro c hc
  have h : ∀ c ∈ [(0, false), (1, true), (2, true)], ok (counting c.1) = true ∧ Settled (counting c.1) (ctx (counting c.1)) ∧ (ctx (counting c.1)).hint 0 = none
      ∧ (ctx (counting c.1)).uslice = some 0 ∧ ((ctx (counting c.1)).g.regs.getS2 0 4).toNat % 64 = 16
      ∧ okIs ((counting c.1).placeWord (ctx (counting c.1)) .write (some (.int .add)) 4 1 false ((ctx (counting c.1)).g.regs.getS2 0 4)) (pageAt (counting c.1) .write 0x40001010) (counting c.1) = true
      ∧ (pageAt (counting c.1) .write 0x40001010).local = true ∧ (pageAt (counting c.1) .write 0x40001010).pa % 4 = 0
      ∧ decide ((1 : BitVec 8).toNat ≤ Memory.readNat (counting c.1).mem (pageAt (counting c.1) .write 0x40001010).pa 4) = c.2 := by
    unfold Settled; decide +kernel
  obtain ⟨h1, h2, h3, h4, h5, h6, h7, h8, h9⟩ := h c hc
  exact ⟨counting c.1, ctx (counting c.1), _, ok_issuing h1, ok_fresh h1, h2, h3, h4, h5, of_okIs h6, h7, h8, h9⟩

theorem test_met_ExitAndQuery : (∃ s x, Issuing s x ∧ Fresh s x ∧ OthersRun x)
    ∧ (∃ s x, Issuing s x ∧ Fresh s x ∧ x.part = x.g.liveSlices ∧ x.c.gangs = [(x.gang, x.g)] ∧ x.c.phase = .running
      ∧ ∀ k ∈ x.part, (x.g.slice k).live &&& ~~~ (x.g.slice k).mask = 0)
    ∧ (∃ s x e, Issuing s x ∧ Fresh s x ∧ x.uslice = some 0 ∧ s.groupEntry x.unit x.c.asid ((x.g.regs.getS 0 4).toNat % 256) = (some e, s) ∧ e.2.getLsbD 17 = true
      ∧ (List.range 4).find? (fun i => recGroup x.c.record i == (x.g.regs.getS 0 4).toNat % 256) = some 0)
    ∧ ∃ s x, Issuing s x ∧ Fresh s x ∧ x.uslice = some 0 ∧ s.groupEntry x.unit x.c.asid ((x.g.regs.getS 0 4).toNat % 256) = (none, s) :=
  ⟨met (ofGang (twoParts {})) (by decide +kernel) ⟨4, by decide +kernel⟩, met some_ (by decide +kernel) (by decide +kernel),
    ⟨grouped 0x30002 (gangOf {}), ctx (grouped 0x30002 (gangOf {})), (pageAt (grouped 0x30002 (gangOf {})) .read 0x4000A000, 0x30002), ok_issuing (by decide +kernel),
      ok_fresh (by decide +kernel), by decide +kernel, Prod.ext (by decide +kernel) (by decide +kernel), by decide +kernel, by decide +kernel⟩,
    met (ofGang (gangOf { s := [(4, 255)] })) (by decide +kernel) ⟨by decide +kernel, Prod.ext (by decide +kernel) (by decide +kernel)⟩⟩

theorem test_launch : ((after (.launch 4) (launching)).die 0).queues.map (fun q => q.2.map (·.record)) = [[recAt]]
    ∧ trapAfter (.launch 4) (launching 12 (codeBase + 2)) = [.misalignedCode] := by decide +kernel
theorem test_spawn : (((after (.spawn ⟨1, 4⟩) (launching)).die 0).queues.map (fun q => q.2.map (fun q => recArg1 q.record)) |>.flatten).take 2 = [7, 8] := by decide +kernel
theorem test_jcnt : sAfter (.jcnt 8 4 1) (counting 2) 7 8 = 1 ∧ ((after (.jcnt 8 4 1) (counting 1)).die 0).pushes.map (·.addr) = [0x40001000]
    ∧ trapAfter (.jcnt 8 4 2) (counting 1) = [.joinUnderflow] := by decide +kernel
theorem test_exit : ((after .exit_ some_).crew? 0).map (fun c => decide (c.phase = .exited)) = some true := by decide +kernel
theorem test_gquery : sAfter (.gquery ⟨8, 4⟩) (grouped 0x30002 (gangOf {})) 0 8 = 0x70002 := by decide +kernel

/-! ### Rings -/

/-- A ring of 32 places at 0x1000, its slots at 0x2000, with a tail, a head and a control word; `s4:5` points to it, `s6:7` is v. -/
def ringed (tail head ctl : Nat) (v : W32) : State :=
  ofRegs { s := [(4, 0x40001000), (6, v)] } |> stored 0x1000 24 (at_ 0x2000 + 2 ^ 64 * tail + 2 ^ 128 * head) |> stored 0x1030 4 ctl
    |> stored 0x3000 64 (3 + 2 ^ 64 * 0)
/-- What `Queueable` asks. -/
def queueable (s : State) (n : Nat) (op : Option HomeOp) : Bool :=
  let p := pageAt s .atomic 0x40001000
  okIs (s.placeWord (ctx s) .atomic op n n true 0x40001000) p s && p.local && decide (p.pa % n = 0)
theorem queueable_of {s : State} {n : Nat} {op : Option HomeOp} (h : queueable s n op = true) :
    Queueable s (ctx s) 0x40001000 n op (pageAt s .atomic 0x40001000) := by
  simp only [queueable, Bool.and_eq_true, decide_eq_true_eq] at h
  exact ⟨of_okIs h.1.1, h.1.2, h.2⟩
/-- A part whose uniform `s4:5` is that address, and which has performed everything. -/
def ringOk (s : State) : Bool :=
  ok s && decide ((ctx s).g.buffer = []) && decide (s.wsTags = []) && decide ((ctx s).uslice = some 0) && decide ((ctx s).g.regs.getS2 0 4 = 0x40001000)
theorem metQ (s : State) (n : Nat) (op : Option HomeOp) (h : (ringOk s && queueable s n op) = true) {P : State → Ctx → Page → Prop}
    (p : P s (ctx s) (pageAt s .atomic 0x40001000)) : ∃ s x p, Issuing s x ∧ Fresh s x ∧ Settled s x ∧ x.uslice = some 0
      ∧ Queueable s x (x.g.regs.getS2 0 4) n op p ∧ P s x p := by
  simp only [Bool.and_eq_true] at h
  have h1 := h.1
  simp only [ringOk, Bool.and_eq_true, decide_eq_true_eq] at h1
  exact ⟨s, ctx s, _, ok_issuing h1.1.1.1.1, ok_fresh h1.1.1.1.1, ⟨h1.1.1.1.2, h1.1.1.2⟩, h1.1.2, h1.2 ▸ queueable_of h.2, p⟩
/-- What a push and a new tail look at: the tail, the head, the control word, the value, and whether the entry 64 is refused. -/
def ringIs (s : State) (x : Ctx) (p : Page) : Nat × Nat × Nat × Nat × Bool :=
  (Memory.readNat s.mem (p.pa + 8) 8, Memory.readNat s.mem (p.pa + 16) 8, Memory.readNat s.mem (p.pa + 48) 4, (x.g.regs.getS2 0 6).toNat,
    pushBad (Memory.readNat s.mem (p.pa + 48) 4) 64)
/-- A full ring, a malformed control word, a tail that is behind, one past the entries, the last that is not. -/
theorem test_met_RingWrites : ∀ c ∈ [(32, 0, 5, 64, false), (32, 0, 4, 64, true), (31, 0, 5, 30, false), (31, 0, 5, 33, false), (31, 0, 5, 32, false)],
    ∃ s x p, Issuing s x ∧ Fresh s x ∧ Settled s x ∧ x.uslice = some 0 ∧ Queueable s x (x.g.regs.getS2 0 4) 64 none p ∧ ringIs (asked s x p 64) x p = c := by
  intro c hc
  have h : ∀ c ∈ [(32, 0, 5, 64, false), (32, 0, 4, 64, true), (31, 0, 5, 30, false), (31, 0, 5, 33, false), (31, 0, 5, 32, false)],
      let s := ringed c.1 c.2.1 c.2.2.1 (BitVec.ofNat 32 c.2.2.2.1)
      (ringOk s && queueable s 64 none) = true ∧ ringIs (asked s (ctx s) (pageAt s .atomic 0x40001000) 64) (ctx s) (pageAt s .atomic 0x40001000) = c := by decide +kernel
  exact metQ _ _ _ (h c hc).1 (h c hc).2
/-- A ring with one free place, and the page of the slot. -/
theorem test_met_RingWrites_room : ∃ s x p, Issuing s x ∧ Fresh s x ∧ Settled s x ∧ x.uslice = some 0 ∧ Queueable s x (x.g.regs.getS2 0 4) 64 none p
    ∧ let u := asked s x p 64
      ringIs u x p = (31, 0, 5, 64, false) ∧ ∃ a : Page, u.translate x.unit x.c.asid (BitVec.ofNat 64 (Memory.readNat u.mem p.pa 8 + 8 * 31)) .write = (.ok a, u)
        ∧ a.local = true ∧ a.pa % 8 = 0 ∧ p.pa + 64 ≤ a.pa ∧ NoPvCopy u a.pa := by
  have h : let u := asked (ringed 31 0 5 64) (ctx (ringed 31 0 5 64)) (pageAt (ringed 31 0 5 64) .atomic 0x40001000) 64
      let x := ctx (ringed 31 0 5 64)
      let p := pageAt (ringed 31 0 5 64) .atomic 0x40001000
      okIs (u.translate x.unit x.c.asid (BitVec.ofNat 64 (Memory.readNat u.mem p.pa 8 + 8 * 31)) .write) (pageAt (ringed 31 0 5 64) .write 0x400020F8) u = true := by decide +kernel
  exact metQ (ringed 31 0 5 64) 64 none (by decide +kernel) ⟨by decide +kernel, pageAt (ringed 31 0 5 64) .write 0x400020F8, of_okIs h, by decide +kernel, by decide +kernel, by decide +kernel, noPvCopy (by decide +kernel) _⟩

/-- Blocks at 0x3000: a Decanter card, and one whose op is not the ring's. -/
def submitting (op : Nat) : State := ringed 31 0 (5 + 64) 0x40003000 |> stored 0x3000 64 op
def blockAt (s : State) : List Byte := (List.range 64).map (fun i => Memory.read s.mem (at_ 0x3000 + i))
def submits (s : State) (bad : Bool) : Bool :=
  let p := pageAt s .atomic 0x40001000
  let x := ctx s
  let q := (asked s x p 64).unitRead x.unit x.c.asid (x.g.regs.getS2 0 6) 64 .read
  isOk q.1 (blockAt s)
    && submitBad (Memory.desc q.2.mem p.pa) 2 (x.g.regs.getS2 0 6) (BitVec.ofNat 512 (bytesNat (blockAt s))) == bad
    && !pushBad (Memory.readNat q.2.mem (p.pa + 48) 4) (x.g.regs.getS2 0 6 ||| BitVec.ofNat 64 (16 + 4 * recClass x.c.record))
    && !(Memory.readNat q.2.mem (p.pa + 48) 4).testBit 5
theorem test_met_RingWrites_submit : ∀ c ∈ [(2, false), (3, true)], ∃ s x p, Issuing s x ∧ Fresh s x ∧ Settled s x ∧ x.uslice = some 0
    ∧ Queueable s x (x.g.regs.getS2 0 4) 64 none p ∧ ∃ bs u, (asked s x p 64).unitRead x.unit x.c.asid (x.g.regs.getS2 0 6) 64 .read = (.ok bs, u)
      ∧ submitBad (Memory.desc u.mem p.pa) 2 (x.g.regs.getS2 0 6) (BitVec.ofNat 512 (bytesNat bs)) = c.2
      ∧ pushBad (Memory.readNat u.mem (p.pa + 48) 4) (x.g.regs.getS2 0 6 ||| BitVec.ofNat 64 (16 + 4 * recClass x.c.record)) = false
      ∧ (Memory.readNat u.mem (p.pa + 48) 4).testBit 5 = false := by
  intro c hc
  have h : ∀ c ∈ [(2, false), (3, true)], (ringOk (submitting c.1) && queueable (submitting c.1) 64 none) = true ∧ submits (submitting c.1) c.2 = true := by decide +kernel
  have g := (h c hc).2
  simp only [submits, Bool.and_eq_true, beq_iff_eq, Bool.not_eq_true'] at g
  exact metQ _ _ _ (h c hc).1 ⟨_, _, of_isOk1 g.1.1.1, g.1.1.2, g.1.2, g.2⟩

theorem test_met_RingHead : ∀ c ∈ [7, 8], ∃ s x p, Issuing s x ∧ Fresh s x ∧ Settled s x ∧ x.uslice = some 0 ∧ Queueable s x (x.g.regs.getS2 0 4) 64 none p
    ∧ Memory.readNat (asked s x p 64).mem (p.pa + 8) 8 = c ∧ Memory.readNat (asked s x p 64).mem (p.pa + 16) 8 = 7 := by
  intro c hc
  have h : ∀ c ∈ [7, 8], let s := ringed c 7 5 0
      let p := pageAt s .atomic 0x40001000
      (ringOk s && queueable s 64 none) = true ∧ Memory.readNat (asked s (ctx s) p 64).mem (p.pa + 8) 8 = c ∧ Memory.readNat (asked s (ctx s) p 64).mem (p.pa + 16) 8 = 7 := by decide +kernel
  exact metQ _ _ _ (h c hc).1 (h c hc).2
/-- The word at 0x1000 is 0x40002000. -/
theorem test_met_RingReads : ∀ op ∈ [none, some (HomeOp.int .add)], ∀ c ∈ [(0x40002000, true), (0x40002001, false)], ∃ s x p, Issuing s x ∧ Fresh s x ∧ Settled s x
    ∧ x.uslice = some 0 ∧ Queueable s x (x.g.regs.getS2 0 4) 8 op p ∧ decide ((x.g.regs.getS2 0 6).toNat ≤ Memory.readNat (asked s x p 8).mem p.pa 8) = c.2 := by
  intro op ho c hc
  have h : ∀ op ∈ [none, some (HomeOp.int .add)], ∀ c ∈ [(0x40002000, true), (0x40002001, false)], let s := ringed 9 7 5 (BitVec.ofNat 32 c.1)
      (ringOk s && queueable s 8 op) = true ∧ decide (((ctx s).g.regs.getS2 0 6).toNat ≤ Memory.readNat (asked s (ctx s) (pageAt s .atomic 0x40001000) 8).mem (pageAt s .atomic 0x40001000).pa 8) = c.2 := by decide +kernel
  exact metQ _ _ _ (h op ho c hc).1 (h op ho c hc).2

/-- The page of a Vintner's address. -/
def vpage (s : State) (acc : Access) (va : W64) : Page :=
  match (s.translate (.vintner 0) 0 va acc).1 with
  | .ok p => p
  | .error _ => { pa := 0, peer := 0, remote := false, kind := .rc, fmt := 0, geo := 0, base := 0, size := 0 }
def vring (v : Nat) : State :=
  vint (fun k => { k with s := [(4, 0x40001000), (6, BitVec.ofNat 32 v)] }) |> stored 0x1000 24 (at_ 0x2000 + 2 ^ 64 * 9 + 2 ^ 128 * 7) |> stored 0x1030 4 5
def vrings (s : State) (v : Nat) : Bool :=
  let x := vrun s
  let p := vpage s .atomic 0x40001000
  okV s && okIs (s.vWord x 8 (x.k.getS2 4)) p s && okIs (s.vWord x 64 (x.k.getS2 4)) p s && s.vPerformed x && p.local
    && decide (p.pa % 64 = 0 ∧ Memory.readNat s.mem (p.pa + 8) 8 = 9 ∧ Memory.readNat s.mem (p.pa + 16) 8 + 2 ^ (Memory.readNat s.mem (p.pa + 48) 4 % 32) = 39
      ∧ Memory.readNat s.mem p.pa 8 = 0x40002000 ∧ (x.k.getS2 6).toNat = v)
theorem test_met_RingReads_vintner : ∀ v ∈ [9, 39, 0x40002000, 0x40002001], ∃ s x p, VIssuing s x ∧ s.vWord x 8 (x.k.getS2 4) = (.ok p, s) ∧ s.vWord x 64 (x.k.getS2 4) = (.ok p, s)
    ∧ s.vPerformed x = true ∧ p.local = true ∧ p.pa % 64 = 0 ∧ Memory.readNat s.mem (p.pa + 8) 8 = 9
    ∧ Memory.readNat s.mem (p.pa + 16) 8 + 2 ^ (Memory.readNat s.mem (p.pa + 48) 4 % 32) = 39 ∧ Memory.readNat s.mem p.pa 8 = 0x40002000 ∧ (x.k.getS2 6).toNat = v := by
  intro v hv
  have h : ∀ v ∈ [9, 39, 0x40002000, 0x40002001], vrings (vring v) v = true := by decide +kernel
  have g := h v hv
  simp only [vrings, okV, Bool.and_eq_true, decide_eq_true_eq] at g
  exact ⟨_, vrun _, _, ⟨0, g.1.1.1.1.1.1, getD_some _ g.1.1.1.1.1.2⟩, of_okIs g.1.1.1.1.2, of_okIs g.1.1.1.2, g.1.1.2, g.1.2, g.2⟩

theorem test_qpush : memAfter (.qpush ⟨6, 4⟩) (ringed 31 0 5 64) 0x20F8 8 = 64 ∧ memAfter (.qpush ⟨6, 4⟩) (ringed 31 0 5 64) 0x1008 8 = 32 := by decide +kernel
theorem test_dsub : memAfter (.dsub ⟨6, 4⟩) (submitting 2) 0x20F8 8 = 0x40003010 := by decide +kernel
theorem test_qtail : memAfter (.qtail ⟨6, 4⟩) (ringed 31 0 5 32) 0x1008 8 = 32 ∧ trapAfter (.qtail ⟨6, 4⟩) (ringed 31 0 5 33) = [.malformedCommand] := by decide +kernel
theorem test_qhead : sAfter (.qhead ⟨8, 4⟩) (ringed 8 7 5 0) 3 8 = 7 := by decide +kernel

/-! ### State registers, traps and upcalls -/

/-- A crew whose record is not of a service. -/
def ordinary (s : State) : State := ofCrew (fun c => { c with record := BitVec.ofNat 512 (classRec codeBase) }) s
theorem test_met_StateRegisters : (∃ s x, Issuing s x ∧ NoRecords x ∧ Holds x [(62, 2)] ∧ x.lanes 7 ≠ [])
    ∧ (∃ s x, Issuing s x ∧ Fresh s x ∧ x.uslice = some 0 ∧ recService x.c.record = true)
    ∧ ∃ s x, Issuing s x ∧ Fresh s x ∧ x.uslice = some 0 ∧ recService x.c.record = false :=
  ⟨⟨some_, ctx some_, ok_issuing (by decide +kernel), noRecords (by decide +kernel), by unfold Holds; decide +kernel, by decide +kernel⟩,
    met some_ (by decide +kernel) (by decide +kernel), met (ordinary some_) (by decide +kernel) (by decide +kernel)⟩
theorem test_met_HintsAndReserved : (∃ s x, Issuing s x ∧ NoRecords x ∧ x.hints.length = 2) ∧ (∃ s x, Issuing s x ∧ NoRecords x ∧ x.hints.length = 1)
    ∧ ∃ s x, Issuing s x ∧ NoRecords x ∧ x.hints = [] :=
  ⟨⟨hinted [0xF8000000, 0xF9800003] some_, ctx (hinted [0xF8000000, 0xF9800003] some_), ok_issuing (by decide +kernel), noRecords (by decide +kernel), by decide +kernel⟩,
    ⟨hinted [0xF8000000] some_, ctx (hinted [0xF8000000] some_), ok_issuing (by decide +kernel), noRecords (by decide +kernel), by decide +kernel⟩,
    ⟨some_, ctx some_, ok_issuing (by decide +kernel), noRecords (by decide +kernel), by decide +kernel⟩⟩
theorem test_met_PreciseTraps : ∃ s x, Issuing s x ∧ NoFence x ∧ Fresh s x ∧ NoRecords x ∧ Settled s x ∧ x.uslice = some 0 := by
  obtain ⟨s, x, h1, h2, h3, h4⟩ := met some_ (by decide +kernel) (P := fun s x => Settled s x ∧ x.uslice = some 0) (by unfold Settled; decide +kernel)
  exact ⟨s, x, h1, h2.2.1, h2, h2.1, h3, h4⟩

/-- A part stopped at a trap, with a tag or none, of a kind. -/
def stop (k : FaultKind) (tag : Option Nat) : Stop := { slices := 255, trap := { kind := k, detail := 0 }, addr := BitVec.ofNat 64 codeBase, va := 5, lanes := 15, tag := tag, park := false }
def stopped (k : FaultKind) (tag : Option Nat) (f : Die → Die := id) : State :=
  let s := ofGang { waiting 10 0 0 (gangOf {}) with stops := [stop k tag] }
  s.setDie 0 (f { s.die 0 with fqbase := BitVec.ofNat 64 (at_ 0x4000), mbbase := BitVec.ofNat 64 (at_ 0x8000) })
def call_ (tag : Option Nat) : Upcall := { slices := 255, msg := [1, 2, 3, 4, 5, 6, 7, 8], channel := 3, dest := 62, addr := 0, tag := tag }
def calling_ (tag : Option Nat) (f : Die → Die := id) : State :=
  let s := ofGang { waiting 7 3 0 (gangOf {}) with upcalls := [call_ tag] }
  s.setDie 0 (f { s.die 0 with mbbase := BitVec.ofNat 64 (at_ 0x8000) })
/-- The last slot of the fault queue, and a ring of which one slot is free. -/
theorem test_met_TrapRecords : (∃ (p : PartRef) (s : State) (x : Ctx) (st : Stop), s.ctxOf p.crew p.gang p.slice = some x ∧ x.g.stops = [st] ∧ st.tag = none ∧ st.slices = x.mask ∧ x.mask ≠ 0
      ∧ (s.die x.die).faults = [] ∧ (((s.die x.die).fqtail + 1) % 1024 ≠ (s.die x.die).fqhead) ∧ (s.die x.die).fqtail = 1023
      ∧ ((s.die x.die).fqbase.toNat + 64 * (s.die x.die).fqtail) % 64 = 0 ∧ x.g.fences = [])
    ∧ (∃ s : State, ((s.die 0).mbtail + 1) % 512 = (s.die 0).mbhead)
    ∧ ∃ (s : State) (c : Crew) (g : Gang) (u : Upcall), ((s.die 0).mbtail + 1) % 512 ≠ (s.die 0).mbhead ∧ s.gangsOfDie 0 = [(0, c, 0, g)] ∧ g.upcalls = [u] ∧ u.tag = none ∧ u.msg.length = 8
      ∧ ((s.die 0).mbbase.toNat + 64 * (s.die 0).mbtail) % 64 = 0 := by
  refine ⟨⟨⟨0, 0, 0⟩, stopped .breakpoint none (fun d => { d with fqtail := 1023, fqhead := 1 }), ctx (stopped .breakpoint none (fun d => { d with fqtail := 1023, fqhead := 1 })),
    stop .breakpoint none, getD_some _ (by decide +kernel), by decide +kernel⟩, ⟨calling_ none (fun d => { d with mbtail := 511 }), by decide +kernel⟩,
    calling_ none, { codeCrew with gangs := [(0, { waiting 7 3 0 (gangOf {}) with upcalls := [call_ none] })] }, { waiting 7 3 0 (gangOf {}) with upcalls := [call_ none] }, call_ none, ?_⟩
  decide +kernel
theorem test_met_Resolutions : (∃ (s : State) (c : Crew) (g : Gang) (st : Stop), s.findStop 0 (2 ^ 48 + 6) = some (0, c, 0, g, st) ∧ c.phase = .running ∧ st.trap.kind = .breakpoint)
    ∧ ∃ (s : State) (c : Crew) (g : Gang) (u : Upcall), s.findUpcall 0 6 = some (0, c, 0, g, u) ∧ c.phase = .running ∧ u.dest % 2 = 0 ∧ u.dest < 64 := by
  refine ⟨⟨stopped .breakpoint (some 6), { codeCrew with gangs := [(0, { waiting 10 0 0 (gangOf {}) with stops := [stop .breakpoint (some 6)] })] },
      { waiting 10 0 0 (gangOf {}) with stops := [stop .breakpoint (some 6)] }, stop .breakpoint (some 6), ?_⟩,
    calling_ (some 6), { codeCrew with gangs := [(0, { waiting 7 3 0 (gangOf {}) with upcalls := [call_ (some 6)] })] },
      { waiting 7 3 0 (gangOf {}) with upcalls := [call_ (some 6)] }, call_ (some 6), ?_⟩
  · decide +kernel
  · decide +kernel

theorem test_rds : vAfter (.rdsV 8 0) some_ 8 31 = 31 ∧ vAfter (.rdsV 8 1) some_ 8 31 = 7 ∧ sAfter (.rdsS 8 0xD) some_ 7 8 = 0 ∧ sAfter (.rdsS 8 0xE) some_ 7 8 = 255 := by decide +kernel
theorem test_wrs : (regsAfter (.wrs 4 0x13) some_).te = 3 ∧ trapAfter (.wrs 4 0x11) (ordinary some_) = [.privilegedInstruction]
    ∧ ((after (.wrs 4 0x11) some_).core 0).parkthr = 64 := by decide +kernel
theorem test_hint : ((ctx (after (.hintScope 3) some_)).hints = [0xF9400003]) ∧ trapAfter (.hintScope 3) (hinted [0xF9400003] some_) = [.illegalEncoding] := by decide +kernel
theorem test_brk : trapAfter (.brk 5) some_ = [.breakpoint] ∧ pcsAfter (.brk 5) some_ = List.replicate 8 (BitVec.ofNat 64 codeBase) := by decide +kernel
/-- A breakpoint on a group of a hint and an instruction: a skip goes behind both (R69, R428, R440). -/
theorem test_debug_breakpoint : trapAfter (.debugBreakpoint 2) (stored 0 4 0xF8000000 some_) = [.breakpoint]
    ∧ ((ctx (after (.debugBreakpoint 2) (stored 0 4 0xF8000000 some_))).g.slice 0).wait.map (·.len) = some 8 := by decide +kernel
theorem test_trap_record : memAfter (.trapRecordWrite ⟨0, 0, 0⟩) (stopped .breakpoint none) 0x4000 4 = 0xFF000000 + FaultKind.breakpoint.code := by decide +kernel
theorem test_resolve : pcsAfter (.tresRetry 0 6) (stopped .breakpoint (some 6)) = List.replicate 8 (BitVec.ofNat 64 codeBase)
    ∧ pcsAfter (.tresSkip 0 6) (stopped .breakpoint (some 6)) = List.replicate 8 (BitVec.ofNat 64 (at_ 4))
    ∧ pcsAfter (.tresRedirect 0 6 0x5000) (stopped .breakpoint (some 6)) = List.replicate 8 0x5000 := by decide +kernel
theorem test_upcall : memAfter (.mailboxRecordWrite 0) (calling_ none) 0x8000 8 = 0x200000001 ∧ sAfter (.ureply 0 6 7) (calling_ (some 6)) 2 62 = 7 := by decide +kernel

/-! ### Pages -/

/-- A service crew, and one that is not; `s4:5` is an address, `s6` an operand; lane 0 is predicate 3. -/
def paging (addr : Nat) (v : W32 := 0) (f : State → State := id) : State :=
  f (ofRegs { s := [(4, BitVec.ofNat 32 addr), (5, BitVec.ofNat 32 (addr / 2 ^ 32)), (6, v)], v := [(32, 64)], p := [(3, 1)] })
theorem test_met_PageInstructions : (∃ s x, Issuing s x ∧ Fresh s x ∧ x.uslice = some 0 ∧ recService x.c.record = false)
    ∧ (∀ c ∈ [(0x40001000, true), (2 ^ 56, false)], ∃ s x, Issuing s x ∧ Fresh s x ∧ x.uslice = some 0 ∧ recService x.c.record = true ∧ canonical (x.g.regs.getS2 0 4) = c.2)
    ∧ (∀ c ∈ [(1, 0), (2 ^ 39 - 4096, 1), (2 ^ 39 - 8192, 1)], ∃ s x, Issuing s x ∧ Fresh s x ∧ x.uslice = some 0 ∧ recService x.c.record = true ∧ (x.g.regs.getS2 0 4).toNat = c.1
      ∧ ((x.g.regs.getS2 0 4).toNat % 4096 = 0 ↔ c.1 ≠ 1) ∧ ((x.g.regs.getS2 0 4).toNat + 4096 * (c.2 + 1) ≤ 2 ^ 39 ↔ c.1 ≠ 2 ^ 39 - 4096))
    ∧ (∃ s x, Issuing s x ∧ Fresh s x ∧ x.uslice = some 0 ∧ Holds x [(1, 1)] ∧ ∀ l ∈ (x.lanes 7).filter (x.g.regs.getP 3),
      ∃ g, s.translate x.unit x.c.asid (x.g.regs.getS2 0 4 + (x.g.regs.getV 1 l).setWidth 64) .write = (.ok g, s))
    ∧ ∃ s x, Issuing s x ∧ Fresh s x ∧ x.uslice = some 0 ∧ Holds x [(1, 1)] ∧ (x.lanes 7).filter (x.g.regs.getP 3) = [0]
      ∧ (∃ w, s.translate x.unit x.c.asid (x.g.regs.getS2 0 4 + (x.g.regs.getV 1 0).setWidth 64) .write = (.error (.notPresent (at_ 0x9010)), w))
      ∧ (s.core x.c.core).filter = [] ∧ (s.cluster (clusterOfCore x.c.core)).merge = [] := by
  refine ⟨met (ordinary (paging 0)) (by decide +kernel) (by decide +kernel), fun c hc => ?_, fun c hc => ?_,
    met (paging 0x40001000) (by decide +kernel) ⟨by decide +kernel, by unfold Holds; decide +kernel, fun l hl => ?_⟩,
    met (absent (paging (2 ^ 36))) (by decide +kernel) ⟨by decide +kernel, by unfold Holds; decide +kernel, by decide +kernel, of_failsAs (by decide +kernel), by decide +kernel, by decide +kernel⟩⟩
  · have h : ∀ c ∈ [(0x40001000, true), (2 ^ 56, false)], ok (paging c.1) = true ∧ (ctx (paging c.1)).uslice = some 0 ∧ recService (ctx (paging c.1)).c.record = true
        ∧ canonical ((ctx (paging c.1)).g.regs.getS2 0 4) = c.2 := by decide +kernel
    exact met _ (h c hc).1 (h c hc).2
  · have h : ∀ c ∈ [(1, 0), (2 ^ 39 - 4096, 1), (2 ^ 39 - 8192, 1)], ok (paging c.1) = true ∧ (ctx (paging c.1)).uslice = some 0 ∧ recService (ctx (paging c.1)).c.record = true
        ∧ ((ctx (paging c.1)).g.regs.getS2 0 4).toNat = c.1 ∧ (((ctx (paging c.1)).g.regs.getS2 0 4).toNat % 4096 = 0 ↔ c.1 ≠ 1)
        ∧ (((ctx (paging c.1)).g.regs.getS2 0 4).toNat + 4096 * (c.2 + 1) ≤ 2 ^ 39 ↔ c.1 ≠ 2 ^ 39 - 4096) := by decide +kernel
    exact met _ (h c hc).1 (h c hc).2
  · have h : ∀ l ∈ ((ctx (paging 0x40001000)).lanes 7).filter ((ctx (paging 0x40001000)).g.regs.getP 3), l = 0 := by decide +kernel
    cases h l hl
    exact ⟨pageAt (paging 0x40001000) .write 0x40001040, of_okIs (by decide +kernel)⟩

/-- A reserved bit, a format without its geometry, another kind while the old entry is in force; a transition, and the old entry. -/
theorem test_met_PageInstructions_pkset : ∀ c ∈ [((0x800 : Nat), true), (0x28, true), (2, true), (0x402, false), (1, false)], ∃ s x, Issuing s x ∧ Fresh s x ∧ x.uslice = some 0
    ∧ recService x.c.record = true ∧ (x.g.regs.getS2 0 4).toNat = 2 ^ 39 - 4096 ∧ x.g.loads = [] ∧ (∀ c ∈ s.clusters, c.2.arraySpans = []) ∧ NobodyWaits s ∧ (∀ b, NoPvCopy s b)
    ∧ let e : BitVec 16 := (x.g.regs.getS 0 6).extractLsb' 0 16
      let old := s.attrOf x.die (2 ^ 39 - 4096)
      decide (e.extractLsb' 11 5 ≠ 0 ∨ pairOk (e.extractLsb' 2 5).toNat (e.extractLsb' 7 3).toNat = false
        ∨ (old.getLsbD 10 = false ∧ e.getLsbD 10 = false ∧ old.extractLsb' 0 10 ≠ e.extractLsb' 0 10)) = c.2 := by
  intro c hc
  have h : ∀ c ∈ [((0x800 : Nat), true), (0x28, true), (2, true), (0x402, false), (1, false)], let s := paging (2 ^ 39 - 4096) (BitVec.ofNat 32 c.1)
      ok s = true ∧ (ctx s).uslice = some 0 ∧ recService (ctx s).c.record = true ∧ ((ctx s).g.regs.getS2 0 4).toNat = 2 ^ 39 - 4096 ∧ (ctx s).g.loads = []
      ∧ let e : BitVec 16 := ((ctx s).g.regs.getS 0 6).extractLsb' 0 16
        let old := s.attrOf (ctx s).die (2 ^ 39 - 4096)
        decide (e.extractLsb' 11 5 ≠ 0 ∨ pairOk (e.extractLsb' 2 5).toNat (e.extractLsb' 7 3).toNat = false
          ∨ (old.getLsbD 10 = false ∧ e.getLsbD 10 = false ∧ old.extractLsb' 0 10 ≠ e.extractLsb' 0 10)) = c.2 := by decide +kernel
  obtain ⟨h1, h2, h3, h4, h5, h6⟩ := h c hc
  exact ⟨paging (2 ^ 39 - 4096) (BitVec.ofNat 32 c.1), ctx (paging (2 ^ 39 - 4096) (BitVec.ofNat 32 c.1)), ok_issuing h1, ok_fresh h1, h2, h3, h4, h5, fun _ h => (by cases h), ⟨rfl, fun _ h => (by cases h), fun _ h => (by cases h)⟩,
    fun b => noPvCopy rfl b, h6⟩

/-- Cluster 63 with one request in its merge stage, and die 3's request queue with n records. -/
def merging (tail head : Nat) : State :=
  (State.reset.setCluster 63 { merge := [{ asid := 7, page := 2 ^ 36, union := 80, count := 2, leaf := at_ 0x9010, written := false, waiters := [] }] }).setDie 3
    { prqbase := BitVec.ofNat 64 (at_ 0x4000), prqtail := tail, prqhead := head, prqseq := 5 }
/-- Gang 0 waits for a page that its core's filter holds. -/
def missing (num : Nat) : State :=
  (ofGang (waiting 10 num (2 ^ 36) (gangOf {}))).setCore 0 { filter := [{ asid := 0, page := 2 ^ 36, union := 16, waiters := [.part ⟨0, 0, 0⟩] }] }
def noticing (tail head : Nat) : State := State.reset.setDie 3 { notices := [(16384, 1024, 3)], mnqbase := BitVec.ofNat 64 (at_ 0x4000), mnqtail := tail, mnqhead := head }
theorem otherFilter (n : Nat) (h : n ≠ 0) : ((missing 0).core n).filter = [] := by
  have e : (missing 0).core n = {} := by
    simp [missing, State.core, State.setCore, ofGang, ofGangs, State.reset, SMap.getD, SMap.find, SMap.put, h.symm]
  rw [e]
theorem otherHeld (n : Nat) : ((missing 0).core n).held = [] := by
  by_cases h : n = 0
  · subst h; rfl
  · have e : (missing 0).core n = {} := by
      simp [missing, State.core, State.setCore, ofGang, ofGangs, State.reset, SMap.getD, SMap.find, SMap.put, Ne.symm h]
    rw [e]
theorem test_met_PageEvents : (∀ c ∈ [(4095, 0, true), (4095, 1, false)], ∃ (s : State) (e : MergeEntry), (s.cluster 63).merge = [e] ∧ e.written = false
      ∧ decide (((s.die 3).prqtail + 1) % 4096 = (s.die 3).prqhead) = c.2.2 ∧ ((s.die 3).prqbase.toNat + 32 * (s.die 3).prqtail) % 32 = 0)
    ∧ (∃ s x w f, State.ctxOf s 0 0 0 = some x ∧ x.pageWait = some w ∧ w.num = 0 ∧ x.g.fences = [] ∧ x.die = 0 ∧ x.c.asid = 0 ∧ (s.core x.c.core).filter = [f] ∧ f.asid = 0
      ∧ f.page = 2 ^ 36 ∧ f.waiters = [.part ⟨0, 0, 0⟩] ∧ (∀ n, n ≠ x.c.core → (s.core n).filter = []) ∧ (∀ n, n / 128 = 0 → (s.core n).held = [])
      ∧ ∀ cl, cl / 16 = 0 → (s.cluster cl).merge = [] ∧ (s.cluster cl).mergeHeld = [])
    ∧ ∀ c ∈ [(1023, 0, true), (1023, 1, false)], ∃ s : State, (s.die 3).notices = [(16384, 1024, 3)] ∧ decide (((s.die 3).mnqtail + 1) % 1024 = (s.die 3).mnqhead) = c.2.2
      ∧ ((s.die 3).mnqbase.toNat + 16 * (s.die 3).mnqtail) % 16 = 0 := by
  refine ⟨fun c hc => ?_, ⟨missing 0, ctx (missing 0), { code := 10, num := 0, operand := 2 ^ 36, since := 0, len := 4 }, { asid := 0, page := 2 ^ 36, union := 16, waiters := [.part ⟨0, 0, 0⟩] },
    getD_some _ (by decide +kernel), by decide +kernel, rfl, by decide +kernel, by decide +kernel, by decide +kernel, by decide +kernel, rfl, rfl, rfl, fun n h => ?_, fun n _ => otherHeld n, fun cl h => ⟨rfl, rfl⟩⟩,
    fun c hc => ?_⟩
  · have h : ∀ c ∈ [(4095, 0, true), (4095, 1, false)], let s := merging c.1 c.2.1
        (s.cluster 63).merge = [{ asid := 7, page := 2 ^ 36, union := 80, count := 2, leaf := at_ 0x9010, written := false, waiters := [] }]
        ∧ decide (((s.die 3).prqtail + 1) % 4096 = (s.die 3).prqhead) = c.2.2 ∧ ((s.die 3).prqbase.toNat + 32 * (s.die 3).prqtail) % 32 = 0 := by decide +kernel
    exact ⟨_, _, (h c hc).1, rfl, (h c hc).2⟩
  · have g : (ctx (missing 0)).c.core = 0 := by decide +kernel
    rw [g] at h
    exact otherFilter n h
  · have h : ∀ c ∈ [(1023, 0, true), (1023, 1, false)], let s := noticing c.1 c.2.1
        (s.die 3).notices = [(16384, 1024, 3)] ∧ decide (((s.die 3).mnqtail + 1) % 1024 = (s.die 3).mnqhead) = c.2.2
          ∧ ((s.die 3).mnqbase.toNat + 16 * (s.die 3).mnqtail) % 16 = 0 := by decide +kernel
    exact ⟨_, h c hc⟩

theorem test_tlbi : (after (.tlbiPage ⟨6, 4⟩) (paging 0x40001000)).tlb = [] ∧ trapAfter (.tlbiAll ⟨6, 4⟩) (ordinary (paging 0)) = [.privilegedInstruction] := by decide +kernel
/-- imm8 bit 0 is the wait and bit 1 the write intent (R226). -/
theorem test_preq : ((ctx (after (.preq 1 4 7 0 1) (absent (paging (2 ^ 36))))).g.slice 0).wait.map (·.code) = some 10
    ∧ ((ctx (after (.preq 1 4 7 1 0) (absent (paging (2 ^ 36))))).g.slice 0).wait = none
    ∧ ((after (.preq 1 4 7 1 0) (absent (paging (2 ^ 36)))).core 0).filter.map (·.union) = [80] := by decide +kernel
theorem test_pkset : (after (.pkset 6 4 0) (paging 0x2000 1)).attrOf 0 0x2000 = 1 ∧ trapAfter (.pkset 6 4 0) (paging 1 1) = [.misalignedData] := by decide +kernel
theorem test_prq_record : Memory.readNat (after (.prqRecordWrite 63) (merging 0 0)).mem (at_ 0x4000) 16 = 2 ^ 36 + 2 ^ 64 * 7 + 2 ^ 80 * 80 + 2 ^ 88 * 63 + 2 ^ 96 * 2 := by decide +kernel
theorem test_pgres : ((after (.pgresWake 0 0 (2 ^ 36)) (missing 0)).gang? 0 0).map (fun g => (g.slice 0).wait) = some none := by decide +kernel

/-! ### Crews -/

def queued (r : BitVec 512) : Queued := { record := r, recptr := BitVec.ofNat 64 (at_ 0x1000), asid := 0, guest := 0, onCore := none, onCluster := none, crew := none, rank := none }
def serving : State := State.reset.setDie 3 { service := [queued recAt] }
def listed (pending : Nat) : State :=
  (State.reset.setDie 3 { tileLists := [(63, [{ queued recAt with tiles := [0x3F000 + 0x405] }])] }).setCluster 63 { tiles := [(5, tile pending)] }
/-- A push of the record at 0x1000 waits at die 0's Cellarer, whose class queues have 2^c places. -/
def pushing (code c : Nat) : State :=
  ({ State.reset with tlb := [page (.cellarer 0)], descs := [{ unit := .cellarer 0, asid := 0, root := 0, groups := 0, guest := 0, valid := true }] } |> stored 0x1000 64 (classRec code)).setDie 0
    { pushes := [{ addr := 0x40001000, asid := 0, service := false, crew := 0, page := none }], cls2 := c, queues := [(0, [queued recAt])] }
def pushes (s : State) (r : BitVec 512) (k : Option FaultKind) : Bool :=
  let q := s.readRecord (.cellarer 0) 0 0x40001000
  isOk q.1 (r, []) && decide ((q.2.checkRecord 0 0 false r []).1 = k)
theorem test_met_CrewsBegin : (∃ s q, (State.die s 3).service = [q] ∧ q.rank = none ∧ q.crew = none ∧ recGroups q.record = [] ∧ s.holds .service 511 q = true)
    ∧ (∀ c ∈ [(0, true), (1, false)], ∃ s q, SMap.getD (State.die s 3).tileLists 63 [] = [q] ∧ s.tilesResident q = c.2)
    ∧ ∀ c ∈ [(codeBase, 1, none), (codeBase, 0, none), (codeBase + 2, 1, some FaultKind.misalignedCode)], ∃ s p r u w, (State.die s 0).pushes = [p] ∧ p.page = none ∧ p.held = none
      ∧ s.readRecord (.cellarer 0) p.asid p.addr = (.ok (r, []), u)
      ∧ u.checkRecord 0 p.asid p.service r [] = (c.2.2, w) ∧ ClassRecord r
      ∧ ((SMap.getD (s.die 0).queues (4 * 0 + recClass r) []).filter (fun q => q.crew.isNone)).length = 1 ∧ (s.die 0).cls2 = c.2.1 := by
  refine ⟨⟨serving, queued recAt, by decide +kernel, rfl, rfl, by decide +kernel, by decide +kernel⟩, fun c hc => ?_, fun c hc => ?_⟩
  · have h : ∀ c ∈ [(0, true), (1, false)], SMap.getD ((listed c.1).die 3).tileLists 63 [] = [{ queued recAt with tiles := [0x3F000 + 0x405] }]
        ∧ (listed c.1).tilesResident { queued recAt with tiles := [0x3F000 + 0x405] } = c.2 := by decide +kernel
    exact ⟨_, _, h c hc⟩
  · have h : ∀ c ∈ [(codeBase, 1, none), (codeBase, 0, none), (codeBase + 2, 1, some FaultKind.misalignedCode)],
        let r := BitVec.ofNat 512 (classRec c.1)
        pushes (pushing c.1 c.2.1) r c.2.2 = true ∧ ((pushing c.1 c.2.1).die 0).pushes = [{ addr := 0x40001000, asid := 0, service := false, crew := 0, page := none }]
        ∧ ClassRecord r ∧ ((SMap.getD ((pushing c.1 c.2.1).die 0).queues (4 * 0 + recClass r) []).filter (fun q => q.crew.isNone)).length = 1
        ∧ ((pushing c.1 c.2.1).die 0).cls2 = c.2.1 := by unfold ClassRecord; decide +kernel
    obtain ⟨g, h2, h3⟩ := h c hc
    simp only [pushes, Bool.and_eq_true, decide_eq_true_eq] at g
    exact ⟨_, _, _, _, _, h2, rfl, rfl, of_isOk1 g.1, Prod.ext g.2 rfl, h3⟩

/-- A push of a record already read waits for room: of a service queue's neighbour, and it has room. -/
theorem test_met_CrewsBegin_held : ∀ c ∈ [0, 1], ∃ s p q, (State.die s 0).pushes = [p] ∧ p.page = none ∧ p.held = some q ∧ ClassRecord q.record
    ∧ ((SMap.getD (s.die 0).queues (4 * q.guest + recClass q.record) []).filter (fun q => q.crew.isNone)).length = 1 ∧ (s.die 0).cls2 = c := by
  intro c hc
  have h : ∀ c ∈ [0, 1], let s := State.reset.setDie 0 { pushes := [{ addr := 0x40001000, asid := 0, service := false, crew := 0, page := none, held := some (queued recAt) }]
                                                         cls2 := c, queues := [(0, [queued recAt])] }
      (s.die 0).pushes = [{ addr := 0x40001000, asid := 0, service := false, crew := 0, page := none, held := some (queued recAt) }] ∧ ClassRecord recAt
      ∧ ((SMap.getD (s.die 0).queues (4 * 0 + recClass recAt) []).filter (fun q => q.crew.isNone)).length = 1 ∧ (s.die 0).cls2 = c := by unfold ClassRecord; decide +kernel
  exact ⟨_, _, queued recAt, (h c hc).1, rfl, rfl, (h c hc).2⟩

/-- A crew of guest 0 whose time slice has ended or not, in a phase, its clocks 1,000 past. -/
def crewIn (ph : Phase) (dl : Option Nat) (ended : Bool) (noticed : Bool := false) (parent : Nat := 0) (n : Nat := 0) : State :=
  (ofCrew (fun c => { c with record := BitVec.ofNat 512 (classRec codeBase + 2 ^ 192 * 3 + 2 ^ 320 * parent), phase := ph, deadline := dl, noticed := noticed }) { some_ with clock := 1000 }).setDie 0
    { ended := if ended then [0] else [], overruns := List.replicate n { crew := 9, guest := 0, deadline := 0, clock := 0 } }
def theCrew (s : State) : Crew := (s.crew? 0).getD codeCrew
/-- The crew of `some_`. -/
def codeCrew_ : Crew := theCrew some_
/-- An implied decrement of a counter of n. -/
def decrOne : Push := { addr := 0x40001010, asid := 0, service := false, crew := 0, page := none }
def decr (n : Nat) : State := ({ State.reset with tlb := [page (.cellarer 0)] } |> stored 0x1010 4 n).setDie 0 { decrements := [decrOne] }
def cpage (s : State) (va : W64) : Page :=
  match (s.translate (.cellarer 0) 0 va .write).1 with
  | .ok p => p
  | .error _ => { pa := 0, peer := 0, remote := false, kind := .rc, fmt := 0, geo := 0, base := 0, size := 0 }
/-- Guest 0 at its budget, guest 1 with a record in a queue. -/
def busy : State := State.reset.setDie 0
  { schper := 0, gshare := [(0, 512), (1, 512)], guse := [(0, 3840)], queues := [(4, [{ queued recAt with guest := 1 }])] }
theorem test_met_CrewsEnd : (∀ c ∈ [(Phase.running, true), (Phase.running, false), (Phase.exited, false)], ∃ s c', State.crew? s 0 = some c' ∧ c'.phase = c.1 ∧ s.stopReason c' = c.2)
    ∧ (∃ s c, State.crew? s 0 = some c ∧ recService c.record = true)
    ∧ (∀ n ∈ [255, 256], ∃ s c, State.crew? s 0 = some c ∧ c.phase = .stopping ∧ c.deadline = some s.clock ∧ c.noticed = false ∧ (s.die 0).overruns.length = n)
    ∧ (∃ s c, State.crew? s 0 = some c ∧ c.deadline = some (s.clock + 1)) ∧ (∃ s c, State.crew? s 0 = some c ∧ c.phase = .exited ∧ recParent c.record ≠ 0)
    ∧ (∀ n ∈ [0, 1], ∃ s p a, (State.die s 0).decrements = [p] ∧ p.page = none ∧ s.poisonedIn [(a, 4)] = false ∧ s.translate (.cellarer 0) p.asid p.addr .write = (.ok a, s) ∧ a.local = true ∧ a.pa % 4 = 0
      ∧ Memory.readNat s.mem a.pa 4 = n)
    ∧ ∃ s : State, (∃ h ∈ s.guestsWithWork 0, h ≠ 0 ∧ (s.die 0).use h * 1024 < (s.die 0).share h * 7680 * 2 ^ (s.die 0).schper)
      ∧ (s.die 0).share 0 * 7680 * 2 ^ (s.die 0).schper ≤ (s.die 0).use 0 * 1024 := by
  refine ⟨fun c hc => ?_, ⟨some_, codeCrew_, rfl, by decide +kernel⟩, fun n hn => ?_, ⟨crewIn .stopping (some 1001) false, theCrew (crewIn .stopping (some 1001) false), getD_some _ (by decide +kernel), by decide +kernel⟩,
    ⟨crewIn .exited none false false 16, theCrew (crewIn .exited none false false 16), getD_some _ (by decide +kernel), by decide +kernel, by decide +kernel⟩, fun n hn => ?_, ?_⟩
  · have h : ∀ c ∈ [(Phase.running, true), (Phase.running, false), (Phase.exited, false)], ((crewIn c.1 none c.2).crew? 0).isSome = true
        ∧ (theCrew (crewIn c.1 none c.2)).phase = c.1 ∧ (crewIn c.1 none c.2).stopReason (theCrew (crewIn c.1 none c.2)) = c.2 := by decide +kernel
    exact ⟨_, theCrew _, getD_some _ (h c hc).1, (h c hc).2⟩
  · have h : ∀ n ∈ [255, 256], let s := crewIn .stopping (some 1000) false false 0 n
        (s.crew? 0).isSome = true ∧ (theCrew s).phase = .stopping ∧ (theCrew s).deadline = some s.clock ∧ (theCrew s).noticed = false ∧ (s.die 0).overruns.length = n := by decide +kernel
    exact ⟨_, theCrew _, getD_some _ (h n hn).1, (h n hn).2⟩
  · have h : ∀ n ∈ [0, 1], ((decr n).die 0).decrements = [decrOne]
        ∧ okIs ((decr n).translate (.cellarer 0) 0 0x40001010 .write) (cpage (decr n) 0x40001010) (decr n) = true ∧ (cpage (decr n) 0x40001010).local = true
        ∧ (cpage (decr n) 0x40001010).pa % 4 = 0 ∧ Memory.readNat (decr n).mem (cpage (decr n) 0x40001010).pa 4 = n := by decide +kernel
    exact ⟨decr n, decrOne, _, (h n hn).1, rfl, rfl, of_okIs (h n hn).2.1, (h n hn).2.2⟩
  · exact ⟨busy, ⟨1, by decide +kernel⟩, by decide +kernel⟩

/-- Guest 0, at its budget, runs the card 0 on the Vintner of cluster 0, for which guest 1's card 1 waits; nothing is owed. -/
def vintnerTaken (ended : List Nat) : State :=
  let k : Card := { codeCard with id := 1, guest := 1 }
  (State.reset.setDie 0 { schper := 0, gshare := [(0, 512), (1, 512)], guse := [(0, 3840)], charges := [(0, 5), (7, 2)], groups := [(5, { cards := [k] })], ended := ended }).setCluster 0
    { vcur := some 0, vctx := [(0, { die := 0, group := 0, card := codeCard, pc := 0 })] }
theorem test_met_CrewsEnd_guests : (let d := vintnerTaken [] |>.die 0
      let budget := fun h => d.share h * 7680 * 2 ^ d.schper / 1024
      budget 0 ≤ d.use 0 ∧ 0 ∉ d.ended ∧ d.charges.Pairwise (fun a b => a.1 < b.1) ∧ ∃ grp k v, (5, grp) ∈ d.groups ∧ k ∈ grp.cards ∧ k.vintner = true ∧ k.edges = [] ∧ k.ended = none ∧ k.guest < 64 ∧ k.guest ≠ 0
        ∧ d.use k.guest < budget k.guest ∧ ((vintnerTaken []).cluster k.cluster).vcur = some 0
        ∧ SMap.find ((vintnerTaken []).cluster k.cluster).vctx 0 = some v ∧ v.card.guest = 0 ∧ v.card.id ≠ k.id)
    ∧ 0 ∈ ((vintnerTaken [0]).die 0).ended ∧ busy.othersNeed 0 0 = false := by
  refine ⟨⟨by decide +kernel, by decide +kernel, by decide +kernel, { cards := [{ codeCard with id := 1, guest := 1 }] }, { codeCard with id := 1, guest := 1 },
    { die := 0, group := 0, card := codeCard, pc := 0 }, ?_⟩, by decide +kernel⟩
  decide +kernel

/-- A crew of one gang that waits, in a phase, its frame frame 1 of the pool at 0x40000 of the page. -/
def parkable (ph : Phase) (reason : Nat := 0) (ended : Bool := false) (f : Gang → Gang := id) : State :=
  ofCrew (fun c => { c with record := BitVec.ofNat 512 (classRec codeBase - 2 ^ 64 * at_ 0x10000), phase := ph, reason := reason, frame := .pool 1 })
    (ofGang (f (waiting 6 0 0 (gangOf { v := [(33, 7), (2047, 9)], s := [(4, 3), (511, 8)], lk := [(31, 5)], p := [(6, 1)], af := 3, te := 4 }))))
  |>.setDie 0 { fpbase := BitVec.ofNat 64 (at_ 0x40000), fpcfg := BitVec.ofNat 32 (4 + 12 * 65536), ended := if ended then [0] else [] }
theorem readBytes_nil (a n : Nat) (h : attrBytes ≤ a) : Memory.readBytes [] a n = List.replicate n 0#8 := by
  induction n generalizing a with
  | zero => rfl
  | succ n ih =>
    have g : ¬ a < attrBytes := by omega
    simp [Memory.readBytes, ih (a + 1) (by omega), List.replicate_succ, Memory.read, SMap.getD, SMap.find, unlisted, g]
theorem bytesNat_zeros (n : Nat) : bytesNat (List.replicate n 0#8) = 0 := by
  induction n with
  | zero => rfl
  | succ n ih => simp [List.replicate_succ, bytesNat, ih]
/-- An image of zeros is well formed. -/
theorem imageBad_nil (a n gangs regs : Nat) (h : attrBytes ≤ a) : imageBad (Memory.readBytes [] a n) gangs regs = false := by
  simp [readBytes_nil _ _ h, imageBad, imgSet, imgNat, sliceBad, bytesNat_zeros, natBits, List.any_replicate]
/-- Its image is one of zeros. -/
def imaged : State := (parkable .resumable).setDie 0 { (parkable .resumable).die 0 with service := [{ queued recAt with crew := some 0 }] }
theorem test_met_Parking : (∀ ph ∈ [Phase.stopping, Phase.running], ∃ s c, State.crew? s 0 = some c ∧ Alone c ∧ c.framePage = none ∧ c.blocked = true ∧ c.barrierDone = false
      ∧ (∀ q ∈ c.gangs, q.2.fences = [] ∧ q.2.loads = [] ∧ ∀ st ∈ q.2.stops, st.park = false) ∧ c.phase = ph ∧ s.longWait c = false)
    ∧ (∃ s c g, State.crew? s 0 = some c ∧ c.phase = .parking ∧ c.frame = .pool 1 ∧ c.gangs = [(0, g)] ∧ recGangs c.record = 1 ∧ recRegs c.record = 64
      ∧ (∀ k, (g.slice k).stack = []) ∧ (∀ b, NoPvCopy s b) ∧ c.deadline = none ∧ g.liveSlices ≠ [] ∧ (s.die 0).fpbase.toNat + 1 * (s.die 0).frameSize + 256 + 5120 + 128 * 64 ≤ 2 ^ 39)
    ∧ (∃ s c, State.crew? s 0 = some c ∧ Alone c ∧ recService c.record = false ∧ c.phase = .parked ∧ c.reason = 2 ∧ c.loadsPending = false ∧ s.stopReason c = false
      ∧ ∀ e ∈ SMap.getD (s.die 0).queues (4 * c.guest + recClass c.record) [], e.crew = none)
    ∧ ∃ s c q, State.crew? s 0 = some c ∧ c.phase = .resumable ∧ c.framePage = none ∧ c.frame = .pool 1 ∧ (s.die 0).service = [q] ∧ q.crew = some 0 ∧ q.rank = none
      ∧ s.holds .service 127 q = true ∧ s.poisoned = [] ∧ Memory.readNat s.mem ((s.die 0).fpbase.toNat + 1 * (s.die 0).frameSize + 0x48) 8 = 0
      ∧ imageBad (Memory.readBytes s.mem ((s.die 0).fpbase.toNat + 1 * (s.die 0).frameSize) (256 + 1 * (5120 + 128 * 64))) 1 64 = false := by
  refine ⟨fun ph hp => ?_, ⟨parkable .parking, theCrew (parkable .parking), (((parkable .parking).gang? 0 0).getD {}), getD_some _ (by decide +kernel), by decide +kernel, by decide +kernel, by decide +kernel, by decide +kernel, by decide +kernel, fun k => ?_, fun b => noPvCopy rfl b, by decide +kernel⟩,
    ⟨parkable .parked 2, theCrew (parkable .parked 2), getD_some _ (by decide +kernel), ?_⟩, ⟨imaged, theCrew imaged, { queued recAt with crew := some 0 }, getD_some _ (by decide +kernel),
      by decide +kernel, by decide +kernel, by decide +kernel, by decide +kernel, rfl, rfl, by decide +kernel, rfl, by decide +kernel, ?_⟩⟩
  · have h : ∀ ph ∈ [Phase.stopping, Phase.running], ((parkable ph).crew? 0).isSome = true ∧ Alone (theCrew (parkable ph)) ∧ (theCrew (parkable ph)).framePage = none
        ∧ (theCrew (parkable ph)).blocked = true ∧ (theCrew (parkable ph)).barrierDone = false
        ∧ (∀ q ∈ (theCrew (parkable ph)).gangs, q.2.fences = [] ∧ q.2.loads = [] ∧ ∀ st ∈ q.2.stops, st.park = false) ∧ (theCrew (parkable ph)).phase = ph ∧ (parkable ph).longWait (theCrew (parkable ph)) = false := by
      unfold Alone; decide +kernel
    exact ⟨_, theCrew _, getD_some _ (h ph hp).1, (h ph hp).2⟩
  · have h : ∀ k, k < 8 → ((((parkable .parking).gang? 0 0).getD {}).slice k).stack = [] := by decide +kernel
    have l : (((parkable .parking).gang? 0 0).getD {}).slices.length = 8 := by decide +kernel
    by_cases hk : k < 8
    · exact h k hk
    · unfold Gang.slice List.getD
      rw [List.getElem?_eq_none (by omega)]
      rfl
  · unfold Alone; decide +kernel
  · have h : imaged.mem = [] := rfl
    rw [h]
    exact imageBad_nil _ _ _ _ (by decide +kernel)

theorem test_placement : ((after (.placement 3 127) serving).crew? 1).map (fun c => (c.core, c.gangs.length)) = some (511, 1) := by decide +kernel
theorem test_tile_list : ((after (.tileListRelease 63 3) (listed 0)).die 3).arrivals.map (fun q => (q.1, q.2.length)) = [(0, 1)] := by decide +kernel
theorem test_join_push : ((after (.joinPush 0) (pushing codeBase 1)).die 0).queues.map (fun q => (q.1, q.2.length)) = [(0, 2)]
    ∧ ((after (.joinPush 0) (pushing (codeBase + 2) 1)).die 0).fqtail = 1 := by decide +kernel
theorem test_stop_request : ((after (.stopRequest 0) (crewIn .running none true)).crew? 0).map (·.deadline) = some (some 1768) := by decide +kernel
theorem test_decrement : memAfter (.impliedDecrement 0) (decr 1) 0x1010 4 = 0 ∧ ((after (.impliedDecrement 0) (decr 1)).die 0).pushes.map (·.addr) = [0x40001000] := by decide +kernel
theorem test_park : ((after (.park 0) (parkable .stopping)).crew? 0).map (·.reason) = some 2 := by decide +kernel

/-! ### Vintners and the array -/

/-- Cluster 0 with more in it. -/
def withCluster (f : Cluster → Cluster) (s : State) : State := s.setCluster 0 (f (s.cluster 0))
/-- Page format 10, geometry 1; `s4:5` is an address. -/
def loading (addr : Nat) (fmt : Nat := 10) (g : Cluster → Cluster := id) : State :=
  withCluster g (vint (fun k => { k with s := [(4, BitVec.ofNat 32 addr), (5, BitVec.ofNat 32 (addr / 2 ^ 32))] }) .rc fmt (if fmt = 10 then 1 else 0))
theorem test_met_ArrayQueue_mload : (∃ s x, VIssuing s x ∧ x.hint 0 = none ∧ (s.cluster x.cluster).shadowBank.state = .empty ∧ (s.cluster x.cluster).bank0.busy = false
      ∧ (s.cluster x.cluster).bank1.busy = false ∧ (x.k.getS2 4).toNat % unitBytes ≠ 0)
    ∧ ∀ c ∈ [(10, true), (0, false)], ∃ s x p, VIssuing s x ∧ x.hint 0 = none ∧ (s.cluster x.cluster).shadowBank.state = .empty ∧ (s.cluster x.cluster).bank0.busy = false
      ∧ (s.cluster x.cluster).bank1.busy = false ∧ (x.k.getS2 4).toNat % unitBytes = 0
      ∧ s.translateSpan x.unit x.k.card.asid (x.k.getS2 4) unitBytes .read 258 = (.ok [(p, unitBytes)], s) ∧ p.control = false ∧ blockFormat p.fmt = c.2 ∧ (c.2 = true → p.geo = 1) := by
  refine ⟨metV (loading 0x40001000) (by decide +kernel) (by decide +kernel), fun c hc => ?_⟩
  have h : ∀ c ∈ [(10, true), (0, false)], let s := loading 0x40000000 c.1
      let x := vrun s
      let p := vpage s .read 0x40000000
      okV s = true ∧ x.hint 0 = none ∧ (s.cluster x.cluster).shadowBank.state = .empty ∧ (s.cluster x.cluster).bank0.busy = false
      ∧ (s.cluster x.cluster).bank1.busy = false ∧ (x.k.getS2 4).toNat % unitBytes = 0
      ∧ okIs (s.translateSpan x.unit x.k.card.asid (x.k.getS2 4) unitBytes .read 258) [(p, unitBytes)] s = true ∧ p.control = false ∧ blockFormat p.fmt = c.2 ∧ (c.2 = true → p.geo = 1) := by
    decide +kernel
  obtain ⟨h1, h2, h3, h4, h5, h6, h7, h8⟩ := h c hc
  simp only [okV, Bool.and_eq_true, decide_eq_true_eq] at h1
  exact ⟨_, vrun _, _, ⟨0, h1.1, getD_some _ h1.2⟩, h2, h3, h4, h5, h6, of_okIs h7, h8⟩

/-- A queue of operations; whether a bank is loaded. -/
def queueing (q : List ArrOp) (loaded : Bool := false) (g : Cluster → Cluster := id) (r : SMap W32 := []) (prod : Nat := 1) (card : Card := codeCard) : State :=
  withCluster g (vint (fun k => { k with queue := q, loaded := loaded, s := r, prod := prod, card := card }))
theorem test_met_ArrayQueue_mswap : ∀ c ∈ [([ArrOp.swap], true), (List.replicate 8 (.zero 0 0 0), true), (List.replicate 7 (.zero 0 0 0), true), ([], false)],
    ∃ s x, VIssuing s x ∧ x.k.queue = c.1 ∧ x.k.loaded = c.2 := by
  intro c hc
  have h : ∀ c ∈ [([ArrOp.swap], true), (List.replicate 8 (.zero 0 0 0), true), (List.replicate 7 (.zero 0 0 0), true), ([], false)],
      okV (queueing c.1 c.2) = true ∧ (vrun (queueing c.1 c.2)).k.queue = c.1 ∧ (vrun (queueing c.1 c.2)).k.loaded = c.2 := by decide +kernel
  exact metV _ (h c hc).1 (h c hc).2

/-- An A tile of 8 KiB at index 5, of fmt f; accumulator 3 of b blocks. -/
def accOf (b : Nat) (token : Option Nat := none) : Acc := { id := 7, asid := 0, blocks := b, token := token, data := [(0, 0x3F800000)], stale := none }
def aTile (pending f k : Nat) : Tile := { id := 9, k := k, fmt := f, mode := 0, data := [(0, 127), (2048, 2)], reads := 0, pending := pending, filled := true }
def weights : Bank := { state := .active, count := some 1, fmt := 10, geo := 1, data := [(0, 127), (4032, 3)] }
def stepping (pending f k : Nat) (bank : Bank) (m row0 : Nat) : State :=
  queueing [] false (fun c => { c with tiles := [(5, aTile pending f k)], accs := [(3, accOf 2)], bank1 := bank })
    [(4, BitVec.ofNat 32 (0x405 + 4096 * m)), (5, BitVec.ofNat 32 (0xC03 + 4096 * row0))]
/-- Whether the shape and the range of the step are broken. -/
def stepBreaks (x : VRun) (tl : Tile) (acc : Acc) : Bool × Bool :=
  let m := ((x.k.getS 4).extractLsb' 12 10).toNat
  (decide (m = 0 ∨ 512 < m ∨ m % 16 ≠ 0), decide (2 ^ tl.k * 1024 < aTileBytes m (waBits 0) ∨ 16 * acc.blocks < ((x.k.getS 5).extractLsb' 12 9).toNat + m))
theorem test_met_ArrayQueue_mstep : ∀ c ∈ [(1, 0, 4, weights, 16, 16, false, false), (0, 1, 4, weights, 16, 16, false, false), (0, 0, 4, weights, 8, 16, true, false), (0, 0, 3, weights, 16, 16, false, true),
      (0, 0, 4, weights, 16, 17, false, true), (0, 0, 4, { weights with count := some 0 }, 16, 16, false, false), (0, 0, 4, weights, 16, 16, false, false)],
    ∃ s x tl acc, VIssuing s x ∧ x.k.queue = [] ∧ (x.k.getS 4).extractLsb' 22 10 = 0 ∧ (x.k.getS 5).extractLsb' 21 11 = 0 ∧ (x.k.getS 4).extractLsb' 10 2 = 1
      ∧ SMap.find (s.cluster x.cluster).tiles (1024 * x.k.card.asid + ((x.k.getS 4).extractLsb' 0 10).toNat) = some tl
      ∧ s.acc? x.cluster x.k.card.asid ((x.k.getS 5).extractLsb' 0 12).toNat = some acc ∧ tl.pending = c.1 ∧ tl.fmt = c.2.1 ∧ stepBreaks x tl acc = c.2.2.2.2.2.2
      ∧ (s.cluster x.cluster).activeBank.spent = (c.2.2.2.1.count == some 0) := by
  intro c hc
  have h : ∀ c ∈ [(1, 0, 4, weights, 16, 16, false, false), (0, 1, 4, weights, 16, 16, false, false), (0, 0, 4, weights, 8, 16, true, false), (0, 0, 3, weights, 16, 16, false, true),
      (0, 0, 4, weights, 16, 17, false, true), (0, 0, 4, { weights with count := some 0 }, 16, 16, false, false), (0, 0, 4, weights, 16, 16, false, false)],
      let s := stepping c.1 c.2.1 c.2.2.1 c.2.2.2.1 c.2.2.2.2.1 c.2.2.2.2.2.1
      let x := vrun s
      okV s = true ∧ x.k.queue = [] ∧ (x.k.getS 4).extractLsb' 22 10 = 0 ∧ (x.k.getS 5).extractLsb' 21 11 = 0 ∧ (x.k.getS 4).extractLsb' 10 2 = 1
      ∧ SMap.find (s.cluster x.cluster).tiles (1024 * x.k.card.asid + ((x.k.getS 4).extractLsb' 0 10).toNat) = some (aTile c.1 c.2.1 c.2.2.1)
      ∧ s.acc? x.cluster x.k.card.asid ((x.k.getS 5).extractLsb' 0 12).toNat = some (accOf 2) ∧ (aTile c.1 c.2.1 c.2.2.1).pending = c.1 ∧ (aTile c.1 c.2.1 c.2.2.1).fmt = c.2.1
      ∧ stepBreaks x (aTile c.1 c.2.1 c.2.2.1) (accOf 2) = c.2.2.2.2.2.2 ∧ (s.cluster x.cluster).activeBank.spent = (c.2.2.2.1.count == some 0) := by decide +kernel
  obtain ⟨h1, h2⟩ := h c hc
  simp only [okV, Bool.and_eq_true, decide_eq_true_eq] at h1
  exact ⟨_, vrun _, _, _, ⟨0, h1.1, getD_some _ h1.2⟩, h2⟩

/-- `s4` names accumulator 3 with b blocks, of which the cluster has those of `accs`. -/
def zeroing (b : Nat) (accs : SMap Acc) : State := queueing [] false (fun c => { c with accs := accs }) [(4, BitVec.ofNat 32 (0xC03 + 4096 * (b - 1)))]
theorem test_met_ArrayQueue_mzero : ∀ c ∈ [(2, [(3, accOf 2)], some true, true), (1, [(3, accOf 2)], some false, true), (32, [], none, true), (32, [(1, accOf 1)], none, false)],
    ∃ s x, VIssuing s x ∧ x.k.queue.length < 8 ∧ (x.k.getS 4).extractLsb' 17 15 = 0 ∧ (x.k.getS 4).extractLsb' 10 2 = 3 ∧ ((x.k.getS 4).extractLsb' 0 10).toNat = 3
      ∧ (SMap.find (s.cluster x.cluster).accs 3).map (fun a => a.blocks == ((x.k.getS 4).extractLsb' 12 5).toNat + 1) = c.2.2.1
      ∧ (∀ a, SMap.find (s.cluster x.cluster).accs 3 = some a → a.asid = x.k.card.asid)
      ∧ (c.2.2.1 = none → decide ((s.cluster x.cluster).blocksUsed + (((x.k.getS 4).extractLsb' 12 5).toNat + 1) ≤ 32) = c.2.2.2) := by
  intro c hc
  have h : ∀ c ∈ [(2, [(3, accOf 2)], some true, true), (1, [(3, accOf 2)], some false, true), (32, [], none, true), (32, [(1, accOf 1)], none, false)],
      let s := zeroing c.1 c.2.1
      let x := vrun s
      okV s = true ∧ x.k.queue.length < 8 ∧ (x.k.getS 4).extractLsb' 17 15 = 0 ∧ (x.k.getS 4).extractLsb' 10 2 = 3 ∧ ((x.k.getS 4).extractLsb' 0 10).toNat = 3
      ∧ (SMap.find (s.cluster x.cluster).accs 3).map (fun a => a.blocks == ((x.k.getS 4).extractLsb' 12 5).toNat + 1) = c.2.2.1
      ∧ (SMap.find (s.cluster x.cluster).accs 3).all (fun a => a.asid == x.k.card.asid) = true
      ∧ (c.2.2.1 = none → decide ((s.cluster x.cluster).blocksUsed + (((x.k.getS 4).extractLsb' 12 5).toNat + 1) ≤ 32) = c.2.2.2) := by decide +kernel
  obtain ⟨h1, h2, h3, h4, h5, h6, h7, h8⟩ := h c hc
  exact metV _ h1 ⟨h2, h3, h4, h5, h6, fun a e => by rw [e] at h7; simpa using h7, h8⟩

/-- A drain of rows 30 and 31 of accumulator 3, rows apart by n elements, to 0x40000; `s4:5` is the destination, `s6` and `s7` the handle and the pitch. -/
def draining (rows : Nat) (n : Nat) : State :=
  queueing [] false (fun c => { c with accs := [(3, accOf 2)] }) [(4, 0x40040000), (6, BitVec.ofNat 32 (0xC03 + 4096 * 30 + 2 ^ 21 * (rows - 1))), (7, BitVec.ofNat 32 n)]
theorem test_met_VintnerCards_mdrain : ∀ c ∈ [(2, 1024, true), (3, 1024, false), (2, 1023, true), (2, 65535, true), (2, 65536, true)], ∃ s x acc p, VIssuing s x ∧ x.k.queue.length < 8
      ∧ (x.k.getS 6).extractLsb' 30 2 = 0 ∧ s.acc? x.cluster x.k.card.asid ((x.k.getS 6).extractLsb' 0 12).toNat = some acc
      ∧ decide (((x.k.getS 6).extractLsb' 12 9).toNat + (((x.k.getS 6).extractLsb' 21 9).toNat + 1) ≤ 16 * acc.blocks) = c.2.2
      ∧ s.translate x.unit x.k.card.asid (x.k.getS2 4) .write = (.ok p, s) ∧ p.fmt = 0 ∧ p.geo = 0 ∧ (x.k.getS 7).toNat = c.2.1 ∧ baseOk 0 (x.k.getS2 4) = true
      ∧ (c.2.1 < 65536 → ∃ l, s.drainRuns x (x.k.getS2 4) (drainSpans 0 (((x.k.getS 6).extractLsb' 21 9).toNat + 1) (x.k.getS 7).toNat) = (.ok l, s)) := by
  intro c hc
  have h : ∀ c ∈ [(2, 1024, true), (3, 1024, false), (2, 1023, true), (2, 65535, true), (2, 65536, true)], let s := draining c.1 c.2.1
      let x := vrun s
      let p := vpage s .write 0x40040000
      okV s = true ∧ x.k.queue.length < 8 ∧ (x.k.getS 6).extractLsb' 30 2 = 0 ∧ s.acc? x.cluster x.k.card.asid ((x.k.getS 6).extractLsb' 0 12).toNat = some (accOf 2)
      ∧ decide (((x.k.getS 6).extractLsb' 12 9).toNat + (((x.k.getS 6).extractLsb' 21 9).toNat + 1) ≤ 16 * (accOf 2).blocks) = c.2.2
      ∧ okIs (s.translate x.unit x.k.card.asid (x.k.getS2 4) .write) p s = true ∧ p.fmt = 0 ∧ p.geo = 0 ∧ (x.k.getS 7).toNat = c.2.1 ∧ baseOk 0 (x.k.getS2 4) = true
      ∧ (c.2.1 < 65536 → (match s.drainRuns x (x.k.getS2 4) (drainSpans 0 (((x.k.getS 6).extractLsb' 21 9).toNat + 1) (x.k.getS 7).toNat) with
          | (.ok _, t) => decide (t = s) | _ => false) = true) := by decide +kernel
  obtain ⟨h1, h2, h3, h4, h5, h6, h7, h8, h9, h10, h11⟩ := h c hc
  simp only [okV, Bool.and_eq_true, decide_eq_true_eq] at h1
  refine ⟨_, vrun _, _, _, ⟨0, h1.1, getD_some _ h1.2⟩, h2, h3, h4, h5, of_okIs h6, h7, h8, h9, h10, fun g => ?_⟩
  have e := h11 g
  split at e
  · rename_i l t q
    simp only [decide_eq_true_eq] at e
    exact ⟨l, by rw [q, e]⟩
  · cases e

def signalling : State := vint (fun k => { k with s := [(4, 0x40001000), (6, 9), (7, 1)] })
/-- A block at 0x1000. -/
def blockAt4 (op : Nat) (addr : W32 := 0x40001000) : State := vint (fun k => { k with s := [(4, addr)] }) |> stored 0x1000 64 op
theorem test_met_VintnerCards : (∃ s x p, VIssuing s x ∧ s.vPerformed x = true ∧ (x.k.getS2 4).toNat % 8 = 0 ∧ s.translate x.unit x.k.card.asid (x.k.getS2 4) .write = (.ok p, s)
      ∧ p.local = true ∧ p.pa % 8 = 0)
    ∧ (∀ c ∈ [(2, true), (3, false)], ∃ s x bs u, VIssuing s x ∧ s.vPerformed x = true ∧ s.unitRead x.unit x.k.card.asid (x.k.getS2 4) 64 .read = (.ok bs, u) ∧ (x.k.getS2 4).toNat % 64 = 0
      ∧ blkBad (BitVec.ofNat 512 (bytesNat bs)) = false ∧ (blkOp (BitVec.ofNat 512 (bytesNat bs)) == 2) = c.2 ∧ blkPrints (BitVec.ofNat 512 (bytesNat bs)) = 0
      ∧ (s.group x.k.die x.k.group).cards.length < 256)
    ∧ ∀ e ∈ [[], [0]], ∃ s x, VIssuing s x ∧ s.vPerformed x = true ∧ (s.die (x.cluster / 16)).ended = e ∧ x.k.card.guest = 0 := by
  refine ⟨?_, fun c hc => ?_, fun e he => ?_⟩
  · obtain ⟨s, x, h1, h2, h3, h4⟩ := metV signalling (by decide +kernel) (P := fun s x => s.vPerformed x = true ∧ (x.k.getS2 4).toNat % 8 = 0
        ∧ s.translate x.unit x.k.card.asid (x.k.getS2 4) .write = (.ok (vpage signalling .write 0x40001000), s))
      ⟨by decide +kernel, by decide +kernel, of_okIs (by decide +kernel)⟩
    exact ⟨s, x, _, h1, h2, h3, h4, by decide +kernel, by decide +kernel⟩
  · have h : ∀ c ∈ [(2, true), (3, false)], let s := blockAt4 c.1
        let x := vrun s
        let bs := (List.range 64).map (fun i => Memory.read s.mem (at_ 0x1000 + i))
        okV s = true ∧ s.vPerformed x = true ∧ isOk (s.unitRead x.unit x.k.card.asid (x.k.getS2 4) 64 .read).1 bs = true ∧ (x.k.getS2 4).toNat % 64 = 0
        ∧ blkBad (BitVec.ofNat 512 (bytesNat bs)) = false ∧ (blkOp (BitVec.ofNat 512 (bytesNat bs)) == 2) = c.2 ∧ blkPrints (BitVec.ofNat 512 (bytesNat bs)) = 0
        ∧ (s.group x.k.die x.k.group).cards.length < 256 := by decide +kernel
    obtain ⟨h1, h2, h3, h4⟩ := h c hc
    simp only [okV, Bool.and_eq_true, decide_eq_true_eq] at h1
    exact ⟨_, vrun _, _, _, ⟨0, h1.1, getD_some _ h1.2⟩, h2, of_isOk1 h3, h4⟩
  · have h : ∀ e ∈ [[], [0]], let s := vsome.setDie 0 { ended := e }
        okV s = true ∧ s.vPerformed (vrun s) = true ∧ (s.die ((vrun s).cluster / 16)).ended = e ∧ (vrun s).k.card.guest = 0 := by decide +kernel
    exact metV _ (h e he).1 (h e he).2

/-- A card for cluster 0 and class 2, dispatched. -/
def cardOf (v : Bool) (st : CardState) (block : BitVec 512) : Card := { codeCard with vintner := v, cls := 2, block := block, state := st }
def dispatched : State := State.reset.setDie 0 { groups := [(0, { cards := [cardOf true .dispatched 0] })] }
/-- A product card whose words 0, 1 are a and b. -/
def product (a b : Nat) (prod : Nat) (q : List ArrOp := []) (loaded : Bool := false) : State :=
  queueing q loaded (fun c => { c with accs := [(3, accOf 2)] }) [] prod { codeCard with block := BitVec.ofNat 512 (2 ^ 256 * a + 2 ^ 288 * b) }
def idleCtx : VCtx := { die := 0, group := 0, card := codeCard }
/-- Class 1 may issue, class 3 waits. -/
def switching : State := State.reset.setCluster 0 { vctx := [(1, idleCtx), (3, { idleCtx with wait := some (.page 0 0 false) })] }
theorem test_met_ArraySteps_cards : (∃ s x, State.dispatchedCard s 0 2 = some x ∧ SMap.find (s.cluster 0).vctx 2 = none)
    ∧ (∀ c ∈ [(codeCard, true), (cardOf true .running 0, false)], ∃ s k, SMap.find (State.cluster s 0).vctx 0 = some k ∧ k.prod = 0 ∧ decide (k.card.block.extractLsb' 192 64 ≠ 0) = c.2)
    ∧ (∀ c ∈ [(2 ^ 26, true), (0xC03, false)], ∃ s x, State.vRun? s 0 = some x ∧ x.cls = 0 ∧ x.k.card.code = 0 ∧ x.k.prod = 0 ∧ productBad x.k.card = c.2
      ∧ (c.2 = false → s.acc? 0 x.k.card.asid ((x.k.card.w 1).extractLsb' 0 12).toNat ≠ none))
    ∧ (∃ s x, State.vRun? s 0 = some x ∧ x.cls = 0 ∧ x.k.card.code = 0 ∧ x.k.prod = 3 ∧ 4 < ((x.k.card.w 0).extractLsb' 22 3).toNat)
    ∧ (∃ s x, State.vRun? s 0 = some x ∧ x.cls = 0 ∧ x.k.card.code = 0 ∧ x.k.prod = 2 ∧ ArrOp.swap ∉ x.k.queue ∧ x.k.loaded = true ∧ x.k.queue.length < 8)
    ∧ (∃ s x, State.vRun? s 0 = some x ∧ x.cls = 0 ∧ x.k.card.code = 0 ∧ x.k.prod = 3 + 3 * (((x.k.card.w 0).extractLsb' 26 6).toNat + 1) ∧ s.vPerformed x = true)
    ∧ ∃ (s : State) (k j : VCtx), SMap.find (s.cluster 0).vctx 1 = some k ∧ k.wait = none ∧ (∀ m j', 1 < m → m < 4 → SMap.find (s.cluster 0).vctx m = some j' → j' = j ∧ m = 3)
      ∧ ∃ w, j.wait = some w ∧ s.vOver 0 j w = false := by
  refine ⟨⟨dispatched, (0, 0, cardOf true .dispatched 0), by decide +kernel, by decide +kernel⟩, fun c hc => ?_, fun c hc => ?_,
    ⟨product (5 * 2 ^ 22) 0 3, vrun (product (5 * 2 ^ 22) 0 3), getD_some _ (by decide +kernel), by decide +kernel⟩,
    ⟨product 0 0 2 [] true, vrun (product 0 0 2 [] true), getD_some _ (by decide +kernel), by decide +kernel⟩,
    ⟨product (3 * 2 ^ 26) 0 15, vrun (product (3 * 2 ^ 26) 0 15), getD_some _ (by decide +kernel), by decide +kernel⟩,
    ⟨switching, idleCtx, { idleCtx with wait := some (.page 0 0 false) }, rfl, rfl, fun m j' h1 h2 h3 => ?_, _, rfl, rfl⟩⟩
  · have h : ∀ c ∈ [(codeCard, true), (cardOf true .running 0, false)], (SMap.find ((queueing [] false id [] 0 c.1).cluster 0).vctx 0).isSome = true
        ∧ (vrun (queueing [] false id [] 0 c.1)).k = (SMap.find ((queueing [] false id [] 0 c.1).cluster 0).vctx 0).getD { die := 0, group := 0, card := codeCard }
        ∧ (vrun (queueing [] false id [] 0 c.1)).k.prod = 0 ∧ decide ((vrun (queueing [] false id [] 0 c.1)).k.card.block.extractLsb' 192 64 ≠ 0) = c.2 := by decide +kernel
    exact ⟨_, _, (h c hc).2.1 ▸ getD_some _ (h c hc).1, (h c hc).2.2⟩
  · have h : ∀ c ∈ [(2 ^ 26, true), (0xC03, false)], let s := product 0 c.1 0
        (s.vRun? 0).isSome = true ∧ (vrun s).cls = 0 ∧ (vrun s).k.card.code = 0 ∧ (vrun s).k.prod = 0 ∧ productBad (vrun s).k.card = c.2
        ∧ (c.2 = false → (s.acc? 0 (vrun s).k.card.asid (((vrun s).k.card.w 1).extractLsb' 0 12).toNat).isSome = true) := by decide +kernel
    obtain ⟨h1, h2, h3, h4, h5, h6⟩ := h c hc
    exact ⟨_, vrun _, getD_some _ h1, h2, h3, h4, h5, fun e n => by have := h6 e; rw [n] at this; cases this⟩
  · obtain rfl | rfl : m = 2 ∨ m = 3 := by omega
    · cases h3
    · cases h3; exact ⟨rfl, rfl⟩

/-- The array of cluster 0, with a queue, a bank in each place, its A tile and its accumulator. -/
def arraying (q : List ArrOp) (b0 b1 : Bank) (loaded : Bool := false) (fmt : Nat := 0) : State :=
  withCluster (fun c => { c with bank0 := b0, bank1 := b1, tiles := [(5, aTile 0 0 4)], accs := [(3, accOf 2)] }) (vint (fun k => { k with queue := q, loaded := loaded }) .rc fmt)
def arun (s : State) : VRun := (s.arrayRun? 0).getD { cluster := 0, cls := 0, k := { die := 0, group := 0, card := codeCard }, pc := 0, start := 0 }
def arrays (s : State) : Bool := (s.arrayRun? 0).isSome
theorem arrays_of {s : State} (h : arrays s = true) : Arrays s 0 (arun s) := ⟨by decide, getD_some _ h⟩
/-- A bank that a fill of geometry g is filling from the page. -/
def fillingBank (g : Nat) : Bank := { state := .filling, spans := [{ pa := codeBase, len := unitBytes, peer := none, pv := false }], fmt := 10, geo := g }
theorem starts_of {s : State} {op : ArrOp} {rest : List ArrOp} (h : (arrays s && decide ((arun s).k.queue = op :: rest) && decide (op ≠ .swap) && !(s.cluster 0).bank0.refill
    && !(s.cluster 0).bank1.refill && !(s.cluster 0).tokenHeld op) = true) : Starts s 0 (arun s) op rest := by
  simp only [Bool.and_eq_true, decide_eq_true_eq, Bool.not_eq_true'] at h
  exact ⟨arrays_of h.1.1.1.1.1, h.1.1.1.1.2, h.1.1.1.2, h.1.1.2, h.1.2, h.2⟩
def aStep : ArrOp := .step 5 9 3 7 16 8 16 false false 0
def aDrain : ArrOp := .drain 3 7 30 2 1024 0 false false [(0, .rc, { pa := at_ 0x40000, len := 4 * (2 * 1024), peer := none, pv := false })] 0 0 0
theorem test_met_ArraySteps : (∃ s x, Arrays s 0 x ∧ (s.cluster 0).activeBank.busy = false ∧ (s.cluster 0).shadowBank = fillingBank 1 ∧ s.spansPoisoned (fillingBank 1).spans = false
      ∧ codeBase + unitBytes ≤ 2 ^ 39 ∧ ∀ rd, bWellFormed rd 10 1 = true)
    ∧ (∃ s x, Arrays s 0 x ∧ (s.cluster 0).shadowBank = fillingBank 3 ∧ bWellFormed (fun o => if o < unitBytes then Memory.read s.mem (codeBase + o) else 0) 10 3 = false)
    ∧ (∃ s x u, Arrays s 0 x ∧ (s.cluster 0).activeBank.busy = false ∧ (s.cluster 0).shadowBank.busy = true
      ∧ s.bankSpans x (s.cluster 0).shadowBank = (.error (.fault .unmappedAddress, 2 ^ 56), u))
    ∧ (∃ s x, Arrays s 0 x ∧ (s.cluster 0).activeBank.busy = false ∧ (s.cluster 0).shadowBank = fillingBank 1 ∧ s.spansPoisoned (fillingBank 1).spans = true)
    ∧ (∀ c ∈ [(BankState.ready, true), (BankState.empty, false)], ∃ s x rest, Arrays s 0 x ∧ x.k.queue = .swap :: rest ∧ (s.cluster 0).swapDue x.k = c.2)
    ∧ (∃ s x tl a, Starts s 0 x aStep [] ∧ SMap.find (s.cluster 0).tiles 5 = some tl ∧ tl.id = 9 ∧ tl.pending = 0 ∧ tl.reads = 0 ∧ SMap.find (s.cluster 0).accs 3 = some a ∧ a.id = 7
      ∧ a.stale = none ∧ (s.cluster 0).activeBank.spent = false)
    ∧ ∀ op ∈ [ArrOp.zero 3 7 0, .free 3 7 0, aDrain], ∃ s x a, Starts s 0 x op [] ∧ SMap.find (s.cluster 0).accs 3 = some a ∧ a.id = 7 ∧ ∀ b, NoPvCopy s b := by
  let lost := arraying [] { weights with state := .ready, refill := true, va := 2 ^ 56 } {}
  obtain ⟨u, hu⟩ := of_failsAs (x := lost.bankSpans (arun lost) (lost.cluster 0).shadowBank) (e := (.fault .unmappedAddress, 2 ^ 56)) (by decide +kernel)
  refine ⟨⟨arraying [] (fillingBank 1) {}, arun _, arrays_of (by decide +kernel), by decide +kernel, by decide +kernel, by decide +kernel, by decide, fun rd => rfl⟩,
    ⟨arraying [] (fillingBank 3) {}, arun _, arrays_of (by decide +kernel), by decide +kernel, by decide +kernel⟩,
    ⟨lost, arun lost, u, arrays_of (by decide +kernel), by decide +kernel, by decide +kernel, hu⟩,
    ⟨{ arraying [] (fillingBank 1) {} with poisoned := [lineOf codeBase] }, arun _, arrays_of (by decide +kernel), by decide +kernel, by decide +kernel, by decide +kernel⟩, fun c hc => ?_,
    ⟨arraying [aStep] {} weights, arun _, aTile 0 0 4, accOf 2, starts_of (by decide +kernel), by decide +kernel, rfl, rfl, rfl, by decide +kernel, rfl, rfl, by decide +kernel⟩, fun op ho => ?_⟩
  · have h : ∀ c ∈ [(BankState.ready, true), (BankState.empty, false)], let s := arraying [.swap, .zero 3 7 0] { weights with state := c.1 } {} true
        arrays s = true ∧ (arun s).k.queue = [.swap, .zero 3 7 0] ∧ (s.cluster 0).swapDue (arun s).k = c.2 := by decide +kernel
    exact ⟨_, arun _, _, arrays_of (h c hc).1, (h c hc).2⟩
  · have h : ∀ op ∈ [ArrOp.zero 3 7 0, .free 3 7 0, aDrain], let s := arraying [op] {} weights
        (arrays s && decide ((arun s).k.queue = [op]) && decide (op ≠ .swap) && !(s.cluster 0).bank0.refill
          && !(s.cluster 0).bank1.refill && !(s.cluster 0).tokenHeld op) = true ∧ SMap.find (s.cluster 0).accs 3 = some (accOf 2) := by decide +kernel
    exact ⟨_, arun _, accOf 2, starts_of (h op ho).1, (h op ho).2, rfl, noPvCopy rfl⟩

theorem test_mload : ((after (.mload 6 4 2) (loading 0x40000000)).cluster 0).bank0.state = .filling ∧ (vctxAfter (.mload 6 4 2) (loading 0x40000000)).getS 6 = 0x800 := by decide +kernel
theorem test_mstep : (vctxAfter (.mstep 5 4 0 0 0) (stepping 0 0 4 weights 16 16)).queue = [.step 5 9 3 7 16 8 16 false false (BitVec.ofNat 64 codeBase)] := by decide +kernel
theorem test_vsig : memAfter (.vsig ⟨6, 4⟩) signalling 0x1000 8 = 0x100000009 := by decide +kernel
theorem test_vdsub : ((after (.vdsub 4) (blockAt4 2)).group 0 0).cards.map (·.vintner) = [false] := by decide +kernel
theorem test_swap : ((after (.swap 0) (arraying [.swap, .zero 3 7 0] { weights with state := .ready } {} true)).cluster 0).active1 = false := by decide +kernel
theorem test_acc_zero : (((after (.accumulatorZero 0) (arraying [.zero 3 7 0] {} weights)).cluster 0).accs.map (fun a => a.2.data)) = [[]] := by decide +kernel

/-! ### Engines, cards, coprocessors -/

/-- The entry of a unit's cache for an address. -/
def hit (s : State) (u : UnitId) (asid : Nat) (va : W64) : TlbEntry :=
  (s.tlb.find? (fun t => decide (t.unit = u) && t.asid == asid && decide (t.base ≤ vaNat va) && decide (vaNat va < t.base + t.size))).getD (page u)
def upage (s : State) (u : UnitId) (asid : Nat) (va : W64) : Page := (hit s u asid va).page s.ports.devid (vaNat va)
/-- What `Cached` asks, as it can be computed. -/
def held (s : State) (u : UnitId) (asid : Nat) (va : W64) (n : Nat) : Bool :=
  let t := hit s u asid va
  let p := upage s u asid va
  canonical va && (s.tlb.find? (fun t => decide (t.unit = u) && t.asid == asid && decide (t.base ≤ vaNat va) && decide (vaNat va < t.base + t.size))).isSome
    && t.r && t.w && t.dirty && !(!p.remote && decide (spaceOf p.pa = .nothing)) && !(!p.remote && s.inAttrTable u.die p.pa) && p.local
    && decide (va.toNat % 2 ^ 52 + n ≤ p.base + p.size) && decide (p.pa + n ≤ 2 ^ 39)
    && decide (p.pa + n ≤ (s.die u.die).atbase.toNat ∨ (s.die u.die).atbase.toNat + 2 ^ 28 ≤ p.pa) && decide (s.poisoned = [])
theorem cached {s : State} {u : UnitId} {asid : Nat} {va : W64} {n : Nat} (h : held s u asid va n = true) : Cached s u asid va n (upage s u asid va) := by
  simp only [held, Bool.and_eq_true, decide_eq_true_eq, Bool.not_eq_true'] at h
  obtain ⟨⟨⟨⟨⟨⟨⟨⟨⟨⟨⟨h1, h2⟩, h3⟩, h4⟩, h5⟩, h6⟩, h7⟩, h8⟩, h9⟩, h10⟩, h12⟩, h11⟩ := h
  refine ⟨fun t acc ha ht hd hb => ?_, h8, h9, h10, h12, h11⟩
  have e := getD_some (page u) h2
  change _ = some (hit s u asid va) at e
  have hw : allowed acc (hit s u asid va).r (hit s u asid va).w (hit s u asid va).x = true := by
    rw [h3, h4]; cases acc <;> first | rfl | exact absurd rfl ha
  have hi : t.inAttrTable u.die (upage s u asid va).pa = s.inAttrTable u.die (upage s u asid va).pa := by unfold State.inAttrTable; rw [hb]
  have hp : (hit s u asid va).page s.ports.devid (vaNat va) = upage s u asid va := rfl
  unfold State.translate
  simp only [h1, ht, hd, e, hw, h5, hp, hi, h7, Bool.not_true, Bool.false_eq_true, if_false, and_false]
  rw [if_neg (by simpa using h6)]

/-- Ring 5 of group 2 of die 3, with its descriptor at 0x1000: its slots at 0x2000, a tail, a head, a status address, a control word. -/
def ringRef : RingRef := { die := 3, group := 2, ring := 5 }
def ringed3 (x : Ring) (tail head status ctl : Nat) (cards : List Card := []) : State :=
  ({ State.reset with tlb := [page (.engine 3)] } |> stored 0x1000 40 (at_ 0x2000 + 2 ^ 64 * tail + 2 ^ 128 * head + 2 ^ 192 * 6 + 2 ^ 256 * status) |> stored 0x1030 4 ctl).setDie 3
    { groups := [(2, { ctl := 1, rings := [(5, x)], cards := cards })] }
def ring0 : Ring := { valid := true, desc := 0x40001000 }
def onlyRing (s : State) : Bool :=
  decide ((s.die 3).inTurn = none) && (s.group 3 2).enabled && s.ringOpen ringRef && decide ((s.group 3 2).rings.map (·.1) = [5])
    && (List.range 64).all (fun m => m == 2 || !s.groupReady 3 m) && held s (.engine 3) (s.ring ringRef).asid (s.ring ringRef).desc 64
    && decide ((upage s (.engine 3) (s.ring ringRef).asid (s.ring ringRef).desc).pa % 64 = 0)
theorem onlyRing_of {s : State} (h : onlyRing s = true) : OnlyRing s ringRef (upage s (.engine 3) (s.ring ringRef).asid (s.ring ringRef).desc) := by
  simp only [onlyRing, Bool.and_eq_true, decide_eq_true_eq, List.all_eq_true, Bool.or_eq_true, Bool.not_eq_true', beq_iff_eq, List.mem_range] at h
  obtain ⟨⟨⟨⟨⟨⟨h1, h2⟩, h3⟩, h4⟩, h5⟩, h6⟩, h7⟩ := h
  refine ⟨by decide, by decide, by decide, h1, h2, h3, fun n ho => ?_, fun m hm hn => ?_, cached h6, h7⟩
  · by_cases hn : n = 5
    · exact hn
    · have e : SMap.find (s.group 3 2).rings n = none := by
        generalize (s.group 3 2).rings = l at h4
        rcases l with _ | ⟨q, _ | ⟨q2, t⟩⟩
        · rfl
        · have hq : q.1 = 5 := by simpa using h4
          have g : ¬ q.1 = n := by omega
          simp [SMap.find, g]
        · simp at h4
      have e : s.ring { ringRef with ring := n } = {} := by simp [State.ring, ringRef, SMap.getD, e]
      unfold State.ringOpen at ho
      rw [e] at ho
      cases ho
  · rcases h5 m hm with e | e
    · exact absurd e hn
    · exact e

/-- A block at 0x3000 that writes 0x77 to the word at 0x4000. -/
def walking : State :=
  stored 0x3000 64 (4 + 2 ^ 192 * 0x40004000 + 2 ^ 256 * 0x77) (ringed3 { ring0 with walk := some { entry := 9, cls := 0, cur := 0x40003000, stack := [], last := 0, turn := 0, since := 0 } } 1 0 0 (5 + 64))
def entry_ (n : Nat) (walked : Bool) : EntryState := { n := n, walked := walked, cards := 3, cause := 0, faultAddr := 0, last := 0, flags := 0, link := false }
/-- A ring's descriptor with a control word, and the descriptor of ASID 0 in the engine's cache. -/
def registering (ctl : Nat) : State :=
  { ringed3 {} 0 0 0 ctl with descs := [{ unit := .engine 3, asid := 0, root := 0, groups := 0, guest := 0, valid := true }] }
/-- Entry 7 of the ring is new, and names no block. -/
def newEntry : State := ringed3 ring0 8 7 0 (5 + 64)
theorem test_met_EngineTurns : (∃ s : State, (s.die 3).inTurn = none ∧ ∀ m n, s.ringOpen { die := 3, group := m, ring := n } = false)
    ∧ (∃ s p, Cached s (.engine 3) (s.ring ringRef).asid (s.ring ringRef).desc 64 p ∧ (s.ring ringRef).walk = none ∧ Memory.readNat s.mem (p.pa + 8) 8 = Memory.readNat s.mem (p.pa + 16) 8)
    ∧ (∃ s p q, OnlyRing s ringRef p ∧ (s.ring ringRef).walk = none ∧ Memory.readNat s.mem (p.pa + 16) 8 = 7 ∧ Memory.readNat s.mem (p.pa + 8) 8 = 8
      ∧ (Memory.readNat s.mem (p.pa + 48) 4).testBit 5 = false
      ∧ Cached s (.engine 3) (s.ring ringRef).asid (BitVec.ofNat 64 (Memory.readNat s.mem p.pa 8 + 8 * (7 % 2 ^ (Memory.readNat s.mem (p.pa + 48) 4 % 32)))) 8 q
      ∧ Memory.readNat s.mem q.pa 8 = 0)
    ∧ (∃ s p w cp q bs, OnlyRing s ringRef p ∧ (s.ring ringRef).walk = some w ∧ w.stack = [] ∧ w.cur ≠ 0 ∧ Cached s (.engine 3) (s.ring ringRef).asid w.cur 64 cp
      ∧ Memory.readBytes s.mem cp.pa 64 = bs ∧ blkBad (BitVec.ofNat 512 (bytesNat bs)) = false ∧ blkOp (BitVec.ofNat 512 (bytesNat bs)) = 4
      ∧ blkOperand (BitVec.ofNat 512 (bytesNat bs)) = 0 ∧ blkDrain (BitVec.ofNat 512 (bytesNat bs)) = false ∧ blkTest (BitVec.ofNat 512 (bytesNat bs)) = 0
      ∧ blkNext (BitVec.ofNat 512 (bytesNat bs)) = 0 ∧ Cached s (.engine 3) (s.ring ringRef).asid (blkWord (BitVec.ofNat 512 (bytesNat bs)) 24) 8 q ∧ q.pa % 8 = 0)
    ∧ (∀ st ∈ [0, 0x40006000], ∃ s p e, (State.ring s ringRef).valid = true ∧ (s.ring ringRef).donePage = none ∧ (s.ring ringRef).stopped = false ∧ (s.ring ringRef).entries = [e] ∧ e.walked = true
      ∧ (∀ c ∈ (s.group 3 2).cards, c.entry ≠ some (5, e.n)) ∧ Cached s (.engine 3) (s.ring ringRef).asid (s.ring ringRef).desc 64 p ∧ p.pa % 64 = 0
      ∧ Memory.readNat s.mem (p.pa + 32) 8 = st
      ∧ (st ≠ 0 → ∃ q, Cached s (.engine 3) (s.ring ringRef).asid (BitVec.ofNat 64 (st + 64 * (e.n % 2 ^ (Memory.readNat s.mem (p.pa + 48) 4 % 32)))) 64 q ∧ p.pa + 64 ≤ q.pa) ∧ ∀ a, NoPvCopy s a)
    ∧ (∀ c ∈ [(5 + 2 ^ 24, true), (5, false)], ∃ s p, (State.ring s ringRef).valid = true ∧ (s.ring ringRef).stopped = true ∧ (s.ring ringRef).fault.isSome = true ∧ (s.ring ringRef).unwritten = none
      ∧ Cached s (.engine 3) (s.ring ringRef).asid (s.ring ringRef).desc 64 p ∧ p.pa % 64 = 0 ∧ (Memory.readNat s.mem (p.pa + 48) 4).testBit 24 = c.2)
    ∧ ∀ c ∈ [(5 + 64, true), (5, false)], ∃ s p, State.descriptor s (.engine 3) 0 = ((State.descriptor s (.engine 3) 0).1, s) ∧ (s.descriptor (.engine 3) 0).1.guest = (s.group 3 2).guest
      ∧ Cached s (.engine 3) 0 0x40001000 64 p ∧ p.kind ≠ .ws ∧ p.kind ≠ .pv
      ∧ decide (ctlBad (Memory.readNat s.mem (p.pa + 48) 4) = false ∧ Memory.readNat s.mem (p.pa + 48) 4 / 64 % 4 = 1) = c.2 := by
  refine ⟨⟨State.reset, rfl, fun m n => rfl⟩, ⟨ringed3 ring0 7 7 0 (5 + 64), _, cached (by decide +kernel), rfl, by decide +kernel⟩,
    ⟨newEntry, _, _, onlyRing_of (by decide +kernel), rfl, by decide +kernel, by decide +kernel, by decide +kernel, cached (by decide +kernel), by decide +kernel⟩,
    ⟨walking, _, _, _, _, _, onlyRing_of (by decide +kernel), rfl, rfl, by decide, cached (by decide +kernel), rfl, by decide +kernel, by decide +kernel, by decide +kernel, by decide +kernel,
      by decide +kernel, by decide +kernel, cached (by decide +kernel), by decide +kernel⟩, fun st hst => ?_, fun c hc => ?_, fun c hc => ?_⟩
  · have h : ∀ st ∈ [0, 0x40006000], let s := ringed3 { ring0 with entries := [entry_ 33 true] } 34 33 st 5
        let p := upage s (.engine 3) 0 0x40001000
        (s.ring ringRef).valid = true ∧ (s.ring ringRef).donePage = none ∧ (s.ring ringRef).stopped = false ∧ (s.ring ringRef).entries = [entry_ 33 true]
        ∧ (∀ c ∈ (s.group 3 2).cards, c.entry ≠ some (5, 33)) ∧ held s (.engine 3) (s.ring ringRef).asid (s.ring ringRef).desc 64 = true ∧ p.pa % 64 = 0 ∧ Memory.readNat s.mem (p.pa + 32) 8 = st
        ∧ (st ≠ 0 → held s (.engine 3) (s.ring ringRef).asid (BitVec.ofNat 64 (st + 64 * (33 % 2 ^ (Memory.readNat s.mem (p.pa + 48) 4 % 32)))) 64 = true
          ∧ p.pa + 64 ≤ (upage s (.engine 3) (s.ring ringRef).asid (BitVec.ofNat 64 (st + 64 * (33 % 2 ^ (Memory.readNat s.mem (p.pa + 48) 4 % 32))))).pa) := by decide +kernel
    obtain ⟨h1, h2, h3, h4, h5, h6, h7, h8, h9⟩ := h st hst
    exact ⟨_, _, _, h1, h2, h3, h4, rfl, h5, cached h6, h7, h8, fun e => ⟨_, cached (h9 e).1, (h9 e).2⟩, noPvCopy rfl⟩
  · have h : ∀ c ∈ [(5 + 2 ^ 24, true), (5, false)], let s := ringed3 { ring0 with stopped := true, fault := some (3, 0) } 7 7 0 c.1
        let p := upage s (.engine 3) 0 0x40001000
        (s.ring ringRef).valid = true ∧ (s.ring ringRef).stopped = true ∧ (s.ring ringRef).fault.isSome = true ∧ held s (.engine 3) (s.ring ringRef).asid (s.ring ringRef).desc 64 = true
        ∧ p.pa % 64 = 0 ∧ (Memory.readNat s.mem (p.pa + 48) 4).testBit 24 = c.2 := by decide +kernel
    obtain ⟨h1, h2, h3, h4, h5, h6⟩ := h c hc
    exact ⟨_, _, h1, h2, h3, rfl, cached h4, h5, h6⟩
  · have h : ∀ c ∈ [(5 + 64, true), (5, false)], let s := registering c.1
        let p := upage s (.engine 3) 0 0x40001000
        s.descriptor (.engine 3) 0 = ((s.descriptor (.engine 3) 0).1, s) ∧ (s.descriptor (.engine 3) 0).1.guest = (s.group 3 2).guest ∧ held s (.engine 3) 0 0x40001000 64 = true
        ∧ p.kind ≠ .ws ∧ p.kind ≠ .pv ∧ decide (ctlBad (Memory.readNat s.mem (p.pa + 48) 4) = false ∧ Memory.readNat s.mem (p.pa + 48) 4 / 64 % 4 = 1) = c.2 := by decide +kernel
    obtain ⟨h1, h2, h3, h4⟩ := h c hc
    exact ⟨_, _, h1, h2, cached h3, h4⟩

/-- Two cards of group 2 of die 0: the first for cluster 0, class 2; the second waits for it. -/
def carded (st : CardState) (ended : Option (Nat × W64 × BitVec 5)) : State :=
  State.reset.setDie 0 { groups := [(2, { rings := [(5, { ring0 with entries := [entry_ 9 true] })], cards :=
    [{ cardOf false st 0 with ended := ended, entry := some (5, 9) }, { cardOf false .pending 0 with id := 4, edges := [0], entry := some (5, 9) }] })] }
/-- A Decanter at unit (row, col) of a raw copy of 2 rows of 3 bytes, from 0x1000 to 0x2000, or of a card that breaks R369. -/
def slotOf (row col : Nat) (rows : Nat := 2) : DecSlot :=
  { die := 0, group := 0, row := row, col := col, flags := 0, state := 1, page := none, ahead := 0, card := { cardOf false .running (copyBlock rows) with cls := 1 } }
  where copyBlock (rows : Nat) : BitVec 512 :=
    BitVec.ofNat 512 (2 + 2 ^ 192 * 0x40001000 + 2 ^ 256 * 0x40002000 + 2 ^ 320 * 3 + 2 ^ 336 * rows + 2 ^ 352 * 5 + 2 ^ 368 * 4 + 2 ^ 448 * 255)
def copying (row col : Nat) (rows : Nat := 2) : State :=
  withCluster (fun c => { c with decCur := some 1, dec := [(1, slotOf row col rows)] }) { State.reset with tlb := [page (.decanter 0)] }
    |> stored 0x1000 16 0x0F0E0D0C0B0A0908070605040302
def reachesByte (s : State) (a : W64) : Bool :=
  held s (.decanter 0) 0 a 1 && decide ((upage s (.decanter 0) 0 a).fmt = 0) && decide ((upage s (.decanter 0) 0 a).geo = 0)
theorem test_decChoice : ∀ q ∈ [(0, 0, 2), (0, 2, 2), (1, 2, 2), (0, 0, 0)], (copying q.1 q.2.1 q.2.2).decChoice 0 = some 1 := by decide +kernel
/-- The addresses of a chunk. -/
def chunkAt (q : Nat × Nat) : List W64 :=
  let d := (slotOf q.1 q.2).card.dec
  [d.src, d.dst, d.src + BitVec.ofNat 64 (q.1 * d.ps + q.2), d.dst + BitVec.ofNat 64 (q.1 * d.pd + q.2)]
theorem chunkAt_00 : chunkAt (0, 0) = [0x40001000, 0x40002000, 0x40001000, 0x40002000] := by decide +kernel
theorem chunkAt_02 : chunkAt (0, 2) = [0x40001000, 0x40002000, 0x40001002, 0x40002002] := by decide +kernel
theorem chunkAt_12 : chunkAt (1, 2) = [0x40001000, 0x40002000, 0x40001007, 0x40002006] := by decide +kernel
theorem reaches_00 : ([0x40001000, 0x40002000, 0x40001000, 0x40002000] : List W64).all (reachesByte (copying 0 0)) = true := by decide +kernel
theorem reaches_02 : ([0x40001000, 0x40002000, 0x40001002, 0x40002002] : List W64).all (reachesByte (copying 0 2)) = true := by decide +kernel
theorem reaches_12 : ([0x40001000, 0x40002000, 0x40001007, 0x40002006] : List W64).all (reachesByte (copying 1 2)) = true := by decide +kernel
theorem chunk_held {q : Nat × Nat} {l : List W64} (e : chunkAt q = l) (r : l.all (reachesByte (copying q.1 q.2)) = true) (a : W64) (h : a ∈ chunkAt q) :
    ∃ p, Cached (copying q.1 q.2) (.decanter 0) 0 a 1 p ∧ p.fmt = 0 ∧ p.geo = 0 := by
  have r := List.all_eq_true.mp r a (e ▸ h)
  simp only [reachesByte, Bool.and_eq_true, decide_eq_true_eq] at r
  exact ⟨_, cached r.1.1, r.1.2, r.2⟩
theorem copying_dec (row col rows : Nat) : ((copying row col rows).cluster 0).decCur = some 1 ∧ SMap.find ((copying row col rows).cluster 0).dec 1 = some (slotOf row col rows) := ⟨rfl, rfl⟩
theorem test_met_Cards : (∃ s c, (State.group s 0 2).cards.head? = some c ∧ c.state = .pending ∧ c.edges = [] ∧ s.engineFree c.vintner c.cluster c.cls = true ∧ s.nextCardIs c = true)
    ∧ (∃ s c, (State.group s 0 2).cards.drop 1 = [c] ∧ c.edges ≠ [])
    ∧ (∃ s c e, (State.group s 0 2).cards.head? = some c ∧ c.ended = some (3, 5, 1) ∧ c.entry = some (5, e.n) ∧ (s.ring { die := 0, group := 2, ring := 5 }).entries = [e])
    ∧ (∀ q ∈ [(0, 0), (0, 2), (1, 2)], ∃ s k, (State.cluster s 0).decCur = some 1 ∧ s.decChoice 0 = some 1 ∧ SMap.find (s.cluster 0).dec 1 = some k ∧ k.card.dec.bad = false ∧ k.card.dec.dk = 0
      ∧ k.card.dec.st = 15 ∧ k.card.dec.dt = 15 ∧ k.row = q.1 ∧ k.col = q.2 ∧ k.row < k.card.dec.rows ∧ k.col < k.card.dec.cols
      ∧ k.card.asid = 0 ∧ k = slotOf q.1 q.2 ∧ ∀ a ∈ chunkAt q, ∃ p, Cached s (.decanter 0) 0 a 1 p ∧ p.fmt = 0 ∧ p.geo = 0)
    ∧ ∃ s k, (State.cluster s 0).decCur = some 1 ∧ s.decChoice 0 = some 1 ∧ SMap.find (s.cluster 0).dec 1 = some k ∧ k.card.dec.bad = true := by
  refine ⟨⟨carded .pending none, { cardOf false .pending 0 with entry := some (5, 9) }, by decide +kernel⟩,
    ⟨carded .pending none, { cardOf false .pending 0 with id := 4, edges := [0], entry := some (5, 9) }, by decide +kernel⟩,
    ⟨carded .running (some (3, 5, 1)), { cardOf false .running 0 with ended := some (3, 5, 1), entry := some (5, 9) }, entry_ 9 true, by decide +kernel⟩, fun q hq => ?_,
    ⟨copying 0 0 0, slotOf 0 0 0, (copying_dec 0 0 0).1, test_decChoice (0, 0, 0) (by decide), (copying_dec 0 0 0).2, by decide +kernel⟩⟩
  have h : ∀ q ∈ [(0, 0), (0, 2), (1, 2)], (slotOf q.1 q.2).card.dec.bad = false ∧ (slotOf q.1 q.2).card.dec.dk = 0 ∧ (slotOf q.1 q.2).card.dec.st = 15
      ∧ (slotOf q.1 q.2).card.dec.dt = 15 ∧ (slotOf q.1 q.2).row < (slotOf q.1 q.2).card.dec.rows ∧ (slotOf q.1 q.2).col < (slotOf q.1 q.2).card.dec.cols := by decide +kernel
  obtain ⟨h4, h5, h6, h7, h10, h11⟩ := h q hq
  simp only [List.mem_cons, List.not_mem_nil, or_false] at hq
  obtain rfl | rfl | rfl := hq
  · exact ⟨copying 0 0, slotOf 0 0, (copying_dec 0 0 2).1, test_decChoice (0, 0, 2) (by decide), (copying_dec 0 0 2).2, h4, h5, h6, h7, rfl, rfl, h10, h11, rfl, rfl, chunk_held chunkAt_00 reaches_00⟩
  · exact ⟨copying 0 2, slotOf 0 2, (copying_dec 0 2 2).1, test_decChoice (0, 2, 2) (by decide), (copying_dec 0 2 2).2, h4, h5, h6, h7, rfl, rfl, h10, h11, rfl, rfl, chunk_held chunkAt_02 reaches_02⟩
  · exact ⟨copying 1 2, slotOf 1 2, (copying_dec 1 2 2).1, test_decChoice (1, 2, 2) (by decide), (copying_dec 1 2 2).2, h4, h5, h6, h7, rfl, rfl, h10, h11, rfl, rfl, chunk_held chunkAt_12 reaches_12⟩

/-- A render target at 0x5000 whose owner is cluster 0: 16 by 16 pixels, depth at 0x6000, stream and commit word at draw 3, token 7. -/
def targetNat : Nat := 2 ^ 64 * 0x40006000 + 2 ^ 192 * 16 + 2 ^ 208 * 16 + 2 ^ 256 * (3 * 2 ^ 20 + 7) + 2 ^ 320 * (3 * 2 ^ 20 + 7)
def targetAt (s : State) : State := stored 0x5000 64 targetNat s
def call1 (u : CopUnit) (minor : Nat) (ctl : W32) : Call :=
  { id := 5, unit := u, major := 0x35, minor := minor, posted := false, crew := 0, gang := 0, slices := 255, lanes := 0x80000001, asid := 0, dest := 8, base := 2
    sregs := [ctl, 0, 0x40005000, 0], vregs := [(64, 0x3F000000)], cluster := 0 }
/-- Lane 0 of predicate 3 calls with the block at `s2`; the unit's queue holds n calls. -/
def calling (n : Nat) (u : CopUnit) (ctl : W32 := 0) (live : Nat := 0) : State :=
  withCluster (fun c => { c with calls := List.replicate n (call1 u 0 0), targets := if live = 0 then [] else
    [(at_ 0x5000, { asid := 0, va := 0x40005000, desc := 0, live := List.range live, draw := 0, next := 0, stream := 0, commit := 0 })] })
    (targetAt (ofRegs { s := [(2, ctl), (4, 0x40005000)], p := [(3, 1)] } [page (.core 0), page (.coprocessor 0)]))
theorem test_met_CoprocessorCalls : (∀ u ∈ [CopUnit.raster, .depth, .blend, .texture, .traversal], ∀ n ∈ [15, 16], ∃ s x, Issuing s x ∧ Fresh s x ∧ Settled s x ∧ x.lanes 3 = [0]
      ∧ Holds x [(40, 8), (48, 6)] ∧ (s.cluster 0).queued u = n)
    ∧ ∀ n ∈ [4095, 4096], ∃ s x p, Issuing s x ∧ Fresh s x ∧ Settled s x ∧ x.lanes 3 = [0] ∧ Holds x [(40, 6), (48, 2)] ∧ (x.g.regs.getS2 0 4).toNat % 64 = 0
      ∧ Cached s (.coprocessor 0) x.c.asid (x.g.regs.getS2 0 4) 64 p ∧ (Memory.read s.mem (p.pa + 29)).toNat = 0 ∧ (s.cluster 0).queued .depth < 16
      ∧ takeWaits (s.cluster 0) (targetKey p) (x.lanes 3).length (x.g.regs.getS 0 2) = (n == 4096) := by
  refine ⟨fun u hu n hn => ?_, fun n hn => ?_⟩
  · have h : ∀ u ∈ [CopUnit.raster, .depth, .blend, .texture, .traversal], ∀ n ∈ [15, 16], ok (calling n u) = true ∧ Settled (calling n u) (ctx (calling n u)) ∧ (ctx (calling n u)).lanes 3 = [0]
        ∧ Holds (ctx (calling n u)) [(40, 8), (48, 6)] ∧ ((calling n u).cluster 0).queued u = n := by unfold Settled Holds; decide +kernel
    exact met _ (h u hu n hn).1 (h u hu n hn).2
  · have h : ∀ n ∈ [4095, 4096], let s := calling 0 .depth 0 n
        let x := ctx s
        let p := upage s (.coprocessor 0) 0 0x40005000
        ok s = true ∧ Settled s x ∧ x.lanes 3 = [0] ∧ Holds x [(40, 6), (48, 2)] ∧ x.c.asid = 0 ∧ x.g.regs.getS2 0 4 = 0x40005000 ∧ held s (.coprocessor 0) 0 0x40005000 64 = true
        ∧ (Memory.read s.mem (p.pa + 29)).toNat = 0 ∧ (s.cluster 0).queued .depth < 16
        ∧ takeWaits (s.cluster 0) (targetKey p) (x.lanes 3).length (x.g.regs.getS 0 2) = (n == 4096) := by unfold Settled Holds; decide +kernel
    obtain ⟨h1, h2, h3, h4, h5, h6, h7, h8⟩ := h n hn
    refine ⟨calling 0 .depth 0 n, ctx (calling 0 .depth 0 n), _, ok_issuing h1, ok_fresh h1, h2, h3, h4, ?_, ?_, h8⟩
    · rw [h6]; decide
    · rw [h5, h6]; exact cached h7

/-- A take of tokens by lanes 0 and 31, first in the depth unit of cluster 0. -/
def taking (ctl : W32) : State :=
  withCluster (fun c => { c with calls := [call1 .depth 0 ctl] }) (targetAt { some_ with tlb := [page (.coprocessor 0)] })
def targetDesc (s : State) : BitVec 512 := BitVec.ofNat 512 (Memory.readNat s.mem (at_ 0x5000) 64)
theorem targetDesc_taking (ctl : W32) : targetDesc (taking ctl) = BitVec.ofNat 512 targetNat := by
  have h : targetDesc (targetAt { some_ with tlb := [page (.coprocessor 0)] }) = BitVec.ofNat 512 targetNat := by decide +kernel
  exact h
/-- The same target, as its owner keeps it, with a token. -/
def keptTarget (live : List Nat) : Target :=
  { asid := 0, va := 0x40005000, desc := BitVec.ofNat 512 targetNat, live := live, draw := 3, next := 8, stream := 3 * 2 ^ 20 + 8, commit := 3 * 2 ^ 20 + 7 }
def lane_ (entered : Bool) (token : Nat) (order : Nat := 0) : HeldLane :=
  { call := call1 .depth 1 8, lane := 0, target := at_ 0x5000, tile := some 0, sample := 1, token := token, entered := entered, done := false, sent := false, result := 0, order := order }
def holding (l : List HeldLane) (live : List Nat) : State :=
  withCluster (fun c => { c with held := l, targets := [(at_ 0x5000, keptTarget live)] }) (targetAt { some_ with tlb := [page (.coprocessor 0)] })
/-- 63 other tokens in the window of tile 0. -/
def others (n : Nat) : List HeldLane := (List.range n).map (fun i => lane_ true (100 + i) (i + 1))
/-- A record for gang 0, which waits for it. -/
def arriving : State :=
  let s := ofGang { waiting 3 0 0 (gangOf {}) with records := [{ call := 5, slices := 255, reg := 8, count := 2 }] }
  withCluster (fun c => { c with records := [{ call := call1 .depth 0 0, words := [(0, 7), (63, 9)], cursor := some 6 }] }) s
theorem test_met_CoprocessorUnits : (∀ n ∈ [0, 3, 4], ∃ s k p q, (State.cluster s 0).calls = [k] ∧ k.unit = .depth ∧ k.major = 0x35 ∧ k.minor = 0 ∧ k.posted = false ∧ k.s 0 = BitVec.ofNat 32 n ∧ k.s 1 = 0
      ∧ (k.s2 2).toNat % 64 = 0 ∧ Cached s (.coprocessor 0) k.asid (k.s2 2) 64 p ∧ p.kind = .rc ∧ p.pa = at_ 0x5000 ∧ tgBad (targetDesc s) = false ∧ tgOwner (targetDesc s) = 0
      ∧ Cached s (.coprocessor 0) k.asid (k.s2 2 + 32) 8 q ∧ q.pa = p.pa + 32 ∧ k.laneList.length = 2 ∧ tgStream (targetDesc s) % 2 ^ 20 + 2 ≤ 2 ^ 20
      ∧ tgCommit (targetDesc s) = tgStream (targetDesc s) ∧ (s.cluster 0).targets = [] ∧ (s.cluster 0).held = [] ∧ ∀ g, s.gang? k.crew k.gang = some g → ∀ j, (g.slice j).wait = none)
    ∧ (∀ c ∈ [(62, false), (63, true)], ∃ s h, (State.cluster s 0).held.head? = some h ∧ h.tile = some 0 ∧ h.entered = false ∧ h.token = 200 ∧ h.token ∉ (s.cluster 0).window h.target 0
      ∧ ((s.cluster 0).window h.target 0).length = c.1)
    ∧ (∃ s h g p, (State.cluster s 0).held = [h] ∧ SMap.find (s.cluster 0).targets h.target = some g ∧ (s.cluster 0).performable h = true ∧ h.call.minor = 1 ∧ h.call.last = false
      ∧ h.token ∈ g.live ∧ h.token ≤ g.commit ∧ tgDepth g.desc ≠ 0 ∧ tgStencil g.desc = 0 ∧ Cached s (.coprocessor 0) h.call.asid (tgDepth g.desc + BitVec.ofNat 64 (h.sample * 4)) 4 p
      ∧ p.pa % 4 = 0)
    ∧ ∃ s r c g p, (State.cluster s 0).records = [r] ∧ s.crew? r.call.crew = some c ∧ c.phase = .running ∧ s.gang? r.call.crew r.call.gang = some g ∧ g.records = [p] ∧ p.call = r.call.id := by
  refine ⟨fun n hn => ?_, fun c hc => ?_, ?_, ⟨arriving, { call := call1 .depth 0 0, words := [(0, 7), (63, 9)], cursor := some 6 }, (arriving.crew? 0).getD codeCrew, (arriving.gang? 0 0).getD {},
    { call := 5, slices := 255, reg := 8, count := 2 }, by decide +kernel, getD_some _ (by decide +kernel), by decide +kernel, getD_some _ (by decide +kernel), by decide +kernel, rfl⟩⟩
  · have e : (call1 .depth 0 (BitVec.ofNat 32 n)).s2 2 = 0x40005000 := (show pairOf (0x40005000 : W32) 0 = 0x40005000 by decide)
    have h : ∀ n ∈ [0, 3, 4], held (taking (BitVec.ofNat 32 n)) (.coprocessor 0) 0 0x40005000 64 = true ∧ held (taking (BitVec.ofNat 32 n)) (.coprocessor 0) 0 (0x40005000 + 32) 8 = true
        ∧ (upage (taking (BitVec.ofNat 32 n)) (.coprocessor 0) 0 0x40005000).kind = .rc ∧ (upage (taking (BitVec.ofNat 32 n)) (.coprocessor 0) 0 0x40005000).pa = at_ 0x5000
        ∧ (upage (taking (BitVec.ofNat 32 n)) (.coprocessor 0) 0 (0x40005000 + 32)).pa = (upage (taking (BitVec.ofNat 32 n)) (.coprocessor 0) 0 0x40005000).pa + 32
        ∧ tgBad (BitVec.ofNat 512 targetNat) = false ∧ tgOwner (BitVec.ofNat 512 targetNat) = 0
        ∧ tgStream (BitVec.ofNat 512 targetNat) % 2 ^ 20 + 2 ≤ 2 ^ 20 ∧ tgCommit (BitVec.ofNat 512 targetNat) = tgStream (BitVec.ofNat 512 targetNat)
        ∧ ((taking (BitVec.ofNat 32 n)).cluster 0).calls = [call1 .depth 0 (BitVec.ofNat 32 n)] ∧ ((taking (BitVec.ofNat 32 n)).cluster 0).targets = [] ∧ ((taking (BitVec.ofNat 32 n)).cluster 0).held = []
        ∧ (call1 .depth 0 (BitVec.ofNat 32 n)).laneList.length = 2 ∧ (taking (BitVec.ofNat 32 n)).gang? 0 0 = some (gangOf someRegs) := by decide +kernel
    obtain ⟨h1, h2, h3, h4, h5, h6, h7, h8, h9, h10, h11, h12, h13, h14⟩ := h n hn
    rw [← targetDesc_taking (BitVec.ofNat 32 n)] at h6 h7 h8 h9
    refine ⟨taking (BitVec.ofNat 32 n), call1 .depth 0 (BitVec.ofNat 32 n), _, _, h10, rfl, rfl, rfl, rfl, rfl, rfl, by rw [e]; decide, by rw [e]; exact cached h1, h3, h4, h6, h7, by rw [e]; exact cached h2, h5, h13, h8, h9, h11, h12,
      fun g hg j => ?_⟩
    have : some (gangOf someRegs) = some g := h14.symm.trans hg
    cases this
    unfold Gang.slice List.getD
    by_cases hj : j < 8
    · have : ∀ j, j < 8 → ((gangOf someRegs).slices[j]?.getD { exited := true }).wait = none := by decide +kernel
      exact this j hj
    · rw [List.getElem?_eq_none (by simp [gangOf, Gang.start]; omega)]; rfl
  · have h : ∀ c ∈ [(62, false), (63, true)], ((holding (lane_ false 200 :: others c.1) [50, 200]).cluster 0).held.head? = some (lane_ false 200)
        ∧ 200 ∉ ((holding (lane_ false 200 :: others c.1) [50, 200]).cluster 0).window (at_ 0x5000) 0
        ∧ (((holding (lane_ false 200 :: others c.1) [50, 200]).cluster 0).window (at_ 0x5000) 0).length = c.1 := by decide +kernel
    exact ⟨_, lane_ false 200, (h c hc).1, rfl, rfl, rfl, (h c hc).2⟩
  · exact ⟨holding [lane_ true (3 * 2 ^ 20 + 7)] [3 * 2 ^ 20 + 7], lane_ true (3 * 2 ^ 20 + 7), keptTarget [3 * 2 ^ 20 + 7], upage (holding [lane_ true (3 * 2 ^ 20 + 7)] [3 * 2 ^ 20 + 7]) (.coprocessor 0) 0 0x40006004,
      by decide +kernel, by decide +kernel, by decide +kernel, rfl, by decide +kernel, by decide, by decide, by decide +kernel, by decide +kernel, by
        have e : tgDepth (keptTarget [3 * 2 ^ 20 + 7]).desc + BitVec.ofNat 64 ((lane_ true (3 * 2 ^ 20 + 7)).sample * 4) = 0x40006004 := by decide +kernel
        rw [e]; exact cached (by decide +kernel), by decide +kernel⟩

theorem test_engine_idle : after (.engineTurn 3) (ringed3 ring0 7 7 0 (5 + 64)) = ringed3 ring0 7 7 0 (5 + 64) := by decide +kernel
theorem test_engine_takes : memAfter (.engineTurn 3) newEntry 0x1010 8 = 8 := by decide +kernel
theorem test_engine_writes : memAfter (.engineTurn 3) walking 0x4000 8 = 0x77 := by decide +kernel
theorem test_entry : memAfter (.entryComplete ringRef) (ringed3 { ring0 with entries := [entry_ 33 true] } 34 33 0 5) 0x1018 8 = 7 := by decide +kernel
theorem test_dispatch : ((after (.cardDispatch 0 2 0) (carded .pending none)).group 0 2).cards.map (fun c => decide (c.state = .dispatched)) = [true, false] := by decide +kernel
theorem test_copy : memAfter (.decanterChunk 0 1) (copying 1 2) 0x2006 1 = 9 ∧ (SMap.find ((after (.decanterChunk 0 1) (copying 1 2)).cluster 0).dec 1).isNone = true := by decide +kernel
theorem test_take : memAfter (.coprocessorServe 0 .depth) (taking 0) 0x5020 8 = 3 * 2 ^ 20 + 9 := by decide +kernel
theorem test_zs : memAfter (.lanePerform 0 0) (holding [lane_ true (3 * 2 ^ 20 + 7)] [3 * 2 ^ 20 + 7]) 0x6004 4 = 0 := by decide +kernel
theorem test_record : ((after (.callRecordArrival 0 0) arriving).gang? 0 0).map (fun g => (g.regs.getV 8 0, g.regs.getV 9 31, g.regs.getS 3 14)) = some (7, 9, 6) := by decide +kernel

/-! ### The control space, plug-ins, resident cores -/

theorem test_met_ControlSpace : (∃ off size, regAligned off size = false) ∧ (∃ s dn, dn < 4 ∧ (State.die s dn).faults = []) :=
  ⟨⟨1, 8, by decide⟩, ⟨State.reset, 0, by decide, rfl⟩⟩

/-- The plug-in of tenant 5 of die 1, in an event; guest 3 has a ceiling. -/
def plugged (event failures : Nat) (guests : List Nat) (clock : Nat := 24007) (ov : List Notice := []) : State :=
  ({ State.reset with clock := clock }.setDie 1 { guse := [(3, 9)], overruns := ov, gshare := [(0, 1024)] }).setPlugin 1 5
    { enabled := true, event := event, failures := failures, guests := guests, ceilings := [(3, 500)], since := 7, window := (0x1000, 512) }
def mayCall (s : State) : Bool :=
  (s.plugin 1 5).enabled && decide ((s.plugin 1 5).failures < 3) && (s.die 1).plugins.all (fun q => q.2.event == 0)
def overran (g : Nat) : Notice := { crew := 7, guest := g, deadline := 99, clock := 103 }
theorem test_met_PlugIns : (∃ s : State, mayCall s = true ∧ (s.die 1).overruns = [] ) ∧ (∃ s : State, mayCall s = false)
    ∧ (∃ (s : State) (n : Notice) (rest : _), mayCall s = true ∧ (s.die 1).overruns = n :: rest ∧ n.guest ∈ (s.plugin 1 5).guests)
    ∧ (∃ s : State, (s.plugin 1 5).event = 0)
    ∧ (∃ (s : State) (reply : _), (s.plugin 1 5).event = 1 ∧ (s.plugin 1 5).guests.Nodup ∧ (∀ g ∈ (s.plugin 1 5).guests, g < 64) ∧ ((sharesAsked (s.plugin 1 5) reply).map (·.2)).sum = 1024)
    ∧ (∃ (s : State) (reply : _), (s.plugin 1 5).event = 1 ∧ (s.plugin 1 5).guests.Nodup ∧ (∀ g ∈ (s.plugin 1 5).guests, g < 64) ∧ ((sharesAsked (s.plugin 1 5) reply).map (·.2)).sum = 1025)
    ∧ (∃ s : State, mayCall s = true ∧ 256 ≤ (s.plugin 1 5).window.2 ∧ (s.plugin 1 5).window.1 + (s.plugin 1 5).window.2 ≤ 2 ^ 19)
    ∧ (∃ s : State, (s.die 1).plugins.find? (fun r => r.2.event != 0) = some (5, s.plugin 1 5) ∧ (s.die 1).permits 0x1200 8 1 = false)
    ∧ (∃ s : State, (s.plugin 1 5).event = 2 ∧ (s.plugin 1 5).since + 24000 = s.clock)
    ∧ ∃ s : State, (s.plugin 1 5).event = 2 ∧ (s.plugin 1 5).since + 24000 + 1 = s.clock :=
  ⟨⟨plugged 0 2 [3, 4], by decide, by decide⟩, ⟨plugged 0 3 [3, 4], by decide⟩,
    ⟨plugged 0 0 [3, 4] 24007 [overran 3, overran 9], overran 3, [overran 9], by decide, by decide, by decide⟩,
    ⟨plugged 0 0 [], by decide⟩, ⟨plugged 1 0 [3, 4], [600, 524], by decide, by decide, by decide, by decide⟩,
    ⟨plugged 1 0 [3, 4], [500, 525], by decide, by decide, by decide, by decide⟩, ⟨plugged 0 2 [3], by decide, by decide, by decide⟩, ⟨plugged 2 0 [3], by decide, by decide⟩, ⟨plugged 2 0 [3], by decide, by decide⟩,
    ⟨plugged 2 0 [3] 24008, by decide, by decide⟩⟩

def hreq (op : HartOp) (a size : Nat) (v : Nat := 0) (sup sum late : Bool := false) : HartReq :=
  { late := late, op := op, addr := BitVec.ofNat 64 a, size := size, value := BitVec.ofNat 64 v, compare := 0, supervisor := sup, sum := sum }
/-- Hart 9 in a translation mode, with the page of a kind and a reservation of 4 bytes. -/
def harted (k : Kind := .rc) (mode : Nat := 14) (r : Option Resv := some { addr := at_ 0x100, width := 4, age := 0 }) : State :=
  ({ State.reset with tlb := [page (.hart 9) k] } |> stored 0x100 8 0xFEDCBA9876543210).setHart 9 { satp := BitVec.ofNat 64 (mode * 2 ^ 60), resv := r, faulted := true }

theorem test_met_ResidentCores : (∀ m ∈ [14, 0, 8], ∃ v : W64, v.toNat / 2 ^ 60 = m)
    ∧ (∃ q, hartSize q = false)
    ∧ (∀ o ∈ [HartOp.fetch, .load], ∃ (s : State) (q : HartReq), hartSize q = true ∧ (s.hart 9).satp.toNat / 2 ^ 60 = 14 ∧ q.supervisor = true ∧ q.op = o ∧ (o = .fetch ∨ q.sum = false))
    ∧ (∃ (s : State) (q : HartReq) (va : W64) (w : State), hartSize q = true ∧ (s.hart 9).satp.toNat / 2 ^ 60 = 14 ∧ q.supervisor = false
      ∧ (asking s 9 q).translateSpan (.hart 9) ((s.hart 9).satp.toNat / 2 ^ 44 % 2 ^ 16) q.addr q.size (hartKind q.op) 3 = (.error (.fault .unmappedAddress, va), w))
    ∧ (∀ o ∈ [HartOp.load, .store, .lr, .sc, .amo .add], ∀ k ∈ [Kind.rc, .sc, .ws, .pv], ∀ n ∈ [4, 8], ∀ l ∈ [false, true], ∃ (s : State) (q : HartReq) (p : Page), hartSize q = true ∧ q.late = l
      ∧ (s.hart 9).buffer = [] ∧ (∀ a, NoPvCopy s a)
      ∧ (s.hart 9).satp.toNat / 2 ^ 60 = 14 ∧ q.op = o ∧ q.size = n ∧ q.supervisor = true ∧ q.sum = true ∧ Cached s (.hart 9) ((s.hart 9).satp.toNat / 2 ^ 44 % 2 ^ 16) q.addr q.size p
      ∧ q.addr.toNat % q.size = 0 ∧ p.kind = k)
    ∧ (∃ (s : State) (r : Resv), (s.hart 9).resv = some r ∧ r.addr = at_ 0x100 ∧ r.width = 4) ∧ ∃ s : State, (s.hart 9).resv = none := by
  refine ⟨fun m hm => ⟨BitVec.ofNat 64 (m * 2 ^ 60), ?_⟩, ⟨hreq .load 0 3, rfl⟩, fun o ho => ⟨harted, hreq o 0x40000100 4 0 true, ?_⟩, ?_, fun o ho k hk n hn l _ => ?_,
    ⟨harted, { addr := at_ 0x100, width := 4, age := 0 }, by decide, rfl, rfl⟩, ⟨harted .rc 14 none, by decide⟩⟩
  · have h : ∀ m ∈ [14, 0, 8], (BitVec.ofNat 64 (m * 2 ^ 60)).toNat / 2 ^ 60 = m := by decide
    exact h m hm
  · have h : ∀ o ∈ [HartOp.fetch, .load], hartSize (hreq o 0x40000100 4 0 true) = true ∧ (harted.hart 9).satp.toNat / 2 ^ 60 = 14 := by decide +kernel
    exact ⟨(h o ho).1, (h o ho).2, rfl, rfl, .inr rfl⟩
  · obtain ⟨w, hw⟩ := of_failsAs (x := (asking harted 9 (hreq .load 0x80000000 4)).translateSpan (.hart 9) ((harted.hart 9).satp.toNat / 2 ^ 44 % 2 ^ 16) 0x80000000 4 .read 3)
      (e := (.fault .unmappedAddress, 0x80000000)) (by decide +kernel)
    exact ⟨harted, hreq .load 0x80000000 4, _, w, by decide, by decide, rfl, hw⟩
  · have h : ∀ k ∈ [Kind.rc, .sc, .ws, .pv], ∀ n ∈ [4, 8], held (harted k) (.hart 9) (((harted k).hart 9).satp.toNat / 2 ^ 44 % 2 ^ 16) 0x40000100 n = true
        ∧ (upage (harted k) (.hart 9) (((harted k).hart 9).satp.toNat / 2 ^ 44 % 2 ^ 16) 0x40000100).kind = k ∧ ((harted k).hart 9).satp.toNat / 2 ^ 60 = 14
        ∧ (0x40000100 : W64).toNat % n = 0 := by decide +kernel
    have ho' : ∀ o ∈ [HartOp.load, .store, .lr, .sc, .amo .add], ∀ n ∈ [4, 8], ∀ l : Bool, hartSize (hreq o 0x40000100 n 5 true true l) = true := by decide
    obtain ⟨h1, h2, h3, h4⟩ := h k hk n hn
    exact ⟨harted k, hreq o 0x40000100 n 5 true true l, _, ho' o ho n hn l, rfl, rfl, noPvCopy rfl, h3, rfl, rfl, rfl, rfl, cached h1, h4, h2⟩

theorem test_hart_load : ((after (.residentCoreAccess 9 (hreq .load 0x40000102 2 0 true true)) harted).hart 9).result = 0x7654 := by decide +kernel
theorem test_hart_sum : ((after (.residentCoreAccess 9 (hreq .store 0x40000102 2 0 true false)) harted).hart 9).scause = some 15 := by decide +kernel
theorem test_satp : [((after (.satpWrite 9 true 0xE000000000000001) harted).hart 9).vsatp, ((after (.satpWrite 9 false 0xE000000000000001) harted).hart 9).satp] = [0, 0xE000000000000001] := by
  decide +kernel

/-- A hart in a mode, its external interrupt pending and enabled or not, a store in its buffer. -/
def interrupted (sup sie on : Bool) : State :=
  ({ State.reset with tlb := [page (.hart 9), page (.hart 8)] }.setHart 9 { supervisor := sup, sie := sie, enables := if on then 0x200 else 0, stvec := 0x1000, pc := 0x2004
                                                                            buffer := [{ slices := 255, op := .write .rc (byteWrites (at_ 0x107C) 4 9) }] }).setDie 1 { mbtail := 1, sysie := [(1, 1)] }
theorem test_met_OtherEvents : (∃ s l, (State.core s 0).holds (lineOf (at_ 0x1000)) = true ∧ s.pvLine 0 (lineOf (at_ 0x1000)) = some l ∧ l.dirty = true)
    ∧ (∃ s l, (State.core s 0).holds (lineOf (at_ 0x1000)) = true ∧ s.pvLine 0 (lineOf (at_ 0x1000)) = some l ∧ l.dirty = false)
    ∧ (∃ s e, (State.hart s 9).buffer = [e] ∧ e.op = .write .rc (byteWrites (at_ 0x107C) 4 9) ∧ at_ 0x107C % 128 + 4 ≤ 128)
    ∧ (∀ c ∈ [(true, true, true), (false, false, true), (true, false, true), (false, true, false)], ∃ s : State, s.externalInterrupt 9 = true ∧ (s.hart 9).supervisor = c.1
      ∧ (s.hart 9).sie = c.2.1 ∧ (s.hart 9).enables.getLsbD 9 = c.2.2 ∧ (s.hart 9).stvec.toNat % 4 = 0)
    ∧ (∃ s : State, s.externalInterrupt 9 = false) := by
  refine ⟨⟨holdingPv State.reset, { crew := 0, data := [(3, 9)], dirty := true }, by decide +kernel, by decide +kernel, rfl⟩,
    ⟨State.reset.setCore 0 { cache := [(cacheSet (lineOf (at_ 0x1000)), [{ line := lineOf (at_ 0x1000), retain := false }])], pv := [(lineOf (at_ 0x1000), { crew := 0, data := [], dirty := false })] },
      { crew := 0, data := [], dirty := false }, by decide +kernel, by decide +kernel, rfl⟩,
    ⟨interrupted true true true, _, rfl, rfl, by decide⟩, fun c hc => ⟨interrupted c.1 c.2.1 c.2.2, ?_⟩, ⟨State.reset, by decide⟩⟩
  revert c; decide +kernel
theorem test_evict : Memory.read ((State.reset |> holdingPv).other (.evict 0 (lineOf (at_ 0x1000)))).mem (at_ 0x1003) = 9 := by decide +kernel
theorem test_sfence : ((interrupted true true true).other (.sfence 9)).tlb.map (·.unit) = [.hart 8] := by decide +kernel
theorem test_interrupt : (((interrupted false false true).other (.hartInterrupt 9)).hart 9).pc = 0x1000 ∧ ((((interrupted false false true).other (.hartInterrupt 9)).other (.hartReturn 9)).hart 9).pc = 0x2004 := by
  decide +kernel

/-! ### Ports -/

def preq_ (op : PortOp) (a size : Nat) (v : Nat := 0) : PortReq := { op := op, requester := 3, addr := a, size := size, value := BitVec.ofNat 4096 v, compare := 0 }
/-- Inbound windows 2, of 64 KiB from bus address 0x1000 to a virtual address, and 5; the host and the storage port enabled. -/
def inbound (k : Kind := .rc) (va : Nat := 0x40000000) (en0 : Bool := true) : State :=
  let s := { State.reset with tlb := [page .hostPort k, page .storagePort k], descs := [{ unit := .hostPort, asid := 0, root := at_ 0x8000, groups := at_ 0xA000, guest := 0, valid := true }] }
    |> stored 0x100 8 0xFEDCBA9876543210 |> stored 0x8000 16 (at_ 0x9000 + 1) |> stored 0x9010 16 (2 ^ 64 + 27)
  { s with ports := { s.ports with
      en := [(0, en0), (1, true)], wen := [(2, true), (5, true)], bus := [(2, 0x1000)], size := [(2, 0x10000), (5, 0x100000)], vbase := [(2, BitVec.ofNat 64 va)] } }
def windowed (va : Nat) (q : PortReq) : HeldReq := taken (inbound .rc va) q false 0 (BitVec.ofNat 64 va + BitVec.ofNat 64 q.addr - 0x1000)
def oneHeld (pg : Option Nat) : HeldReq := { q := preq_ .read 0 4, storage := false, asid := 0, va := 0, page := pg, since := 0 }
def heldOne (ck : Nat) (pg : Option Nat) : State := { State.reset with clock := ck, ports := { State.reset.ports with held := [oneHeld pg] } }
theorem test_met_InboundRequests : (∃ s : State, SMap.getD s.ports.en 0 false = false) ∧ (∃ s : State, SMap.getD s.ports.en 1 false = false)
    ∧ (∃ s : State, SMap.getD s.ports.en 0 false = true ∧ ∀ w, w < 8 → SMap.getD s.ports.wen w false = false)
    ∧ (∀ o ∈ [PortOp.read, .write, .atomic .add], ∀ k ∈ [Kind.rc, .sc], ∀ a ∈ [0x1000, 0x10FF8], ∃ (s : State) (q : PortReq) (p : Page), q.op = o ∧ SMap.getD s.ports.en 0 false = true
      ∧ portListed q false = true ∧ q.addr + q.size ≤ 2 ^ 36 ∧ s.ports.held = [] ∧ SMap.getD s.ports.wen 2 false = true ∧ (∀ j, j < 2 → SMap.getD s.ports.wen j false = false)
      ∧ (SMap.getD s.ports.bus 2 0).toNat ≤ q.addr ∧ q.addr + q.size ≤ (SMap.getD s.ports.bus 2 0).toNat + (SMap.getD s.ports.size 2 0).toNat
      ∧ Cached s .hostPort 0 (windowed 0x40000000 q).va q.size p ∧ p.kind = k)
    ∧ (∀ o ∈ [PortOp.read, .write], ∃ (q : PortReq) (w : State), q.op = o ∧ (Claims.taking (inbound .rc 0x80000000) (windowed 0x80000000 q)).translateSpan .hostPort 0 (windowed 0x80000000 q).va q.size (portAccess o) 3
      = (.error (.fault .unmappedAddress, (windowed 0x80000000 q).va), w))
    ∧ (∃ (q : PortReq) (w : State), (Claims.taking (inbound .rc (2 ^ 36)) (windowed (2 ^ 36) q)).translateSpan .hostPort 0 (windowed (2 ^ 36) q).va q.size .read 3
      = (.error (.notPresent (at_ 0x9010), (windowed (2 ^ 36) q).va), w))
    ∧ (∀ o ∈ [PortOp.read, .write], ∃ (s : State) (q : PortReq) (p : Page), q.op = o ∧ SMap.getD s.ports.en 1 false = true ∧ s.ports.held = [] ∧ q.size = 512
      ∧ Cached s .storagePort s.ports.storasid (BitVec.ofNat 64 q.addr) q.size p)
    ∧ (∃ q : PortReq, 512 < q.size) ∧ (∃ (q : PortReq) (op : AtomOp), q.op = .atomic op)
    ∧ (∃ s : State, s.ports.held[0]? = none)
    ∧ ∀ ck ∈ [11999999, 12000000], ∀ pg ∈ [none, some 5], ∃ (s : State) (h : HeldReq), s.ports.held = [h] ∧ h.page = pg ∧ s.clock = ck
      ∧ h.since + SMap.getD s.ports.tout (if h.storage then 1 else 0) 10 * 1200000 = 12000000 := by
  refine ⟨⟨inbound .rc 0 false, rfl⟩, ⟨State.reset, rfl⟩, ⟨State.reset, rfl, by decide⟩, fun o ho k hk a ha => ?_, fun o ho => ?_, ?_, fun o ho => ?_, ⟨preq_ .read 0 513, by decide⟩,
    ⟨preq_ (.atomic .add) 0 4, _, rfl⟩, ⟨State.reset, rfl⟩,
    fun ck hc pg hp => ?_⟩
  · have hw : ∀ j, j < 2 → SMap.getD ([(2, true), (5, true)] : SMap Bool) j false = false := by decide
    have h : ∀ k ∈ [Kind.rc, .sc], ∀ a ∈ [0x1000, 0x10FF8], held (inbound k) .hostPort 0 (windowed 0x40000000 (preq_ .read a 8)).va 8 = true
        ∧ (upage (inbound k) .hostPort 0 (windowed 0x40000000 (preq_ .read a 8)).va).kind = k := by decide +kernel
    have hl : ∀ o ∈ [PortOp.read, .write, .atomic .add], ∀ a ∈ [0x1000, 0x10FF8], portListed (preq_ o a 8) false = true ∧ (preq_ o a 8).addr + (preq_ o a 8).size ≤ 2 ^ 36
        ∧ (SMap.getD inbound.ports.bus 2 0).toNat ≤ (preq_ o a 8).addr
        ∧ (preq_ o a 8).addr + (preq_ o a 8).size ≤ (SMap.getD inbound.ports.bus 2 0).toNat + (SMap.getD inbound.ports.size 2 0).toNat := by decide +kernel
    obtain ⟨h1, h2, h3, h4⟩ := hl o ho a ha
    exact ⟨inbound k, preq_ o a 8, _, rfl, rfl, h1, h2, rfl, rfl, hw, h3, h4, cached (h k hk a ha).1, (h k hk a ha).2⟩
  · have h : ∀ o ∈ [PortOp.read, .write], failsAs ((Claims.taking (inbound .rc 0x80000000) (windowed 0x80000000 (preq_ o 0x1000 4))).translateSpan .hostPort 0 (windowed 0x80000000 (preq_ o 0x1000 4)).va 4 (portAccess o) 3)
        (.fault .unmappedAddress, (windowed 0x80000000 (preq_ o 0x1000 4)).va) = true := by decide +kernel
    obtain ⟨w, hw⟩ := of_failsAs (h o ho)
    exact ⟨preq_ o 0x1000 4, w, rfl, hw⟩
  · obtain ⟨w, hw⟩ := of_failsAs (x := (Claims.taking (inbound .rc (2 ^ 36)) (windowed (2 ^ 36) (preq_ .read 0x1000 4))).translateSpan .hostPort 0 (windowed (2 ^ 36) (preq_ .read 0x1000 4)).va 4 .read 3)
      (e := (.notPresent (at_ 0x9010), (windowed (2 ^ 36) (preq_ .read 0x1000 4)).va)) (by decide +kernel)
    exact ⟨preq_ .read 0x1000 4, w, hw⟩
  · exact ⟨inbound, preq_ o 0x400FFE00 512, upage inbound .storagePort 0 0x400FFE00, rfl, rfl, rfl, rfl, cached (by
      have h : held inbound .storagePort 0 0x400FFE00 512 = true := by decide +kernel
      exact h)⟩
  · have h : ∀ ck ∈ [11999999, 12000000], ∀ pg ∈ [none, some 5], (heldOne ck pg).ports.held = [oneHeld pg] ∧ (oneHeld pg).page = pg ∧ (heldOne ck pg).clock = ck
        ∧ (oneHeld pg).since + SMap.getD (heldOne ck pg).ports.tout (if (oneHeld pg).storage then 1 else 0) 10 * 1200000 = 12000000 := by decide +kernel
    exact ⟨_, _, h ck hc pg hp⟩

theorem test_inbound : memAfter (.hostInboundRequest (preq_ .write 0x1102 2 0x55AA)) inbound 0x100 8 = 0xFEDCBA9855AA3210 := by decide +kernel
theorem test_storage : (after (.storageInboundRequest (preq_ .read 0x40000100 2)) inbound).ports.answers = [(3, .data [0x10, 0x32])] := by decide +kernel

/-- Module 7 is reached by peer port 1, in a mode; the piece of a page has an attribute. -/
def peered (mode attr : Nat) (lost : List Nat := []) (route : Byte := 0x81) : State :=
  let s := { State.reset with mem := Memory.writeNat [] ((State.reset.die 0).atbase.toNat + 2 * (at_ 0 / 4096)) 2 attr } |> stored 0x100 8 0xFEDCBA9876543210
  { s with ports := { s.ports with en := [(0, true), (3, true)], up := [(3, true)], mode := [(3, mode)], route := [(7, route)], lost := lost } }
theorem test_met_PeersAndLinks : (∃ s : State, (SMap.getD s.ports.route 7 0).getLsbD 7 = false) ∧ (∃ s : State, 7 ∈ s.ports.lost) ∧ (∃ q : PortReq, 2 ^ 39 < q.addr + q.size)
    ∧ (∀ m ∈ [1, 2], ∀ a ∈ [0, 1, 2, 3], ∃ s : State, s.portMode (2 + (SMap.getD s.ports.route 7 0).toNat % 8) = m ∧ kindOf (s.attrOf 0 (at_ 0x100)).toNat = kindOf a
      ∧ (SMap.getD s.ports.route 7 0).getLsbD 7 = true ∧ SMap.getD s.ports.up (2 + (SMap.getD s.ports.route 7 0).toNat % 8) false = true ∧ 7 ∉ s.ports.lost ∧ s.poisoned = []
      ∧ at_ 0x100 + 8 ≤ 2 ^ 39 ∧ at_ 0x100 % 128 + 8 ≤ 128 ∧ s.inAttrTable 0 (at_ 0x100) = false)
    ∧ (∃ s : State, SMap.getD s.ports.up 3 false = true ∧ SMap.getD s.ports.en 3 false = true ∧ s.portMode 3 ≠ 0)
    ∧ (∃ s : State, SMap.getD s.ports.up 3 false = false ∧ SMap.getD s.ports.en 3 false = false) ∧ ∃ s : State, 7 ≠ s.ports.devid := by
  refine ⟨⟨peered 1 1 [] 1, by decide⟩, ⟨peered 1 1 [7], by decide⟩, ⟨preq_ .read (2 ^ 39) 1, by decide⟩, fun m hm a ha => ⟨peered m a, ?_⟩, ⟨peered 1 1, by decide, by decide, by decide⟩,
    ⟨State.reset, by decide, by decide⟩, ⟨State.reset, by decide⟩⟩
  have h : ∀ m ∈ [1, 2], ∀ a ∈ [0, 1, 2, 3], (peered m a).portMode (2 + (SMap.getD (peered m a).ports.route 7 0).toNat % 8) = m ∧ kindOf ((peered m a).attrOf 0 (at_ 0x100)).toNat = kindOf a
      ∧ (SMap.getD (peered m a).ports.route 7 0).getLsbD 7 = true ∧ SMap.getD (peered m a).ports.up (2 + (SMap.getD (peered m a).ports.route 7 0).toNat % 8) false = true
      ∧ 7 ∉ (peered m a).ports.lost ∧ (peered m a).poisoned = [] ∧ at_ 0x100 + 8 ≤ 2 ^ 39 ∧ at_ 0x100 % 128 + 8 ≤ 128 ∧ (peered m a).inAttrTable 0 (at_ 0x100) = false := by decide +kernel
  exact h m hm a ha
theorem test_peer_atomic : memAfter (.peerInboundRequest 7 (preq_ (.atomic .add) (at_ 0x100) 8 1)) (peered 2 1) 0x100 8 = 0xFEDCBA9876543211 := by decide +kernel
theorem test_peer_ws : (after (.peerInboundRequest 7 (preq_ (.atomic .add) (at_ 0x100) 8 1)) (peered 2 2)).ports.answers = [(3, .unsupported)] := by decide +kernel

/-! ### Checkpoints, starts -/

/-- A module in a checkpoint's phase, 3 ms after its last call, with the image of cut 3. -/
def cutting (ph : CheckPhase) (f : State → State := id) : State :=
  f { ofRegs {} with phase := ph, cut := 4, clock := 3600000, frozenAt := 3500000, ports := { State.reset.ports with ckper := 3, ckcut := 3 }, images := [(3, State.reset.toDevice)] }
def ckDue (s : State) : Bool := decide (s.ports.ckper ≠ 0 ∧ s.phase = .idle ∧ s.called = none ∧ s.calledAt + s.ports.ckper.toNat * 1200000 ≤ s.clock)
theorem test_met_Checkpoints : (∃ s, ckDue s = true) ∧ (∃ s, ckDue s = false) ∧ (∃ s : State, s.phase = .idle ∧ s.called = some 4) ∧ (∃ s : State, s.phase = .frozen) ∧ (∃ s : State, s.phase = .ready)
    ∧ (∃ s : State, s.phase = .copying ∧ s.cut = 4 ∧ s.ports.devid ∈ s.copied) ∧ ∀ l ∈ [[], [9]], ∃ (s : State) (d : Device) (rest : _), s.images = (s.ports.ckcut, d) :: rest ∧ s.ports.lost = l := by
  refine ⟨⟨cutting .idle, by decide⟩, ⟨cutting .idle (fun s => { s with clock := 3599999 }), by decide⟩, ⟨cutting .idle (fun s => { s with called := some 4 }), rfl, rfl⟩, ⟨cutting .frozen, rfl⟩,
    ⟨cutting .ready, rfl⟩, ⟨cutting .copying (fun s => { s with copied := [0] }), rfl, rfl, by decide⟩,
    fun l _ => ⟨cutting .copying (fun s => { s with ports := { s.ports with lost := l } }), _, _, rfl, rfl⟩⟩
theorem test_ready : (after .ready (cutting .frozen)).phase = .ready := by decide +kernel
theorem test_rollback : (after .rollback (cutting .copying (fun s => { s with ports := { s.ports with lost := [9] } }))).crews = [] := by decide +kernel

/-- What the checks of a start find is free, so that neither answer has a witness; here are the conditions on the state. -/
theorem test_met_Starts : (∀ b ∈ [true, false], ∃ s : State, s.power.shutdown = b) ∧ (∀ n ∈ [1, 2], ∃ s : State, s.start.failures = n) ∧ (∃ s : State, s.start.recovery = true)
    ∧ (∃ s : State, s.start.recovery = false ∧ s.start.step = 6) ∧ ∃ s : State, s.start.step ≠ 6 :=
  ⟨fun b _ => ⟨{ State.reset with power := { State.reset.power with shutdown := b } }, rfl⟩, fun n _ => ⟨{ State.reset with start := { State.reset.start with failures := n } }, rfl⟩,
    ⟨{ State.reset with start := { recovery := true } }, rfl⟩, ⟨State.reset, rfl, rfl⟩, ⟨{ State.reset with start := { step := 2 } }, by decide⟩⟩
theorem test_met_SecurityAndPower : (∃ s : State, s.spdm.version = true ∧ s.spdm.caps = true ∧ s.spdm.algs ≠ none) ∧ (∃ s : State, s.spdm.version = false ∧ s.spdm.caps = false ∧ s.spdm.algs = none)
    ∧ (∃ a h : Nat, a.testBit 4 = true ∧ h.testBit 0 = true) ∧ ∃ a h : Nat, a.testBit 4 = false ∧ h.testBit 0 = false :=
  ⟨⟨{ State.reset with spdm := { version := true, caps := true, algs := some (16, 1), response := none } }, rfl, rfl, by decide⟩, ⟨State.reset, rfl, rfl, rfl⟩, ⟨16, 1, rfl, rfl⟩, ⟨0, 0, rfl, rfl⟩⟩
theorem test_spdm_order : (after .getDigests State.reset).spdm.response = some .error := by decide +kernel

/-! ### The whole machine -/

theorem test_met_EncodingRoundTrip : (∃ i w, Instr.wellFormed i = true ∧ encode i = some w) ∧ ∃ i w, decode w = .ok i :=
  ⟨⟨.fence 5, 0xAC000005, by decide +kernel, by decide +kernel⟩, ⟨.fence 5, 0xAC000005, of_isOk (by decide +kernel)⟩⟩

/-- `fence` 5 at the program counter of a part, and `vyield.done` of a Vintner's context. -/
def fencing : State := State.reset.withFetchWord 32 0xAC000005
def yielding : State := State.reset.withFetchWord 32 0xC4200001
theorem test_met_EveryInstructionGoesOn : (∃ s x, Issuing s x) ∧ (∃ s x, VIssuing s x)
    ∧ (∃ i, encode i = none ∧ (∀ w, i ≠ .reservedWord w) ∧ ∀ n, i ≠ .debugBreakpoint n)
    ∧ ∃ i s e, exec i s = .fault e :=
  ⟨⟨fencing, ctx fencing, issuing (by decide +kernel) (by decide +kernel)⟩, ⟨yielding, vrun yielding, 0, rfl, getD_some _ (by decide +kernel)⟩,
    ⟨.powerOn, by decide +kernel, fun _ => by simp, fun _ => by simp⟩,
    ⟨.fence 5, State.reset, .noIssuer, by rfl⟩⟩

/-- A unit's cache holds the page of an address for fetches. -/
theorem translate_execute {s : State} {u : UnitId} {asid : Nat} {va : W64} {t : TlbEntry} (h1 : canonical va = true)
    (h2 : s.tlb.find? (fun t => decide (t.unit = u) && t.asid == asid && decide (t.base ≤ vaNat va) && decide (vaNat va < t.base + t.size)) = some t)
    (h3 : t.x = true) (h4 : (t.page s.ports.devid (vaNat va)).remote = false ∧ spaceOf (t.page s.ports.devid (vaNat va)).pa ≠ .nothing
      ∧ s.inAttrTable u.die (t.page s.ports.devid (vaNat va)).pa = false) :
    s.translate u asid va .execute = (.ok (t.page s.ports.devid (vaNat va)), s) := by
  obtain ⟨h4, h5, h6⟩ := h4
  unfold State.translate
  simp only [h1, h2, allowed, h3, h4, h6, Bool.not_true, Bool.false_eq_true, if_false, reduceCtorEq, or_self, false_and, Bool.not_false, Bool.true_and, Bool.and_false, decide_eq_true_eq]
  rw [if_neg h5]

theorem test_met_Turns : (∃ s u, s.agenda = [Turn.issue 0 0 0] ∧ Turns s u (.gang 0 0 0)) ∧ (∃ s u, s.agenda = [Turn.vissue 0] ∧ Turns s u (.vintner 0))
    ∧ (∃ s u, s.agenda = [Turn.issueLate 0 0 0 3] ∧ Turns s u (.gang 0 0 0)) ∧ ∃ s u, s.agenda = [] ∧ Turns s u (.gang 0 0 0) := by
  refine ⟨⟨{ fencing with agenda := [.issue 0 0 0] }, { ({ fencing with agenda := [.issue 0 0 0] } : State).tick with agenda := [], cur := .gang 0 0 0, late := none }, rfl, ?_⟩,
    ⟨{ fencing with agenda := [.vissue 0] }, { ({ fencing with agenda := [.vissue 0] } : State).tick with agenda := [], cur := .vintner 0, late := none }, rfl, ?_⟩,
    ⟨{ fencing with agenda := [.issueLate 0 0 0 3] }, { ({ fencing with agenda := [.issueLate 0 0 0 3] } : State).tick with agenda := [], cur := .gang 0 0 0, late := some 3 }, rfl, ?_⟩,
    ⟨fencing, { fencing.tick with late := none }, rfl, by decide +kernel, .inr (.inr ⟨rfl, rfl, rfl⟩)⟩⟩
  · exact ⟨by decide +kernel, .inl ⟨_, _, rfl, rfl, rfl, by decide⟩⟩
  · exact ⟨by decide +kernel, .inl ⟨_, _, rfl, rfl, rfl, by decide⟩⟩
  · exact ⟨by decide +kernel, .inr (.inl ⟨_, _, _, _, _, rfl, rfl, rfl⟩)⟩

theorem test_met_StepRunsTheInstruction : (∃ s u x p i, Turns s u (.gang 0 0 0) ∧ u.ctxOf 0 0 0 = some x ∧ x.ready = true
      ∧ (∀ j ∈ x.part, (x.g.slice j).mask &&& (x.g.slice j).live ≠ 0 ∧ ((x.g.slice j).rpc ≠ some (x.g.slice j).pc ∨ ((x.g.slice j).stack = [] ∧ (x.g.slice j).spilled = 0)))
      ∧ (∀ n, n < 4 → (SMap.getD (u.die x.die).dbgbp n 0).getLsbD 0 = false) ∧ (∀ f ∈ x.g.loads, f.slices &&& x.mask = 0 ∨ (f.holds = false ∧ f.failed = none))
      ∧ u.translate x.unit x.c.asid x.pc .execute = (.ok p, u) ∧ Fetches u p x.hints i)
    ∧ (∃ s u x p i, Turns s u (.vintner 0) ∧ u.vRun? 0 = some x ∧ x.k.card.block.extractLsb' 192 64 ≠ 0 ∧ x.k.prod ≠ 0 ∧ x.pc.toNat % 4 = 0
      ∧ u.translate x.unit x.k.card.asid x.pc .execute = (.ok p, u) ∧ Fetches u p x.k.hints i)
    ∧ (∃ (s : State) (i : Instr) (rest : List Turn), s.agenda = .event i :: rest ∧ encode i = none ∧ s.tick.admits i = true)
    ∧ (∃ (s : State) (i : Instr) (rest : List Turn), s.agenda = .event i :: rest ∧ encode i ≠ none)
    ∧ (∃ (s : State) (m : Other) (rest : List Turn), s.agenda = .more m :: rest ∧ s.tick.admitsMore m = true)
    ∧ ∃ (s : State) (m : Other) (rest : List Turn), s.agenda = .more m :: rest ∧ s.tick.admitsMore m = false := by
  refine ⟨⟨fencing, { fencing.tick with late := none }, ctx { fencing.tick with late := none }, _, .fence 5, ⟨by decide +kernel, .inr (.inr ⟨rfl, rfl, rfl⟩)⟩, getD_some _ (by decide +kernel), by decide +kernel,
      by decide +kernel, by decide +kernel, by decide +kernel, translate_execute (t := codeTlb (.core 0)) (by decide +kernel) (by decide +kernel) rfl (by decide +kernel),
      ⟨by decide +kernel, by decide +kernel, by decide +kernel, of_isOk (by decide +kernel), by decide +kernel⟩⟩,
    ⟨yielding, { yielding.tick with late := none }, vrun { yielding.tick with late := none }, _, .vyieldDone, ⟨by decide +kernel, .inr (.inr ⟨rfl, rfl, rfl⟩)⟩, getD_some _ (by decide +kernel), by decide +kernel,
      by decide +kernel, by decide +kernel, translate_execute (t := codeTlb (.vintner 0)) (by decide +kernel) (by decide +kernel) rfl (by decide +kernel),
      ⟨by decide +kernel, by decide +kernel, by decide +kernel, of_isOk (by decide +kernel), by decide +kernel⟩⟩,
    ⟨{ State.reset with agenda := [.event .powerOn] }, _, _, rfl, by decide +kernel, by decide +kernel⟩, ⟨{ State.reset with agenda := [.event (.fence 5)] }, _, _, rfl, by decide +kernel⟩,
    ⟨{ State.reset with agenda := [.more (.corrected 0)] }, _, _, rfl, by decide +kernel⟩, ⟨{ State.reset with phase := .frozen, agenda := [.more (.sfence 0)] }, _, _, rfl, by decide +kernel⟩⟩

theorem test_met_MemoryStaysCanonical : ∃ s t, MemoryInv s ∧ step s = .next t :=
  ⟨State.reset, State.reset.tick, ⟨by decide, fun _ h => by cases h⟩, rfl⟩

end Sys2Proof.Tests
end

section
/-!
SUPPORT. Immediates of the integer class: the issue of a part that nothing holds, the lanes that it writes, signed fields,
and the words of format I (07_integer R168).
-/

namespace Sys2Proof.Machine

open Sys2Proof.Claims

/-! ### Issue of a part that nothing holds -/

/-- A part that waits for no record is held by none (R389). -/
theorem Ctx.recordHazard_of_noRecords {x : Ctx} (h : NoRecords x) (n : Need) : x.recordHazard n = false := by
  obtain ⟨hrec, -⟩ := h
  simp only [Ctx.recordHazard, List.any_eq_false]
  intro r hr
  simp [hrec r hr]

/-- A part that waits for the data of no load is held by none (R113). -/
theorem Ctx.loadHazard_of_noRecords {x : Ctx} (h : NoRecords x) (n : Need) : x.loadHazard n = false := by
  obtain ⟨-, hload⟩ := h
  simp only [Ctx.loadHazard, List.any_eq_false]
  intro f hf
  simp [hload f hf]

/-- Registers that the crew holds are in range (R58). -/
theorem Ctx.rangeBreach_of_holds {x : Ctx} {n : Need} (h : Holds x n.vs) : x.rangeBreach n = false := by
  have hv : n.vs.any (fun r => decide (recRegs x.c.record < r.1.toNat + r.2)) = false := by
    simp only [List.any_eq_false, decide_eq_true_eq, Nat.not_lt]
    exact h
  simp [Ctx.rangeBreach, hv]

/-- A part executes an instruction that may pass a fence, when nothing holds it and its registers are in range. -/
theorem State.issueBoth_runs {s : State} {x : Ctx} {n : Need} {ok : Ctx → Bool} (v : Bool) (body : Ctx → State → Out)
    (vbody : VRun → State → Out) (hs : Issuing s x) (hr : NoRecords x) (hv : Holds x n.vs) (hp : n.past = .runs) (ho : ok x = true) :
    s.issueBoth n v body vbody ok = body x s := by
  obtain ⟨c, g, k, hc, hx⟩ := hs
  rw [s.issueBoth_part n v body vbody ok c g k x hc hx]
  exact s.issueGang_runs x n ok body ho (Ctx.recordHazard_of_noRecords hr n) (Ctx.loadHazard_of_noRecords hr n) (.inl hp)
    (Ctx.rangeBreach_of_holds hv)

/-! ### What the part leaves -/

/-- The gang of the part that issues is the state's. -/
theorem State.gang_of_issuing {s : State} {x : Ctx} (hs : Issuing s x) : s.gang? x.crew x.gang = some x.g := by
  obtain ⟨c, g, k, -, hx⟩ := hs
  obtain ⟨rfl, rfl, -, hg, -⟩ := s.ctxOf_spec c g k x hx
  exact hg

/-- A part that changes its registers and advances changes nothing else. -/
theorem State.steps_retireRegs {s : State} {x : Ctx} (hs : Issuing s x) (f : Regs → Regs) :
    Steps s x (.next (s.retireRegs x f)) (f x.g.regs) := by
  have heq := s.retireRegs_eq x f (s.gang_of_issuing hs)
  exact ⟨_, rfl, heq, fun a => by rw [heq, State.setGang_mem]⟩

@[simp] theorem Ctx.mem_lanes (x : Ctx) (g i : Nat) : i ∈ x.lanes g ↔ i < 32 ∧ x.on g i = true := by
  simp [Ctx.lanes]

/-- A `v` register written in lanes, and the others kept. -/
theorem Regs.onlyV_writeV (r : Regs) (d : Nat) (val : Nat → W32) (ls : List Nat) (hls : ∀ i ∈ ls, i < 32) :
    OnlyV r (r.writeV d val ls) d 1 := by
  refine ⟨fun q i hi hq => ?_, by simp⟩
  have hqd : q ≠ d := by omega
  simp [Regs.getV_writeV d val ls hls r q i hi, hqd]

/-- Writing d in the active lanes is what R156 asks of a `v` destination. -/
theorem Ctx.lanesV_writeV (x : Ctx) (g : BitVec 3) (d : BitVec 6) (val : Nat → W32) :
    LanesV x (x.g.regs.writeV d.toNat val (x.lanes g.toNat)) g d val := by
  refine ⟨Regs.onlyV_writeV _ _ _ _ (x.lanes_lt _), fun i hi => ?_⟩
  simp [Regs.getV_writeV _ _ _ (x.lanes_lt _) _ _ _ hi, hi]

/-! ### Immediates -/

/-- The signed reading of a field is its two's complement. -/
theorem readInt_signed {w : Nat} (f : BitVec w) : readInt w true f.toNat = f.toInt := by
  have hf : f.toNat % 2 ^ w = f.toNat := Nat.mod_eq_of_lt f.isLt
  cases w with
  | zero => simp [readInt, BitVec.eq_nil f]
  | succ n =>
    have hsign : 2 ^ n ≤ f.toNat ↔ ¬ 2 * f.toNat < 2 ^ (n + 1) := by omega
    simp only [readInt, hf, Bool.true_and, Nat.add_sub_cancel, decide_eq_true_eq, hsign, BitVec.toInt_eq_toNat_cond, ite_not]
    push_cast
    rfl

/-- The payload of a hint has 22 bits (R66). -/
theorem hintOf_lt {hs : List W32} {kind p : Nat} (h : hintOf hs kind = some p) : p < 2 ^ 22 := by
  obtain ⟨w, -, rfl⟩ := Option.map_eq_some_iff.mp h
  exact BitVec.isLt _

/-- The one pending hint is found by its kind, with its payload. -/
theorem hintOf_single (kind : BitVec 4) (y : BitVec 22) : hintOf [0x3E#6 ++ kind ++ y] kind.toNat = some y.toNat := by
  have hk : (0x3E#6 ++ kind ++ y).extractLsb' 22 4 = kind := by
    simp (disch := omega) [-Nat.reduceAdd, BitVec.extractLsb'_append_eq_of_le, BitVec.extractLsb'_append_eq_of_add_le]
  have hy : (0x3E#6 ++ kind ++ y).extractLsb' 0 22 = y := by
    simp (disch := omega) [-Nat.reduceAdd, BitVec.extractLsb'_append_eq_of_add_le]
  have hfound : bitsAt (0x3E#6 ++ kind ++ y : W32) 22 4 = kind.toNat := congrArg BitVec.toNat hk
  have hpay : bitsAt (0x3E#6 ++ kind ++ y : W32) 0 22 = y.toNat := congrArg BitVec.toNat hy
  simp [hintOf, hfound, hpay]

/-- The model's immediate is that of R66, with a kind-0 hint or without one. -/
theorem wideImm_eq_immOf {w : Nat} (hs : List W32) (f : BitVec w) : wideImm hs w f.toNat = immOf hs f := by
  unfold wideImm immOf
  cases hp : hintOf hs 0 with
  | none => exact readInt_signed f
  | some p =>
    have happ : p * 2 ^ w + f.toNat = (BitVec.ofNat 22 p ++ f).toNat := by
      rw [BitVec.toNat_append, BitVec.toNat_ofNat, Nat.mod_eq_of_lt (hintOf_lt hp), ← Nat.shiftLeft_add_eq_or_of_lt f.isLt,
        Nat.shiftLeft_eq]
    simp only [happ, Nat.add_comm w 22, readInt_signed]

/-- Payload and field of a hinted immediate are the two parts of its 22 + w bits. -/
theorem immOf_hinted {w : Nat} (v : BitVec (22 + w)) :
    immOf [0x3E#6 ++ 0#4 ++ v.extractLsb' w 22] (v.extractLsb' 0 w) = v.toInt := by
  have hp : hintOf [0x3E#6 ++ 0#4 ++ v.extractLsb' w 22] 0 = some (v.extractLsb' w 22).toNat := hintOf_single 0#4 _
  have hv : v.extractLsb' w 22 ++ v.extractLsb' 0 w = v := by
    rw [BitVec.extractLsb'_append_extractLsb'_eq_extractLsb' (by omega)]
    simp
  simp only [immOf, hp, BitVec.ofNat_toNat, BitVec.setWidth_eq, hv]

/-- Every number of 33 signed bits is the immediate of an 11-bit field under a kind-0 hint. -/
theorem exists_immOf_hinted {i : Int} (hlo : -2 ^ 32 ≤ i) (hhi : i < 2 ^ 32) :
    ∃ (y : BitVec 22) (imm : BitVec 11), immOf [0x3E#6 ++ 0#4 ++ y] imm = i :=
  ⟨_, _, (immOf_hinted (BitVec.ofInt (22 + 11) i)).trans (BitVec.toInt_ofInt_eq_self (by decide) hlo hhi)⟩

/-- The low 32 bits of a sum of a register and an immediate. -/
theorem add_ofInt_eq_ofInt (a : W32) (i : Int) : a + BitVec.ofInt 32 i = BitVec.ofInt 32 (a.toNat + i) := by
  rw [BitVec.ofInt_add, BitVec.ofInt_natCast, BitVec.ofNat_toNat, BitVec.setWidth_eq]

/-! ### `addi` -/

/-- `addi` of a part that nothing holds (R168). -/
theorem exec_addi_runs {g : BitVec 3} {d a : BitVec 6} (imm : BitVec 11) {s : State} {x : Ctx} (hs : Issuing s x) (hr : NoRecords x)
    (hv : Holds x [(d, 1), (a, 1)]) : exec (.addi g d a imm) s = .next (s.retireRegs x (fun q => q.writeV d.toNat
      (fun l => BitVec.ofInt 32 ((x.g.regs.getV a.toNat l).toNat + immOf x.hints imm)) (x.lanes g.toNat))) := by
  rw [exec_addi, execAddi, State.issueBoth_runs _ _ _ hs hr hv rfl rfl]
  simp only [wideImm_eq_immOf, add_ofInt_eq_ofInt]

/-- The fields of a word of format I, read back. The width stays the sum of the fields' widths, so that each field can be
peeled off in turn. -/
theorem packI_fields (op : BitVec 6) (g : BitVec 3) (d a : BitVec 6) (imm : BitVec 11) :
    (packI op g d a imm).extractLsb' 26 6 = op ∧ (packI op g d a imm).extractLsb' 23 3 = g ∧ (packI op g d a imm).extractLsb' 17 6 = d
      ∧ (packI op g d a imm).extractLsb' 11 6 = a ∧ (packI op g d a imm).extractLsb' 0 11 = imm := by
  have hword : ∀ lo n, (packI op g d a imm).extractLsb' lo n = (op ++ g ++ d ++ a ++ imm).extractLsb' lo n := fun _ _ => rfl
  simp (disch := omega) [-Nat.reduceAdd, hword, BitVec.extractLsb'_append_eq_of_le, BitVec.extractLsb'_append_eq_of_add_le]

/-- Major 0x0D is `addi` (R168). -/
theorem decode_packI_addi (g : BitVec 3) (d a : BitVec 6) (imm : BitVec 11) : decode (packI 0x0D g d a imm) = .ok (.addi g d a imm) := by
  obtain ⟨hop, hg, hd, ha, himm⟩ := packI_fields 0x0D g d a imm
  have hraw : decodeRaw (packI 0x0D g d a imm) = .ok (.addi g d a imm) := by
    unfold decodeRaw
    rw [hop, hg, hd, ha, himm]
    rfl
  rw [decode, hraw]
  rfl

end Sys2Proof.Machine

namespace Sys2Proof.Proofs

open Sys2Proof.Machine Sys2Proof.Claims

/-- Settles O1: the part runs `addi` and advances, the word is one of format I under major 0x0D, and the hint's payload and
the field split the 33 bits of the immediate. -/
theorem addImmediate : Obligations.AddImmediate := by
  have hword : packI 0x0D 7 4 4 (BitVec.ofInt 11 (-6)) = 0x378827FA := by decide
  refine ⟨fun g d a imm s x hs hr hv => ?_, fun g d a imm => ⟨rfl, decode_packI_addi g d a imm⟩,
    decode_packI_addi 7 2 2 1, hword ▸ decode_packI_addi 7 4 4 (BitVec.ofInt 11 (-6)), fun i => exists_immOf_hinted⟩
  rw [exec_addi_runs imm hs hr hv]
  exact ⟨_, State.steps_retireRegs hs _, x.lanesV_writeV g d _⟩

end Sys2Proof.Proofs
end

section
/-!
SUPPORT. Pairs of `v` registers written in lanes, the issue of a part for the instructions that have no form for a Vintner,
and the reads of a lane's modulus and of its constant (15_modular R316).
-/

namespace Sys2Proof.Machine

open Sys2Proof.Claims

/-! ### Issue of a part that nothing holds -/

/-- A part executes an instruction that has no form for a Vintner and may pass a fence, when nothing holds it and its
registers are in range. -/
theorem State.issue_runs {s : State} {x : Ctx} {n : Need} {ok : Ctx → Bool} (body : Ctx → State → Out) (hs : Issuing s x)
    (hr : NoRecords x) (hv : Holds x n.vs) (hp : n.past = .runs) (ho : ok x = true) : s.issue n body ok = body x s := by
  obtain ⟨c, g, k, hc, hx⟩ := hs
  rw [s.issue_part n body ok c g k x hc hx]
  exact s.issueGang_runs x n ok body ho (Ctx.recordHazard_of_noRecords hr n) (Ctx.loadHazard_of_noRecords hr n) (.inl hp)
    (Ctx.rangeBreach_of_holds hv)

/-! ### Pairs of `v` registers -/

@[simp] theorem pairOf_pairLo_pairHi (a : W64) : pairOf (pairLo a) (pairHi a) = a := by
  rw [pairOf, pairLo, pairHi, BitVec.extractLsb'_append_extractLsb'_eq_extractLsb' (by decide)]
  simp

theorem Regs.onlyV_refl (r : Regs) (d n : Nat) : OnlyV r r d n := ⟨fun _ _ _ _ => rfl, rfl, rfl, rfl, rfl, rfl, rfl, rfl⟩

theorem Regs.onlyV_trans {r₀ r₁ r₂ : Regs} {d n : Nat} (h : OnlyV r₀ r₁ d n) (h' : OnlyV r₁ r₂ d n) : OnlyV r₀ r₂ d n := by
  obtain ⟨hv, hother⟩ := h
  obtain ⟨hv', hother'⟩ := h'
  exact ⟨fun q i hi hq => (hv' q i hi hq).trans (hv q i hi hq), by simp only [hother', hother, and_self]⟩

/-- A pair written in a lane, and the other registers kept. -/
theorem Regs.onlyV_setV2 (r : Regs) (d lane : Nat) (a : W64) (hl : lane < 32) : OnlyV r (r.setV2 d lane a) d 2 := by
  refine ⟨fun q i hi hq => ?_, rfl, rfl, rfl, rfl, rfl, rfl, rfl⟩
  have hlo : q ≠ d := by omega
  have hhi : q ≠ d + 1 := by omega
  simp [Regs.setV2, Regs.getV_setV, hl, hi, hlo, hhi]

/-- Writing a pair of a lane changes that lane's pair alone. -/
theorem Regs.getV2_setV2 (r : Regs) (d lane : Nat) (a : W64) (i : Nat) (hl : lane < 32) (hi : i < 32) :
    (r.setV2 d lane a).getV2 d i = if i = lane then a else r.getV2 d i := by
  by_cases h : i = lane <;> simp [Regs.getV2, Regs.setV2, Regs.getV_setV, hl, hi, h]

/-- A pair written in lanes, and the other registers kept. -/
theorem Regs.onlyV_writeV2 (d : Nat) (val : Nat → W64) (ls : List Nat) (hls : ∀ i ∈ ls, i < 32) (r : Regs) :
    OnlyV r (r.writeV2 d val ls) d 2 := by
  induction ls generalizing r with
  | nil => exact r.onlyV_refl d 2
  | cons j t ih =>
    obtain ⟨hj, ht⟩ := List.forall_mem_cons.mp hls
    exact Regs.onlyV_trans (r.onlyV_setV2 d j (val j) hj) (ih ht _)

/-- Writing a pair in lanes changes the pair of those lanes alone. -/
theorem Regs.getV2_writeV2 (d : Nat) (val : Nat → W64) (ls : List Nat) (hls : ∀ i ∈ ls, i < 32) (r : Regs) (i : Nat) (hi : i < 32) :
    (r.writeV2 d val ls).getV2 d i = if i ∈ ls then val i else r.getV2 d i := by
  induction ls generalizing r with
  | nil => rfl
  | cons j t ih =>
    obtain ⟨hj, ht⟩ := List.forall_mem_cons.mp hls
    rw [Regs.writeV2, ih ht, Regs.getV2_setV2 r d j _ i hj hi]
    by_cases hit : i ∈ t
    · simp [hit]
    · by_cases hij : i = j <;> simp [hit, hij]

/-- Writing the pair d in the active lanes is what R156 asks of a pair destination. -/
theorem Ctx.lanesV2_writeV2 (x : Ctx) (g : BitVec 3) (d : BitVec 6) (val : Nat → W64) :
    LanesV2 x (x.g.regs.writeV2 d.toNat val (x.lanes g.toNat)) g d val := by
  refine ⟨Regs.onlyV_writeV2 _ _ _ (x.lanes_lt _) _, fun i hi => ?_⟩
  simp [Regs.getV2_writeV2 _ _ _ (x.lanes_lt _) _ _ hi, hi]

/-! ### `getm` and `getk` -/

section
variable {g : BitVec 3} (n : BitVec 2) {a : BitVec 6} {s : State} {x : Ctx}

/-- `getm` of a part that nothing holds (R316). -/
theorem exec_getm_runs (hs : Issuing s x) (hr : NoRecords x) (hv : Holds x [(a, 2)]) : exec (.getm g n a) s =
    .next (s.retireRegs x (fun q => q.writeV2 a.toNat (fun l => x.g.regs.getMq n.toNat l) (x.lanes g.toNat))) := by
  rw [exec_getm, execGetm, State.issue_runs _ hs hr hv rfl rfl]

/-- `getk` of a part that nothing holds (R316). -/
theorem exec_getk_runs (hs : Issuing s x) (hr : NoRecords x) (hv : Holds x [(a, 2)]) : exec (.getk g n a) s =
    .next (s.retireRegs x (fun q => q.writeV2 a.toNat (fun l => x.g.regs.getMk n.toNat l) (x.lanes g.toNat))) := by
  rw [exec_getk, execGetk, State.issue_runs _ hs hr hv rfl rfl]

end

/-- A gang starts with no modulus set: each reads zero, as does its constant (R60). -/
theorem Gang.start_moduli (pc : W64) (n l : Nat) : (Gang.start pc).regs.getMq n l = 0 ∧ (Gang.start pc).regs.getMk n l = 0 :=
  ⟨rfl, rfl⟩

end Sys2Proof.Machine

namespace Sys2Proof.Proofs

open Sys2Proof.Machine Sys2Proof.Claims

/-- Settles O3: nothing holds the part, so it writes what `mq` or `mk` reads in the active lanes' pairs and advances; a gang
starts with both zero. -/
theorem readModulus : Obligations.ReadModulus := by
  refine ⟨fun g n a s x hs hr hv => ⟨?_, ?_⟩, Gang.start_moduli⟩
  · rw [exec_getm_runs n hs hr hv]
    exact ⟨_, State.steps_retireRegs hs _, x.lanesV2_writeV2 g a _⟩
  · rw [exec_getk_runs n hs hr hv]
    exact ⟨_, State.steps_retireRegs hs _, x.lanesV2_writeV2 g a _⟩

end Sys2Proof.Proofs
end

section
/-!
SUPPORT. What a line request leaves of the parts and of memory (09_memory R189, R218, R223), and the parts that advance or
wait after one.
-/

namespace Sys2Proof.Machine

open Sys2Proof.Claims

/-! ### Gangs -/

/-- The gang h is g, but for watches and reservations. -/
def Gang.Undisturbed (g h : Gang) : Prop := h = { g with watches := h.watches, resv := h.resv }

theorem Gang.Undisturbed.refl (g : Gang) : g.Undisturbed g := rfl

theorem Gang.Undisturbed.trans {g h i : Gang} (hgh : g.Undisturbed h) (hhi : h.Undisturbed i) : g.Undisturbed i := by
  unfold Gang.Undisturbed at *
  rw [hhi, hgh]

section
variable {g h : Gang}

theorem Gang.Undisturbed.regs (hu : g.Undisturbed h) : h.regs = g.regs := by rw [hu]
theorem Gang.Undisturbed.slices (hu : g.Undisturbed h) : h.slices = g.slices := by rw [hu]
theorem Gang.Undisturbed.buffer (hu : g.Undisturbed h) : h.buffer = g.buffer := by rw [hu]
theorem Gang.Undisturbed.fences (hu : g.Undisturbed h) : h.fences = g.fences := by rw [hu]

theorem Gang.Undisturbed.slice (hu : g.Undisturbed h) (k : Nat) : h.slice k = g.slice k := by
  rw [Gang.slice, hu.slices, Gang.slice]

end

/-- A gang that runs past no fence has nothing to roll back (R269). -/
theorem Gang.disturb_of_noFences {g : Gang} (hf : g.fences = []) (line : Nat) : g.disturb line = g := by
  simp [Gang.disturb, hf]

/-- A slice that has not exited is one of the gang's. -/
theorem Gang.lt_length_of_not_exited {g : Gang} {k : Nat} (h : (g.slice k).exited = false) : k < g.slices.length := by
  by_cases hk : k < g.slices.length
  · exact hk
  · simp [Gang.slice, hk] at h

/-- A slice of the list changes. -/
theorem Gang.slice_mapSlices_of_mem {g : Gang} {ks : List Nat} {k : Nat} (f : Nat → Slice → Slice) (hk : k ∈ ks)
    (hl : k < g.slices.length) : (g.mapSlices ks f).slice k = f k (g.slice k) := by
  simp [Gang.slice, Gang.mapSlices, hk, hl]

/-- A slice outside the list does not. -/
theorem Gang.slice_mapSlices_of_not_mem {g : Gang} {ks : List Nat} {k : Nat} (f : Nat → Slice → Slice) (hk : k ∉ ks) :
    (g.mapSlices ks f).slice k = g.slice k := by
  by_cases hl : k < g.slices.length <;> simp [Gang.slice, Gang.mapSlices, hk, hl]

/-- The slices of the part that issues are the gang's. -/
theorem Ctx.lt_length_of_mem_part {s : State} {x : Ctx} (hs : Issuing s x) {k : Nat} (hk : k ∈ x.part) : k < x.g.slices.length := by
  obtain ⟨c, g, j, -, hx⟩ := hs
  obtain ⟨-, -, -, -, hpart, -⟩ := s.ctxOf_spec c g j x hx
  rw [hpart, Gang.part, List.mem_filter, Bool.and_eq_true, Bool.not_eq_true'] at hk
  obtain ⟨-, hlive, -⟩ := hk
  exact Gang.lt_length_of_not_exited hlive

/-- A table whose values are all mapped. -/
theorem SMap.find_map {α : Type} (m : SMap α) (f : Nat → α → α) (k : Nat) :
    SMap.find (m.map (fun p => (p.1, f p.1 p.2))) k = (SMap.find m k).map (f k) := by
  induction m with
  | nil => rfl
  | cons p t ih =>
    obtain ⟨j, a⟩ := p
    by_cases hj : j = k
    · subst hj
      simp [SMap.find]
    · simpa [SMap.find, hj] using ih

/-- Each gang after a change of every gang. -/
theorem State.gang_mapGangs (s : State) (f : Nat → Nat → Gang → Gang) (c n : Nat) :
    (s.mapGangs f).gang? c n = (s.gang? c n).map (f c n) := by
  have hcrew : (s.mapGangs f).crew? c = (s.crew? c).map fun y => { y with gangs := y.gangs.map fun q => (q.1, f c q.1 q.2) } :=
    SMap.find_map s.crews (fun k (y : Crew) => { y with gangs := y.gangs.map fun q => (q.1, f k q.1 q.2) }) c
  unfold State.gang?
  rw [hcrew]
  cases s.crew? c with
  | none => rfl
  | some y => exact SMap.find_map y.gangs (f c) n

/-! ### Copies of a line, as bytes of memory -/

theorem mergeByte_whole (old v : Byte) (a : Nat) : mergeByte old { addr := a, value := v, bits := 255 } = v := by
  have hones : (255 : Byte) = BitVec.allOnes 8 := rfl
  rw [mergeByte, hones, BitVec.not_allOnes, BitVec.and_zero, BitVec.zero_or, BitVec.and_allOnes]

theorem Memory.apply_cons (m : Memory) (w : ByteWrite) (t : List ByteWrite) :
    Memory.apply m (w :: t) = Memory.apply (Memory.write m w.addr (mergeByte (Memory.read m w.addr) w)) t := rfl

/-- Memory after whole bytes of a line are written. -/
theorem Memory.read_apply_line (data : Nat → Byte) (line a : Nat) (is : List Nat) (his : ∀ i ∈ is, i < 128) (m : Memory) :
    Memory.read (Memory.apply m (is.map fun i => { addr := line * 128 + i, value := data i, bits := 255 })) a
      = if lineOf a = line ∧ a % 128 ∈ is then data (a % 128) else Memory.read m a := by
  induction is generalizing m with
  | nil => simp [Memory.apply]
  | cons j t ih =>
    obtain ⟨hj, ht⟩ := List.forall_mem_cons.mp his
    rw [List.map_cons, Memory.apply_cons, mergeByte_whole, ih ht]
    by_cases hat : lineOf a = line ∧ a % 128 ∈ t
    · simp [hat]
    by_cases haj : a = line * 128 + j
    · have hline : lineOf a = line := by unfold lineOf; omega
      have hoff : a % 128 = j := by omega
      rw [if_neg hat, if_pos ⟨hline, by simp [hoff]⟩, hoff, ← haj, Memory.read_write_same]
    · have hother : ¬ (lineOf a = line ∧ a % 128 = j) := by unfold lineOf; omega
      have hcons : ¬ (lineOf a = line ∧ a % 128 ∈ j :: t) := by
        rw [List.mem_cons, and_or_left]
        exact not_or.mpr ⟨hother, hat⟩
      rw [if_neg hat, Memory.read_write_other _ _ haj, if_neg hcons]

/-- Memory after a core's copy of a line is written to it. -/
theorem PvLine.read_apply_bytes (l : PvLine) (line a : Nat) (m : Memory) :
    Memory.read (Memory.apply m (l.bytes line)) a = if lineOf a = line then SMap.getD l.data (a % 128) 0 else Memory.read m a := by
  rw [PvLine.bytes, Memory.read_apply_line (fun i => SMap.getD l.data i 0) line a _ (by simp) m]
  simp [Nat.mod_lt]

/-! ### What line requests leave -/

/-- What line requests leave of a state: gangs that run past no fence are undisturbed, no core has a new copy of a PV line, and
a byte of memory changes only to that of a changed copy. -/
structure State.Served (s t : State) : Prop where
  clock : t.clock = s.clock
  gangs : ∀ c n g, s.gang? c n = some g → g.fences = [] → ∃ h, t.gang? c n = some h ∧ g.Undisturbed h
  copies : ∀ core line l, t.pvLine core line = some l → s.pvLine core line = some l
  mem : KeptMem s t

/-- A state with the same crews, copies, memory and clock. -/
theorem State.Served.of_eq {s t : State} (hclock : t.clock = s.clock) (hcrews : t.crews = s.crews) (hcores : t.cores = s.cores)
    (hmem : t.mem = s.mem) : s.Served t where
  clock := hclock
  gangs c n g hg _ := ⟨g, by simpa only [State.gang?, State.crew?, hcrews] using hg, .refl g⟩
  copies _ _ _ hl := by simpa only [State.pvLine, State.core, hcores] using hl
  mem a := .inl (by rw [hmem])

theorem State.Served.refl (s : State) : s.Served s := .of_eq rfl rfl rfl rfl

theorem State.Served.trans {s t u : State} (hst : s.Served t) (htu : t.Served u) : s.Served u where
  clock := htu.clock.trans hst.clock
  gangs c n g hg hf := by
    obtain ⟨h, hh, hgh⟩ := hst.gangs c n g hg hf
    obtain ⟨i, hi, hhi⟩ := htu.gangs c n h hh (hgh.fences.trans hf)
    exact ⟨i, hi, hgh.trans hhi⟩
  copies core line l hl := hst.copies core line l (htu.copies core line l hl)
  mem a := by
    rcases htu.mem a with hkept | ⟨core, l, hl, hd, hv⟩
    · rw [hkept]
      exact hst.mem a
    · exact .inr ⟨core, l, hst.copies _ _ _ hl, hd, hv⟩

/-- Requests one after another. -/
theorem State.served_foldl {α : Type} (f : State → α → State) (hf : ∀ (t : State) a, t.Served (f t a)) (s : State) (as : List α) :
    s.Served (as.foldl f s) :=
  List.foldlRecOn as f (.refl s) fun _ ht a _ => ht.trans (hf _ a)

/-- A change of every gang that leaves those undisturbed that run past no fence. -/
theorem State.served_mapGangs (s : State) {f : Nat → Nat → Gang → Gang}
    (hf : ∀ c n (g : Gang), g.fences = [] → g.Undisturbed (f c n g)) : s.Served (s.mapGangs f) where
  clock := rfl
  gangs c n g hg hfences := ⟨f c n g, by rw [s.gang_mapGangs f c n, hg, Option.map_some], hf c n g hfences⟩
  copies _ _ _ hl := hl
  mem _ := .inl rfl

theorem State.served_mapGangs_disturb (s : State) (line : Nat) : s.Served (s.mapGangs fun _ _ g => g.disturb line) :=
  s.served_mapGangs fun _ _ g hf => by
    rw [Gang.disturb_of_noFences hf]
    exact .refl g

theorem State.served_mapRings (s : State) (f : Ring → Ring) : s.Served (s.mapRings f) := .of_eq rfl rfl rfl rfl

theorem State.served_fire (s : State) (line : Nat) : s.Served (s.fire line) := by
  unfold State.fire
  refine (s.served_mapGangs ?_).trans (State.served_mapRings _ _)
  exact fun _ _ _ _ => rfl

theorem State.served_unreserve (s : State) (line : Nat) : s.Served (s.unreserve line) :=
  (s.served_mapGangs (f := fun _ _ g => { g with resv := g.resv.filter (fun p => lineOf p.2.addr != line) })
    fun _ _ _ _ => rfl).trans (.of_eq rfl rfl rfl rfl)

/-- A write of a PV line (R292). -/
theorem State.writeLine_pv (s : State) (w : Writer) (line : Nat) (bs : List ByteWrite) :
    let u := (State.fire { s with mem := Memory.apply s.mem bs } line).unreserve line
    s.writeLine .pv w line bs
      = u.mapGangs fun c _ g => if (u.pvLine (u.coreOf c) line).isSome then g else g.disturb line := by
  simp [State.writeLine, State.invalidate]

/-- A core's changed copy of a line is written to its home slice (R286). -/
theorem State.Served.writeLine_pv {s t : State} (h : s.Served t) {core line : Nat} {l : PvLine} (w : Writer)
    (hl : s.pvLine core line = some l) (hd : l.dirty = true) : s.Served (t.writeLine .pv w line (l.bytes line)) := by
  have hbytes : s.Served { t with mem := Memory.apply t.mem (l.bytes line) } :=
    { clock := h.clock
      gangs := h.gangs
      copies := h.copies
      mem := fun a => by
        simp only [PvLine.read_apply_bytes]
        split
        · next ha => exact .inr ⟨core, l, ha ▸ hl, hd, rfl⟩
        · exact h.mem a }
  rw [State.writeLine_pv]
  refine hbytes.trans ((State.served_fire _ line).trans ((State.served_unreserve _ line).trans (State.served_mapGangs _ ?_)))
  intro c _ g hf
  split
  · exact .refl g
  · rw [Gang.disturb_of_noFences hf]
    exact .refl g

theorem State.served_dropCopy (s : State) (core line : Nat) : s.Served (s.dropCopy core line) := by
  unfold State.dropCopy
  dsimp only
  split
  · refine { clock := rfl, gangs := fun _ _ g hg _ => ⟨g, hg, .refl g⟩, copies := fun n m l hl => ?_, mem := fun _ => .inl rfl }
    by_cases hn : n = core
    · subst hn
      by_cases hm : m = line
      · simp [State.pvLine, CoreState.drop, hm] at hl
      · simpa [State.pvLine, CoreState.drop, SMap.find_erase_other _ hm] using hl
    · simpa [State.pvLine, State.core, SMap.getD_put_other _ _ _ hn] using hl
  · exact .refl s

theorem State.served_eraseDir (s : State) (line : Nat) : s.Served { s with dir := SMap.erase s.dir line } := .of_eq rfl rfl rfl rfl

theorem State.served_dropCopies (s : State) (line : Nat) : s.Served (s.dropCopies line) :=
  State.served_foldl _ (fun t n => t.served_dropCopy n line) s _

/-- A recall writes changed copies and drops every copy (R218). -/
theorem State.served_recallLine (s : State) (line : Nat) : s.Served (s.recallLine line) := by
  have hwrites : s.Served ((s.cores.map (·.1)).foldl (fun (t : State) (n : Nat) => match s.pvLine n line with
      | some l => if l.dirty then t.writeLine .pv (.gang l.crew 0 0) line (l.bytes line) else t
      | none => t) s) := by
    refine List.foldlRecOn _ _ (.refl s) fun t ht n _ => ?_
    split
    · next l hl =>
      split
      · next hd => exact ht.writeLine_pv _ hl hd
      · exact ht
    · exact ht
  refine hwrites.trans ((State.served_dropCopies _ line).trans ?_)
  exact (State.served_eraseDir _ line).trans ((State.served_unreserve _ line).trans (State.served_mapGangs_disturb _ line))

theorem State.served_count (s : State) (pa : Nat) (die : Option Nat) : s.Served (s.count pa die) := by
  unfold State.count
  split
  · exact .refl s
  · extract_lets
    split <;> exact .of_eq rfl rfl rfl rfl

theorem State.served_allocate (s : State) (line guest : Nat) (lru : Bool) : s.Served (s.allocate line guest lru) := by
  unfold State.allocate
  dsimp only
  split
  · split
    · exact .refl s
    · exact .of_eq rfl rfl rfl rfl
  · split
    · exact .of_eq rfl rfl rfl rfl
    · split
      · exact .refl s
      · next v _ => exact (s.served_recallLine v.line).trans (.of_eq rfl rfl rfl rfl)

/-- A line request that arrives at a home slice. -/
theorem State.served_requestAs (s : State) (line : Nat) (die : Option Nat) (guest : Nat) (lru : Bool) :
    s.Served (s.requestAs line die guest lru) := by
  unfold State.requestAs
  split
  · exact .refl s
  · exact (s.served_count _ die).trans (State.served_allocate _ line guest lru)

/-- A line request of an agent. -/
theorem State.served_request (s : State) (line : Nat) (w : Writer) (lru : Bool) : s.Served (s.request line w lru) :=
  s.served_requestAs line _ _ lru

/-- The line requests of a read. -/
theorem State.served_requestRead (s : State) (ps : List Piece) (w : Writer) : s.Served (s.requestRead ps w) := by
  unfold State.requestRead
  refine State.served_foldl _ ?_ s _
  exact fun t l => t.served_request l.1 w false

/-! ### Parts after line requests -/

section
variable {s t : State} {x : Ctx}

/-- The gang of the part that issues, after line requests. -/
theorem State.Served.gang_of_issuing (h : s.Served t) (hs : Issuing s x) (hf : NoFence x) :
    ∃ g, t.gang? x.crew x.gang = some g ∧ x.g.Undisturbed g :=
  h.gangs _ _ _ (s.gang_of_issuing hs) hf

/-- The part that issues stands where its context was read. -/
theorem State.Served.not_moved (h : s.Served t) (hs : Issuing s x) (hf : NoFence x) : t.moved x = false := by
  obtain ⟨g, hg, hu⟩ := h.gang_of_issuing hs hf
  obtain ⟨c, n, k, -, hx⟩ := hs
  obtain ⟨-, -, -, -, -, -, -, hpc, hhints⟩ := s.ctxOf_spec c n k x hx
  simp [State.moved, hg, hu.slice, hpc, hhints]

/-- Changing the slices of the part that issues, after line requests. -/
theorem Gang.Undisturbed.slice_mapSlices_part {g : Gang} (hu : x.g.Undisturbed g) (hs : Issuing s x) (f : Nat → Slice → Slice) :
    (∀ k ∈ x.part, (g.mapSlices x.part f).slice k = f k (x.g.slice k))
      ∧ ∀ k, k ∉ x.part → (g.mapSlices x.part f).slice k = x.g.slice k := by
  simp only [← hu.slice]
  exact ⟨fun k hk => Gang.slice_mapSlices_of_mem f hk (hu.slices ▸ Ctx.lt_length_of_mem_part hs hk),
    fun k hk => Gang.slice_mapSlices_of_not_mem f hk⟩

/-- Storing a gang changes no byte. -/
theorem State.Served.keptMem_setGang (h : s.Served t) (c n : Nat) (g : Gang) : KeptMem s (t.setGang c n g) := by
  intro a
  rw [State.setGang_mem]
  exact h.mem a

/-- The part that issues changes its registers and advances. -/
theorem State.Served.moves_retireRegs (h : s.Served t) (hs : Issuing s x) (hf : NoFence x) (f : Regs → Regs) :
    Moves s x (.next (t.retireRegs x f)) (f x.g.regs) := by
  obtain ⟨g, hg, hu⟩ := h.gang_of_issuing hs hf
  have heq : t.retireRegs x f = t.setGang x.crew x.gang (({ g with regs := f g.regs } : Gang).retire x) := by
    simp [State.retireRegs, hg, State.retire]
  rw [heq]
  exact ⟨_, rfl, ⟨_, t.gang_setGang _ _ _ _ hg, congrArg f hu.regs, hu.slice_mapSlices_part hs _⟩, h.keptMem_setGang _ _ _⟩

/-- The part that issues waits. -/
theorem State.Served.waits_waitPart (h : s.Served t) (hs : Issuing s x) (hf : NoFence x) (code num operand : Nat) :
    Waits s x (.next (t.waitPart x code num operand)) code num operand KeptMem := by
  obtain ⟨g, hg, hu⟩ := h.gang_of_issuing hs hf
  have heq : t.waitPart x code num operand = t.setGang x.crew x.gang (g.waitAt x code num operand s.clock) := by
    simp [State.waitPart, State.completeFence_none t _ _ x.mask g hg (hu.fences.trans hf), h.not_moved hs hf, hg, h.clock]
  obtain ⟨hin, hout⟩ := hu.slice_mapSlices_part hs _
  rw [heq]
  exact ⟨_, _, rfl, t.gang_setGang _ _ _ _ hg, hu.regs, hu.buffer, hin, hout, h.keptMem_setGang _ _ _⟩

end

end Sys2Proof.Machine
end

section
/-!
SUPPORT. `s` pairs written in slices, the fields of a ring's descriptor, and the shape of a queue instruction that is no release
(18_engines R356, R375, R380).
-/

namespace Sys2Proof.Machine

open Sys2Proof.Claims

/-! ### Pairs of `s` registers -/

theorem Regs.onlyS_refl (r : Regs) (d n : Nat) : OnlyS r r d n := ⟨fun _ _ _ _ => rfl, rfl, rfl, rfl, rfl, rfl, rfl, rfl⟩

theorem Regs.onlyS_trans {r₀ r₁ r₂ : Regs} {d n : Nat} (h : OnlyS r₀ r₁ d n) (h' : OnlyS r₁ r₂ d n) : OnlyS r₀ r₂ d n := by
  obtain ⟨hs, hother⟩ := h
  obtain ⟨hs', hother'⟩ := h'
  exact ⟨fun q k hq hqd => (hs' q k hq hqd).trans (hs q k hq hqd), by simp only [hother', hother, and_self]⟩

/-- A pair written in a slice, and the other registers kept. -/
theorem Regs.onlyS_setS2 (r : Regs) {d : Nat} (hd : d + 1 < 64) (k : Nat) (a : W64) : OnlyS r (r.setS2 k d a) d 2 := by
  refine ⟨fun q j hq hqd => ?_, rfl, rfl, rfl, rfl, rfl, rfl, rfl⟩
  have hd' : d < 64 := by omega
  have hlo : q ≠ d := by omega
  have hhi : q ≠ d + 1 := by omega
  simp [Regs.setS2, Regs.getS_setS, hd, hd', hq, hlo, hhi]

/-- Writing a pair of a slice changes that slice's pair alone. -/
theorem Regs.getS2_setS2 (r : Regs) {d : Nat} (hd : d + 1 < 64) (k : Nat) (a : W64) (j : Nat) :
    (r.setS2 k d a).getS2 j d = if j = k then a else r.getS2 j d := by
  have hd' : d < 64 := by omega
  by_cases hj : j = k <;> simp [Regs.getS2, Regs.setS2, Regs.getS_setS, hd, hd', hj]

/-- A pair written in slices, and the other registers kept. -/
theorem Regs.onlyS_writeS2 {d : Nat} (hd : d + 1 < 64) (val : Nat → W64) (ks : List Nat) (r : Regs) :
    OnlyS r (r.writeS2 d val ks) d 2 := by
  induction ks generalizing r with
  | nil => exact r.onlyS_refl d 2
  | cons k t ih => exact Regs.onlyS_trans (r.onlyS_setS2 hd k (val k)) (ih _)

/-- Writing a pair in slices changes the pair of those slices alone. -/
theorem Regs.getS2_writeS2 {d : Nat} (hd : d + 1 < 64) (val : Nat → W64) (ks : List Nat) (r : Regs) (j : Nat) :
    (r.writeS2 d val ks).getS2 j d = if j ∈ ks then val j else r.getS2 j d := by
  induction ks generalizing r with
  | nil => rfl
  | cons k t ih =>
    rw [Regs.writeS2, ih, Regs.getS2_setS2 r hd]
    by_cases hjt : j ∈ t
    · simp [hjt]
    · by_cases hjk : j = k <;> simp [hjt, hjk]

/-- Writing one value to the even pair d of every slice of the part. -/
theorem Ctx.slicesS2_writeS2 (x : Ctx) {d : BitVec 6} (hd : d.toNat % 2 = 0) (v : W64) :
    SlicesS2 x (x.g.regs.writeS2 d.toNat (fun _ => v) x.part) d v := by
  have hpair : d.toNat + 1 < 64 := by omega
  exact ⟨Regs.onlyS_writeS2 hpair _ _ _, fun j _ => Regs.getS2_writeS2 hpair _ _ _ j⟩

/-! ### Descriptors (R356) -/

theorem Memory.drop_readBytes (m : Memory) (a n i : Nat) : (Memory.readBytes m a n).drop i = Memory.readBytes m (a + i) (n - i) := by
  induction i generalizing a n with
  | zero => rfl
  | succ i ih =>
    cases n with
    | zero => simp [Memory.readBytes]
    | succ n =>
      rw [Memory.readBytes, List.drop_succ_cons, ih, Nat.add_right_comm a 1 i, Nat.succ_sub_succ]
      rfl

theorem Memory.take_readBytes (m : Memory) (a n j : Nat) (h : j ≤ n) : (Memory.readBytes m a n).take j = Memory.readBytes m a j := by
  induction j generalizing a n with
  | zero => rfl
  | succ j ih =>
    cases n with
    | zero => omega
    | succ n => rw [Memory.readBytes, List.take_succ_cons, ih _ _ (by omega), Memory.readBytes]

/-- A field of bytes in memory is a number in memory. -/
theorem Memory.readNat_field (m : Memory) (a n i j : Nat) (h : i + j ≤ n) :
    bytesNat (((Memory.readBytes m a n).drop i).take j) = Memory.readNat m (a + i) j := by
  rw [Memory.drop_readBytes, Memory.take_readBytes _ _ _ _ (by omega), Memory.readNat]

theorem Memory.desc_head (m : Memory) (a : Nat) : (Memory.desc m a).head = Memory.readNat m (a + 16) 8 :=
  Memory.readNat_field m a 64 16 8 (by decide)

theorem Memory.desc_tail (m : Memory) (a : Nat) : (Memory.desc m a).tail = Memory.readNat m (a + 8) 8 :=
  Memory.readNat_field m a 64 8 8 (by decide)

/-! ### The shape of a queue instruction -/

/-- No entry of a buffer is due when none is of the parts of the mask. -/
theorem mem_flagDue_of_noEntries {m : BitVec 8} {l : List BufEntry} (h : ∀ e ∈ l, e.slices &&& m = 0) (due : BufEntry → Bool) :
    ∀ q ∈ flagDue m due l, q.2 = false := by
  induction l with
  | nil => simp [flagDue]
  | cons e t ih =>
    obtain ⟨he, ht⟩ := List.forall_mem_cons.mp h
    have htail := ih ht
    have hnone : (flagDue m due t).any (fun q => q.2 && q.1.behind e) = false := by
      rw [List.any_eq_false]
      intro q hq
      simp [htail q hq]
    rw [flagDue, List.forall_mem_cons]
    exact ⟨by simp [he, hnone], htail⟩

/-- The entries before a mark are entries of the buffer. -/
theorem mem_of_mem_splitMark {m : BitVec 8} {l : List BufEntry} {e : BufEntry} (h : e ∈ (splitMark m l).1) : e ∈ l := by
  induction l with
  | nil => exact h
  | cons b t ih =>
    have hkeep : e ∈ b :: (splitMark m t).1 → e ∈ b :: t := by
      simp only [List.mem_cons]
      exact Or.imp_right ih
    unfold splitMark at h
    split at h
    · split at h
      · cases h
      · exact hkeep h
    · exact hkeep h

/-- Nothing is performed for parts that have buffered no store. -/
theorem State.performDue_of_noEntries {s : State} {crew gang : Nat} {m : BitVec 8} {g : Gang} (hg : s.gang? crew gang = some g)
    (hb : ∀ e ∈ g.buffer, e.slices &&& m = 0) (due : BufEntry → Bool) : s.performDue crew gang m due = s := by
  have htodo : (g.dueEntries m due).1 = [] := by
    have hflag := mem_flagDue_of_noEntries (l := (splitMark m g.buffer).1) (fun e he => hb e (mem_of_mem_splitMark he)) due
    simp only [Gang.dueEntries, List.map_eq_nil_iff, List.filter_eq_nil_iff]
    intro q hq
    simp [hflag q hq]
  simp [State.performDue, hg, htodo]

/-- No load is bound when none is chosen. -/
theorem State.bindLoads_of_none {s : State} {crew gang : Nat} {g : Gang} (hg : s.gang? crew gang = some g) {sel : Flight → Bool}
    (h : ∀ f ∈ g.loads, sel f = false) : s.bindLoads crew gang sel = s := by
  have hnone : g.loads.any sel = false := by simpa using h
  simp only [State.bindLoads, hg, hnone, Bool.not_false, if_true]

/-- No fill is bound when none is chosen. -/
theorem State.bindFills_of_none {s : State} {sel : Fill → Bool} (h : ∀ f ∈ s.fills, sel f = false) : s.bindFills sel = s := by
  have hnone : s.fills.filter (fun f => f.data.isNone && sel f) = [] := by
    rw [List.filter_eq_nil_iff]
    intro f hf
    simp [h f hf]
  simp [State.bindFills, hnone]

section
variable {s : State} {x : Ctx}

/-- A part that waits for nothing reads a location after nothing of its own (R283). -/
theorem State.beforeAtomic_of_fresh (hs : Issuing s x) (hfresh : Fresh s x) (size : Nat) (good : List (Nat × Page)) :
    s.beforeAtomic x false size good = s := by
  obtain ⟨⟨-, hloads⟩, hfences, hbuffer, -, hfills⟩ := hfresh
  have hg := s.gang_of_issuing hs
  have hclear (ps : List Piece) : s.clearHazard x ps = s := by
    rw [State.clearHazard, s.completeFence_none _ _ x.mask x.g hg hfences, State.performDue_of_noEntries hg hbuffer]
  have horder (ps : List Piece) : s.readOrder x ps = s := by
    rw [State.readOrder, State.bindLoads_of_none hg fun f hf => by simp [hloads f hf],
      State.bindFills_of_none fun f hf => by simp [hfills f hf]]
  rw [State.beforeAtomic, Bool.false_and, if_neg Bool.false_ne_true, hclear, horder]

/-- A queue instruction that is no release, of a part that nothing holds: the line request reaches the location's home slice, and
the instruction acts there (R375). -/
theorem State.queueOp_of_fresh (hs : Issuing s x) (hfresh : Fresh s x) {k : Nat} (hk : x.uslice = some k) {a : BitVec 6} {size : Nat}
    {op : Option HomeOp} {p : Page} (hp : Queueable s x (x.g.regs.getS2 k a.toNat) size op p)
    (act : Ctx → State → Nat → W64 → Page → Out) :
    s.queueOp a size op false act = act x (asked s x p size) k (x.g.regs.getS2 k a.toNat) p := by
  obtain ⟨hplace, -, -⟩ := hp
  have hbefore := State.beforeAtomic_of_fresh hs hfresh size [(0, p)]
  obtain ⟨hrecords, hfences, -⟩ := hfresh
  obtain ⟨c, g, j, hcur, hctx⟩ := hs
  rw [State.queueOp, s.issue_part _ _ _ c g j x hcur hctx, s.issueGang_runs x _ _ _ rfl (Ctx.recordHazard_of_noRecords hrecords _)
    (Ctx.loadHazard_of_noRecords hrecords _) (.inr hfences) (Ctx.rangeBreach_of_holds (by simp [Holds]))]
  simp [hk, hplace, hbefore, asked]

/-! ### `qhead` and `qhead.wait` -/

/-- The head goes to the pair of every slice, and the part advances (R380). -/
theorem State.moves_putHead (hs : Issuing s x) (hf : NoFence x) {t : State} (ht : s.Served t) {d : BitVec 6} (hd : d.toNat % 2 = 0)
    (v : Nat) : ∃ r, Moves s x (t.putHead x d v) r ∧ SlicesS2 x r d (BitVec.ofNat 64 v) :=
  ⟨_, ht.moves_retireRegs hs hf _, x.slicesS2_writeS2 hd _⟩

end

end Sys2Proof.Machine

namespace Sys2Proof.Proofs

open Sys2Proof.Machine Sys2Proof.Claims

/-- Settles O10: the part acts in the state that the line request leaves, where its gang is undisturbed; the descriptor's fields
are those 64 bits of memory, and `qhead.wait` splits on head = tail. -/
theorem ringHead : Obligations.RingHead := by
  intro f s x k p hs hfresh hk hd addr hp u tail head
  have ⟨_, hf, _⟩ := hfresh
  have hserved : s.Served u := s.served_requestRead _ _
  have hwait : exec (.qheadWait f) s = if head = tail then .next (u.waitPart x 4 1 addr.toNat) else u.putHead x f.d head := by
    rw [exec_qheadWait, execQheadWait, State.queueOp_of_fresh hs hfresh hk hp]
    simp only [Memory.desc_head, Memory.desc_tail]
    rfl
  have hread : exec (.qhead f) s = u.putHead x f.d head := by
    rw [exec_qhead, execQhead, State.queueOp_of_fresh hs hfresh hk hp, Memory.desc_head]
  refine ⟨?_, fun heq => ?_, fun hne => ?_⟩
  · rw [hread]
    exact State.moves_putHead hs hf hserved hd head
  · rw [hwait, if_pos heq]
    exact hserved.waits_waitPart hs hf 4 1 addr.toNat
  · rw [hwait, if_neg hne]
    exact State.moves_putHead hs hf hserved hd head

end Sys2Proof.Proofs
end

section
/-!
SUPPORT. What a precise trap leaves of the part that takes it (22_system R426), and what skipping a trap leaves of its gang (R428).
-/

namespace Sys2Proof.Machine

open Sys2Proof.Claims

/-! ### Traps of a part that nothing holds -/

/-- `brk` of a part that nothing holds takes the breakpoint fault (R439). -/
theorem exec_brk_runs (n : BitVec 8) {s : State} {x : Ctx} (hs : Issuing s x) (hr : NoRecords x) :
    exec (.brk n) s = .next (s.takeTrap x { kind := .breakpoint, detail := n.toNat }) := by
  rw [exec_brk, execBrk, State.issue_runs _ hs hr (by simp [Holds]) rfl rfl]

/-- `nop` of a part that nothing holds advances it (R439). -/
theorem exec_nop_runs {s : State} {x : Ctx} (hs : Issuing s x) (hr : NoRecords x) : exec .nop s = .next (s.retireHere x) := by
  rw [exec_nop, execNop, State.issueBoth_runs true _ _ hs hr (by simp [Holds]) rfl rfl]

/-- A part that runs past no fence takes a trap that is not a lane's: its record names no address and the part's active lanes
(R427). -/
theorem State.takeTrap_of_issuing {s : State} {x : Ctx} (hs : Issuing s x) (hf : NoFence x) (t : Trap) :
    s.takeTrap x t = s.setGang x.crew x.gang { x.g.waitAt x 10 0 0 s.clock with
      stops := x.g.stops ++
        [{ slices := x.mask, trap := t, addr := x.start, va := 0, lanes := laneMask (x.lanes 7), tag := none, park := false }] } := by
  obtain ⟨c, g, k, -, hx⟩ := hs
  exact s.takeTrapAt_eq c g k x t 0 _ hx hf

/-- The part that issues advances with its registers as they are, and nothing else changes. -/
theorem State.steps_retireHere {s : State} {x : Ctx} (hs : Issuing s x) : Steps s x (.next (s.retireHere x)) x.g.regs := by
  have heq := s.retireHere_eq x (s.gang_of_issuing hs)
  exact ⟨_, rfl, heq, fun a => by rw [heq, State.setGang_mem]⟩

/-! ### A trap that is skipped -/

@[simp] theorem mem_slicesOf (m : BitVec 8) (k : Nat) : k ∈ slicesOf m ↔ k < 8 ∧ m.getLsbD k = true := by
  simp [slicesOf]

/-- A trap that is dropped no longer stands with its gang. -/
theorem Gang.not_mem_stops_dropStop (g : Gang) (t : Stop) : t ∉ (g.dropStop t).stops := by
  simp [Gang.dropStop]

/-- Slices that leave their waits go on behind the groups they wait at. -/
theorem Gang.passed_passWait (g : Gang) (m : BitVec 8) : Passed g (g.passWait m) m := by
  intro k hk hm hl w hw
  have hslice : (g.passWait m).slice k = _ := Gang.slice_mapSlices_of_mem _ ((mem_slicesOf m k).mpr ⟨hk, hm⟩) hl
  rw [hslice, hw]
  exact ⟨rfl, rfl⟩

/-- The gang after a skip of a trap (R428): the trap is dropped, its part is behind its group, and the part's replay masks
are spent. -/
def Gang.skipStop (g : Gang) (t : Stop) : Gang :=
  { (g.dropStop t).passWait t.slices with replay := (slicesOf t.slices).foldl (fun m k => SMap.erase m k) g.replay }

theorem Gang.skipStop_regs (g : Gang) (t : Stop) : (g.skipStop t).regs = g.regs := rfl

theorem Gang.not_mem_stops_skipStop (g : Gang) (t : Stop) : t ∉ (g.skipStop t).stops := g.not_mem_stops_dropStop t

theorem Gang.passed_skipStop (g : Gang) (t : Stop) : Passed g (g.skipStop t) t.slices := (g.dropStop t).passed_passWait t.slices

/-- A crew that runs has no image to store to. -/
theorem State.imageStore_of_running (s : State) (crew : Nat) {c : Crew} (h : c.phase = .running) (l : List (Nat × List Byte)) :
    s.imageStore crew c l = s := by
  simp [State.imageStore, h]

/-- A skip of a trap of a crew that runs changes the trap's gang alone (R428). -/
theorem exec_tresSkip_running {die tag : Nat} {s : State} {crew : Nat} {c : Crew} {gang : Nat} {g : Gang} {t : Stop}
    (ht : s.findStop (die % 4) tag = some (crew, c, gang, g, t)) (hc : c.phase = .running) :
    exec (.tresSkip die tag) s = .next (s.setGang crew gang (g.skipStop t)) := by
  rw [exec_tresSkip, execTresSkip, ht]
  exact congrArg _ (State.imageStore_of_running _ crew hc _)

end Sys2Proof.Machine

namespace Sys2Proof.Proofs

open Sys2Proof.Machine Sys2Proof.Claims

/-- Settles O11: nothing holds the part, so it takes the trap, and storing its gang changes no byte; a skip drops that trap and
moves its part behind the group; `nop` advances with the registers as they are. -/
theorem breakpointAndNop : Obligations.BreakpointAndNop := by
  refine ⟨fun n s x hs hr hf => ?_, fun die tag s crew c gang g st hst hc _ => ?_, fun s x hs hr => ?_⟩
  · rw [exec_brk_runs n hs hr, State.takeTrap_of_issuing hs hf]
    obtain ⟨hin, hout⟩ := (Gang.Undisturbed.refl x.g).slice_mapSlices_part hs _
    refine ⟨_, _, rfl, rfl, fun a => by rw [State.setGang_mem], rfl, rfl, rfl, fun k hk => ?_, hout⟩
    have hslice := hin k hk
    exact ⟨congrArg Slice.pc hslice, congrArg Slice.wait hslice⟩
  · rw [exec_tresSkip_running hst hc]
    exact ⟨_, rfl, g.skipStop_regs st, g.not_mem_stops_skipStop st, g.passed_skipStop st⟩
  · rw [exec_nop_runs hs hr]
    exact State.steps_retireHere hs

end Sys2Proof.Proofs
end
